-- ==== Sys2Proof/Word.lean ====
section
/-!
DEFINITION. The word types of the Kloalper (R11, R21): bytes, 32-bit registers and words, 64-bit
uniform registers and addresses. Memory, in words and in structures, is little-endian (R11).
-/
namespace Sys2Proof

/-- One byte of memory. -/
abbrev Byte := BitVec 8

/-- A v-register value, or an instruction word (R21, R85). -/
abbrev Word := BitVec 32

/-- An s-register value, or an address (R34, R161). -/
abbrev Word64 := BitVec 64

end Sys2Proof
end

