-- ==== Sys2Proof/Syntax.lean ====
section
/-!
DEFINITION. The syntax of the Unsoade instruction set: one constructor for every row of the opcode
table. The first 231 constructors are the 32-bit instruction words (R85 to R96), their fields named as
the table names them: operand codes (R26) are 7 bits wide, s-registers 6, predicates 3. A field with
reserved codes (a condition, a scope, an atomic operation, a size, a fence order) is an inductive type
with one constructor for each code that is not reserved. The other 86 constructors are the events of the device and of its
surroundings (95_what_each_step_holds.md); they have no word.
-/
namespace Sys2Proof

/-- Condition codes of ICMP and SCMP (R90); codes 10 to 15 are reserved. -/
inductive ICmp where
  | eq | ne | ltS | leS | gtS | geS | ltU | leU | gtU | geU
  deriving DecidableEq, Repr

/-- Condition codes of FCMP (R90, R149); codes 8 to 15 are reserved. -/
inductive FCmp where
  | eq | ne | lt | le | gt | ge | un | ord
  deriving DecidableEq, Repr

/-- SCOPE codes 0 to 7 (R87), narrowest first. -/
inductive Scope where
  | thread | group | team | unit | die | module | pod | system
  deriving DecidableEq, Repr

/-- The orders of FENCE (R181); codes 3 to 7 are reserved. -/
inductive FenceOrd where
  | acqRel | acquire | release
  deriving DecidableEq, Repr

/-- AOP codes 0 to 9 (R92, R176). Code 10 has table rows of its own in 0x5C and 0x5D. -/
inductive AtomOp where
  | add | minS | maxS | minU | maxU | and | or | xor | xchg | cas
  deriving DecidableEq, Repr

/-- AOP codes of ATOML: those of ATOM and 10, FADD (R180). -/
inductive LAtomOp where
  | op (o : AtomOp)
  | fadd
  deriving DecidableEq, Repr

/-- SZ codes 0 to 4 (R92, R170): 1, 2, 4, 8 and 16 bytes. -/
inductive Size where
  | b | h | w | d | q
  deriving DecidableEq, Repr

/-- Sizes of CPY (R94, R191): 4, 8 and 16 bytes, codes 2, 3 and 4. -/
inductive CopySize where
  | four | eight | sixteen
  deriving DecidableEq, Repr

/-- A flit of a convoy collective as a member receives it (R414): the context tag, convoy group and
sequence number, the node it came from, the member whose data it carries, the shape of that member's
issue, the data with the mark of a poisoned source (R433), and a nonzero failure code when the member reports that the
collective failed (R246). -/
structure Flit where
  ctx : Nat
  group : Nat
  seq : Nat
  node : Nat
  rank : Nat
  op : Nat
  type : Nat
  norm : Bool
  len : Nat
  offset : Nat
  data : List Byte
  marked : Bool
  fail : Nat
  deriving DecidableEq, Repr

/-- A move of the compactor (R280): a group's register block to a new first register, or a team's
scratchpad range to a new physical offset. -/
inductive Move where
  | regs (cu part slot base : Nat)
  | scratch (team base : Nat)
  deriving DecidableEq, Repr

/-- What trains in stage 1 (R424): the LLC slice of a base die, or a DRAM stack. -/
inductive Stage1Unit where
  | llc (die : Nat)
  | stack (n : Nat)
  deriving DecidableEq, Repr

/-- What the harbourmaster watchdog counts (R447): an expired CU watchdog or a queue without progress. -/
inductive HmWait where
  | cu (cu : Nat)
  | queue (ctx queue : Nat)
  deriving DecidableEq, Repr

/-- Where an ECC event lies (R430, R432, R433). The LLC holds device DRAM, and lines of host memory in slice 0 (R303); an L1 holds
sectors of device DRAM, of host memory and of peer modules (R301). -/
inductive ErrSite where
  | dram (addr : Nat)
  | llc (addr : Nat)
  | llcHost (addr : Nat)
  | l1 (cu addr : Nat)
  | l1Host (cu addr : Nat)
  | l1Peer (cu node addr : Nat)
  | scratch (team offset : Nat)
  | reg (cu part slot lane reg : Nat)
  | hold (team part index : Nat)
  | link (port : Nat)
  | cxl (addr : Nat)
  | control (ctx addr : Nat)
  | shared (addr : Nat)
  deriving DecidableEq, Repr

/-- A remote access that arrives over the fabric (R412): a physical one, or the accesses of one issue through a view whose
sampled descriptor the far module sends (R321), by view offset: a length, bytes, or the operands of an atomic. `node` is the
requesting node. -/
inductive RemoteReq where
  | read (node addr len : Nat)
  | write (node addr : Nat) (bytes : List Byte)
  | atomic (node addr : Nat) (op : LAtomOp) (wide : Bool) (v cmp : BitVec 64)
  | fxadd (node addr : Nat) (n : BitVec 64)
  | viewRead (node tag : Nat) (desc : List Byte) (reads : List (Nat × Nat))
  | viewWrite (node tag : Nat) (desc : List Byte) (writes : List (Nat × List Byte))
  | viewAtomic (node tag : Nat) (desc : List Byte) (op : LAtomOp) (wide : Bool) (ops : List (Nat × BitVec 64 × BitVec 64))
  | viewFxadd (node tag : Nat) (desc : List Byte) (ops : List (Nat × BitVec 64))
  deriving DecidableEq, Repr

/-- The instructions and events of the opcode table, in its order. -/
inductive Instr where
  /-- IADD (R114). -/
  | iadd (d : BitVec 7) (a : BitVec 7) (b : BitVec 7) (q : Bool) (g : BitVec 3)
  /-- ISUB (R114). -/
  | isub (d : BitVec 7) (a : BitVec 7) (b : BitVec 7) (q : Bool) (g : BitVec 3)
  /-- IADC (R117). -/
  | iadc (d : BitVec 7) (a : BitVec 7) (b : BitVec 7) (q : Bool) (c : BitVec 3)
  /-- ISBB (R117). -/
  | isbb (d : BitVec 7) (a : BitVec 7) (b : BitVec 7) (q : Bool) (c : BitVec 3)
  /-- IMUL (R114). -/
  | imul (d : BitVec 7) (a : BitVec 7) (b : BitVec 7) (q : Bool) (g : BitVec 3)
  /-- IMULH_S (R114). -/
  | imulhS (d : BitVec 7) (a : BitVec 7) (b : BitVec 7) (q : Bool) (g : BitVec 3)
  /-- IMULH_U (R114). -/
  | imulhU (d : BitVec 7) (a : BitVec 7) (b : BitVec 7) (q : Bool) (g : BitVec 3)
  /-- IMAD (R114). -/
  | imad (d : BitVec 7) (a : BitVec 7) (b : BitVec 7) (q : Bool) (g : BitVec 3)
  /-- AND (R114). -/
  | and (d : BitVec 7) (a : BitVec 7) (b : BitVec 7) (q : Bool) (g : BitVec 3)
  /-- OR (R114). -/
  | or (d : BitVec 7) (a : BitVec 7) (b : BitVec 7) (q : Bool) (g : BitVec 3)
  /-- XOR (R114). -/
  | xor (d : BitVec 7) (a : BitVec 7) (b : BitVec 7) (q : Bool) (g : BitVec 3)
  /-- SHL (R115). -/
  | shl (d : BitVec 7) (a : BitVec 7) (b : BitVec 7) (q : Bool) (g : BitVec 3)
  /-- SHR (R115). -/
  | shr (d : BitVec 7) (a : BitVec 7) (b : BitVec 7) (q : Bool) (g : BitVec 3)
  /-- SAR (R115). -/
  | sar (d : BitVec 7) (a : BitVec 7) (b : BitVec 7) (q : Bool) (g : BitVec 3)
  /-- ROTL (R115). -/
  | rotl (d : BitVec 7) (a : BitVec 7) (b : BitVec 7) (q : Bool) (g : BitVec 3)
  /-- BFE_S (R115). -/
  | bfeS (d : BitVec 7) (a : BitVec 7) (b : BitVec 7) (q : Bool) (g : BitVec 3)
  /-- BFE_U (R115). -/
  | bfeU (d : BitVec 7) (a : BitVec 7) (b : BitVec 7) (q : Bool) (g : BitVec 3)
  /-- BFI (R115). -/
  | bfi (d : BitVec 7) (a : BitVec 7) (b : BitVec 7) (q : Bool) (g : BitVec 3)
  /-- ICMP (R122). -/
  | icmp (c : ICmp) (p : BitVec 3) (a : BitVec 7) (b : BitVec 7) (q : Bool) (g : BitVec 3)
  /-- SEL (R122). -/
  | sel (d : BitVec 7) (a : BitVec 7) (b : BitVec 7) (q : Bool) (s : BitVec 3)
  /-- BYSEL (R116). -/
  | bysel (d : BitVec 7) (a : BitVec 7) (b : BitVec 7) (q : Bool) (g : BitVec 3)
  /-- IADD_IMM (R119). -/
  | iaddImm (d : BitVec 7) (a : BitVec 7) (i : BitVec 11)
  /-- IMUL_IMM (R119). -/
  | imulImm (d : BitVec 7) (a : BitVec 7) (i : BitVec 11)
  /-- AND_IMM (R119). -/
  | andImm (d : BitVec 7) (a : BitVec 7) (i : BitVec 11)
  /-- OR_IMM (R119). -/
  | orImm (d : BitVec 7) (a : BitVec 7) (i : BitVec 11)
  /-- XOR_IMM (R119). -/
  | xorImm (d : BitVec 7) (a : BitVec 7) (i : BitVec 11)
  /-- SHL_IMM (R119). -/
  | shlImm (d : BitVec 7) (a : BitVec 7) (n : BitVec 5)
  /-- SHR_IMM (R119). -/
  | shrImm (d : BitVec 7) (a : BitVec 7) (n : BitVec 5)
  /-- SAR_IMM (R119). -/
  | sarImm (d : BitVec 7) (a : BitVec 7) (n : BitVec 5)
  /-- ROTL_IMM (R119). -/
  | rotlImm (d : BitVec 7) (a : BitVec 7) (n : BitVec 5)
  /-- MOVI (R119). -/
  | movi (d : BitVec 7) (i : BitVec 11)
  /-- SETA (R124). -/
  | seta (k : BitVec 2) (a : BitVec 7)
  /-- AADD (R124). -/
  | aadd (k : BitVec 2) (i : BitVec 11)
  /-- MOV (R120). -/
  | mov (d : BitVec 7) (a : BitVec 7) (q : Bool) (g : BitVec 3)
  /-- NOT (R120). -/
  | not (d : BitVec 7) (a : BitVec 7) (q : Bool) (g : BitVec 3)
  /-- IABS (R120). -/
  | iabs (d : BitVec 7) (a : BitVec 7) (q : Bool) (g : BitVec 3)
  /-- POPC (R120). -/
  | popc (d : BitVec 7) (a : BitVec 7) (q : Bool) (g : BitVec 3)
  /-- CLZ (R120). -/
  | clz (d : BitVec 7) (a : BitVec 7) (q : Bool) (g : BitVec 3)
  /-- BREV (R120). -/
  | brev (d : BitVec 7) (a : BitVec 7) (q : Bool) (g : BitVec 3)
  /-- FDIV (R146). -/
  | fdiv (d : BitVec 7) (a : BitVec 7) (l : BitVec 4) (q : Bool) (g : BitVec 3)
  /-- IDIV_S (R121). -/
  | idivS (d : BitVec 7) (a : BitVec 7) (l : BitVec 4) (q : Bool) (g : BitVec 3)
  /-- IDIV_U (R121). -/
  | idivU (d : BitVec 7) (a : BitVec 7) (l : BitVec 4) (q : Bool) (g : BitVec 3)
  /-- IREM_S (R121). -/
  | iremS (d : BitVec 7) (a : BitVec 7) (l : BitVec 4) (q : Bool) (g : BitVec 3)
  /-- IREM_U (R121). -/
  | iremU (d : BitVec 7) (a : BitVec 7) (l : BitVec 4) (q : Bool) (g : BitVec 3)
  /-- IMIN_S (R120). -/
  | iminS (d : BitVec 7) (a : BitVec 7) (q : Bool) (g : BitVec 3)
  /-- IMIN_U (R120). -/
  | iminU (d : BitVec 7) (a : BitVec 7) (q : Bool) (g : BitVec 3)
  /-- IMAX_S (R120). -/
  | imaxS (d : BitVec 7) (a : BitVec 7) (q : Bool) (g : BitVec 3)
  /-- IMAX_U (R120). -/
  | imaxU (d : BitVec 7) (a : BitVec 7) (q : Bool) (g : BitVec 3)
  /-- FADD (R145). -/
  | fadd (d : BitVec 7) (a : BitVec 7) (b : BitVec 7) (q : Bool) (g : BitVec 3)
  /-- FSUB (R145). -/
  | fsub (d : BitVec 7) (a : BitVec 7) (b : BitVec 7) (q : Bool) (g : BitVec 3)
  /-- FMUL (R145). -/
  | fmul (d : BitVec 7) (a : BitVec 7) (b : BitVec 7) (q : Bool) (g : BitVec 3)
  /-- FFMA (R145). -/
  | ffma (d : BitVec 7) (a : BitVec 7) (b : BitVec 7) (q : Bool) (g : BitVec 3)
  /-- FFMS (R145). -/
  | ffms (d : BitVec 7) (a : BitVec 7) (b : BitVec 7) (q : Bool) (g : BitVec 3)
  /-- FCMP (R149). -/
  | fcmp (c : FCmp) (p : BitVec 3) (a : BitVec 7) (b : BitVec 7) (q : Bool) (g : BitVec 3)
  /-- FADD_IMM (R145). -/
  | faddImm (d : BitVec 7) (a : BitVec 7) (i : BitVec 11)
  /-- FMUL_IMM (R145). -/
  | fmulImm (d : BitVec 7) (a : BitVec 7) (i : BitVec 11)
  /-- FFMA_IMM (R145). -/
  | ffmaImm (d : BitVec 7) (a : BitVec 7) (i : BitVec 11)
  /-- FABS (R147). -/
  | fabs (d : BitVec 7) (a : BitVec 7) (q : Bool) (g : BitVec 3)
  /-- FNEG (R147). -/
  | fneg (d : BitVec 7) (a : BitVec 7) (q : Bool) (g : BitVec 3)
  /-- FCLASS (R148). -/
  | fclass (d : BitVec 7) (a : BitVec 7) (q : Bool) (g : BitVec 3)
  /-- FMIN (R147). -/
  | fmin (d : BitVec 7) (a : BitVec 7) (q : Bool) (g : BitVec 3)
  /-- FMAX (R147). -/
  | fmax (d : BitVec 7) (a : BitVec 7) (q : Bool) (g : BitVec 3)
  /-- FSQRT (R150). -/
  | fsqrt (d : BitVec 7) (a : BitVec 7) (l : BitVec 4) (q : Bool) (g : BitVec 3)
  /-- FRCP (R150). -/
  | frcp (d : BitVec 7) (a : BitVec 7) (l : BitVec 4) (q : Bool) (g : BitVec 3)
  /-- FRSQ (R150). -/
  | frsq (d : BitVec 7) (a : BitVec 7) (l : BitVec 4) (q : Bool) (g : BitVec 3)
  /-- FEXP2 (R150). -/
  | fexp2 (d : BitVec 7) (a : BitVec 7) (l : BitVec 4) (q : Bool) (g : BitVec 3)
  /-- FLOG2 (R150). -/
  | flog2 (d : BitVec 7) (a : BitVec 7) (l : BitVec 4) (q : Bool) (g : BitVec 3)
  /-- FSIN (R150). -/
  | fsin (d : BitVec 7) (a : BitVec 7) (l : BitVec 4) (q : Bool) (g : BitVec 3)
  /-- FCOS (R150). -/
  | fcos (d : BitVec 7) (a : BitVec 7) (l : BitVec 4) (q : Bool) (g : BitVec 3)
  /-- FTANH (R150). -/
  | ftanh (d : BitVec 7) (a : BitVec 7) (l : BitVec 4) (q : Bool) (g : BitVec 3)
  /-- PKFMA_H (R151). -/
  | pkfmaH (d : BitVec 7) (a : BitVec 7) (b : BitVec 7) (q : Bool) (g : BitVec 3)
  /-- PKFMA_B (R151). -/
  | pkfmaB (d : BitVec 7) (a : BitVec 7) (b : BitVec 7) (q : Bool) (g : BitVec 3)
  /-- PKADD_H (R151). -/
  | pkaddH (d : BitVec 7) (a : BitVec 7) (q : Bool) (g : BitVec 3)
  /-- PKMUL_H (R151). -/
  | pkmulH (d : BitVec 7) (a : BitVec 7) (q : Bool) (g : BitVec 3)
  /-- PKMIN_H (R151). -/
  | pkminH (d : BitVec 7) (a : BitVec 7) (q : Bool) (g : BitVec 3)
  /-- PKMAX_H (R151). -/
  | pkmaxH (d : BitVec 7) (a : BitVec 7) (q : Bool) (g : BitVec 3)
  /-- PKSUB_H (R151). -/
  | pksubH (d : BitVec 7) (a : BitVec 7) (q : Bool) (g : BitVec 3)
  /-- PKADD_B (R151). -/
  | pkaddB (d : BitVec 7) (a : BitVec 7) (q : Bool) (g : BitVec 3)
  /-- PKMUL_B (R151). -/
  | pkmulB (d : BitVec 7) (a : BitVec 7) (q : Bool) (g : BitVec 3)
  /-- PKMIN_B (R151). -/
  | pkminB (d : BitVec 7) (a : BitVec 7) (q : Bool) (g : BitVec 3)
  /-- PKMAX_B (R151). -/
  | pkmaxB (d : BitVec 7) (a : BitVec 7) (q : Bool) (g : BitVec 3)
  /-- PKSUB_B (R151). -/
  | pksubB (d : BitVec 7) (a : BitVec 7) (q : Bool) (g : BitVec 3)
  /-- CVT_S32_F32 (R152). -/
  | cvtS32F32 (d : BitVec 7) (a : BitVec 7) (q : Bool) (g : BitVec 3)
  /-- CVT_U32_F32 (R152). -/
  | cvtU32F32 (d : BitVec 7) (a : BitVec 7) (q : Bool) (g : BitVec 3)
  /-- CVT_F32_S32 (R152). -/
  | cvtF32S32 (d : BitVec 7) (a : BitVec 7) (q : Bool) (g : BitVec 3)
  /-- CVT_F32_U32 (R152). -/
  | cvtF32U32 (d : BitVec 7) (a : BitVec 7) (q : Bool) (g : BitVec 3)
  /-- CVT_F16_F32 (R152). -/
  | cvtF16F32 (d : BitVec 7) (a : BitVec 7) (q : Bool) (g : BitVec 3)
  /-- CVT_F32_F16 (R152). -/
  | cvtF32F16 (d : BitVec 7) (a : BitVec 7) (q : Bool) (g : BitVec 3)
  /-- CVT_BF16_F32 (R152). -/
  | cvtBf16F32 (d : BitVec 7) (a : BitVec 7) (q : Bool) (g : BitVec 3)
  /-- CVT_F32_BF16 (R152). -/
  | cvtF32Bf16 (d : BitVec 7) (a : BitVec 7) (q : Bool) (g : BitVec 3)
  /-- CVT_F32_F64 (R153). -/
  | cvtF32F64 (d : BitVec 7) (a : BitVec 7) (q : Bool) (g : BitVec 3)
  /-- CVT_F64_F32 (R153). -/
  | cvtF64F32 (d : BitVec 7) (a : BitVec 7) (q : Bool) (g : BitVec 3)
  /-- UNPK (R173). -/
  | unpk (d : BitVec 7) (a : BitVec 7) (q : Bool) (g : BitVec 3)
  /-- CVTN (R154). -/
  | cvtn (d : BitVec 7) (a : BitVec 7) (f : BitVec 3) (c : BitVec 4) (q : Bool) (g : BitVec 3)
  /-- CVTW (R156). -/
  | cvtw (d : BitVec 7) (a : BitVec 7) (f : BitVec 3) (c : BitVec 4) (q : Bool) (g : BitVec 3)
  /-- QL8 (R157). -/
  | ql8 (d : BitVec 7) (r : BitVec 4) (n : BitVec 3) (f : BitVec 3) (c : BitVec 4) (q : Bool) (g : BitVec 3)
  /-- DL8 (R158). -/
  | dl8 (d : BitVec 7) (a : BitVec 7) (f : BitVec 3) (c : BitVec 4) (q : Bool) (g : BitVec 3)
  /-- XL8 (R159). -/
  | xl8 (d : BitVec 7) (a : BitVec 7) (f : BitVec 3) (e : BitVec 3) (q : Bool) (g : BitVec 3)
  /-- LXI (R225). -/
  | lxi (d : BitVec 7) (a : BitVec 7) (b : BitVec 7) (q : Bool) (g : BitVec 3)
  /-- LXM (R225). -/
  | lxm (d : BitVec 7) (a : BitVec 7) (b : BitVec 7) (q : Bool) (g : BitVec 3)
  /-- LXR (R225). -/
  | lxr (d : BitVec 7) (a : BitVec 7) (b : BitVec 7) (q : Bool) (g : BitVec 3)
  /-- LXS (R225). -/
  | lxs (d : BitVec 7) (a : BitVec 7) (b : BitVec 7) (q : Bool) (g : BitVec 3)
  /-- LMASK (R226). -/
  | lmask (d : BitVec 7) (a : BitVec 7) (q : Bool) (g : BitVec 3)
  /-- LPEER (R226). -/
  | lpeer (d : BitVec 7) (a : BitVec 7) (q : Bool) (g : BitVec 3)
  /-- COMPACT (R226). -/
  | compact (d : BitVec 7) (a : BitVec 7) (q : Bool) (g : BitVec 3)
  /-- LFIRST (R226). -/
  | lfirst (d : BitVec 7) (a : BitVec 7) (q : Bool) (g : BitVec 3)
  /-- LFOLD_IADD (R227). -/
  | lfoldIadd (d : BitVec 7) (a : BitVec 7) (q : Bool) (g : BitVec 3)
  /-- LFOLD_IMIN_S (R227). -/
  | lfoldIminS (d : BitVec 7) (a : BitVec 7) (q : Bool) (g : BitVec 3)
  /-- LFOLD_IMAX_S (R227). -/
  | lfoldImaxS (d : BitVec 7) (a : BitVec 7) (q : Bool) (g : BitVec 3)
  /-- LFOLD_AND (R227). -/
  | lfoldAnd (d : BitVec 7) (a : BitVec 7) (q : Bool) (g : BitVec 3)
  /-- LFOLD_OR (R227). -/
  | lfoldOr (d : BitVec 7) (a : BitVec 7) (q : Bool) (g : BitVec 3)
  /-- LFOLD_XOR (R227). -/
  | lfoldXor (d : BitVec 7) (a : BitVec 7) (q : Bool) (g : BitVec 3)
  /-- LFOLD_FADD (R227). -/
  | lfoldFadd (d : BitVec 7) (a : BitVec 7) (q : Bool) (g : BitVec 3)
  /-- LFOLD_FMAX (R227). -/
  | lfoldFmax (d : BitVec 7) (a : BitVec 7) (q : Bool) (g : BitVec 3)
  /-- PAND (R123). -/
  | pand (p : BitVec 3) (a : BitVec 3) (b : BitVec 3) (g : BitVec 3)
  /-- POR (R123). -/
  | por (p : BitVec 3) (a : BitVec 3) (b : BitVec 3) (g : BitVec 3)
  /-- PXOR (R123). -/
  | pxor (p : BitVec 3) (a : BitVec 3) (b : BitVec 3) (g : BitVec 3)
  /-- PNOT (R123). -/
  | pnot (p : BitVec 3) (a : BitVec 3) (g : BitVec 3)
  /-- PMOV (R123). -/
  | pmov (p : BitVec 3) (a : BitVec 3) (g : BitVec 3)
  /-- LANY (R226). -/
  | lany (p : BitVec 3) (a : BitVec 3) (g : BitVec 3)
  /-- LALL (R226). -/
  | lall (p : BitVec 3) (a : BitVec 3) (g : BitVec 3)
  /-- LAGREE (R226). -/
  | lagree (p : BitVec 3) (a : BitVec 3) (g : BitVec 3)
  /-- LODD (R226). -/
  | lodd (p : BitVec 3) (a : BitVec 3) (g : BitVec 3)
  /-- RDFX (R160). -/
  | rdfx (d : BitVec 7) (q : Bool) (g : BitVec 3)
  /-- WRFX (R160). -/
  | wrfx (a : BitVec 7) (g : BitVec 3)
  /-- CLRFX (R160). -/
  | clrfx (a : BitVec 7) (g : BitVec 3)
  /-- SADD (R126). -/
  | sadd (d : BitVec 6) (a : BitVec 6) (b : BitVec 6)
  /-- SSUB (R126). -/
  | ssub (d : BitVec 6) (a : BitVec 6) (b : BitVec 6)
  /-- SMUL (R126). -/
  | smul (d : BitVec 6) (a : BitVec 6) (b : BitVec 6)
  /-- SAND (R126). -/
  | sand (d : BitVec 6) (a : BitVec 6) (b : BitVec 6)
  /-- SOR (R126). -/
  | sor (d : BitVec 6) (a : BitVec 6) (b : BitVec 6)
  /-- SXOR (R126). -/
  | sxor (d : BitVec 6) (a : BitVec 6) (b : BitVec 6)
  /-- SSHL (R126). -/
  | sshl (d : BitVec 6) (a : BitVec 6) (b : BitVec 6)
  /-- SSHR (R126). -/
  | sshr (d : BitVec 6) (a : BitVec 6) (b : BitVec 6)
  /-- SSAR (R126). -/
  | ssar (d : BitVec 6) (a : BitVec 6) (b : BitVec 6)
  /-- SMOV (R126). -/
  | smov (d : BitVec 6) (a : BitVec 6)
  /-- SCMP (R126). -/
  | scmp (d : BitVec 6) (a : BitVec 6) (b : BitVec 6) (c : ICmp)
  /-- SSEL (R126). -/
  | ssel (d : BitVec 6) (a : BitVec 6) (b : BitVec 6)
  /-- SADD_IMM (R127). -/
  | saddImm (d : BitVec 6) (a : BitVec 6) (i : BitVec 13)
  /-- SAND_IMM (R127). -/
  | sandImm (d : BitVec 6) (a : BitVec 6) (i : BitVec 13)
  /-- SOR_IMM (R127). -/
  | sorImm (d : BitVec 6) (a : BitVec 6) (i : BitVec 13)
  /-- SXOR_IMM (R127). -/
  | sxorImm (d : BitVec 6) (a : BitVec 6) (i : BitVec 13)
  /-- SSHL_IMM (R127). -/
  | sshlImm (d : BitVec 6) (a : BitVec 6) (n : BitVec 6)
  /-- SSHR_IMM (R127). -/
  | sshrImm (d : BitVec 6) (a : BitVec 6) (n : BitVec 6)
  /-- SSAR_IMM (R127). -/
  | ssarImm (d : BitVec 6) (a : BitVec 6) (n : BitVec 6)
  /-- SMOVI (R127). -/
  | smovi (d : BitVec 6) (i : BitVec 13)
  /-- SLDC (R129). -/
  | sldc (d : BitVec 6) (i : BitVec 13)
  /-- SLD (R128). -/
  | sld (d : BitVec 6) (a : BitVec 6) (i : BitVec 13)
  /-- SST (R128). -/
  | sst (d : BitVec 6) (a : BitVec 6) (i : BitVec 13)
  /-- LD_B (R167). -/
  | ldB (d : BitVec 7) (o : BitVec 7) (b : BitVec 3) (l : BitVec 4) (s : Scope) (r : Bool)
  /-- LD_H (R167). -/
  | ldH (d : BitVec 7) (o : BitVec 7) (b : BitVec 3) (l : BitVec 4) (s : Scope) (r : Bool)
  /-- LD_W (R167). -/
  | ldW (d : BitVec 7) (o : BitVec 7) (b : BitVec 3) (l : BitVec 4) (s : Scope) (r : Bool)
  /-- LD_D (R167). -/
  | ldD (d : BitVec 7) (o : BitVec 7) (b : BitVec 3) (l : BitVec 4) (s : Scope) (r : Bool)
  /-- LD_Q (R167). -/
  | ldQ (d : BitVec 7) (o : BitVec 7) (b : BitVec 3) (l : BitVec 4) (s : Scope) (r : Bool)
  /-- ST_B (R167). -/
  | stB (d : BitVec 7) (o : BitVec 7) (b : BitVec 3) (l : BitVec 4) (s : Scope) (r : Bool)
  /-- ST_H (R167). -/
  | stH (d : BitVec 7) (o : BitVec 7) (b : BitVec 3) (l : BitVec 4) (s : Scope) (r : Bool)
  /-- ST_W (R167). -/
  | stW (d : BitVec 7) (o : BitVec 7) (b : BitVec 3) (l : BitVec 4) (s : Scope) (r : Bool)
  /-- ST_D (R167). -/
  | stD (d : BitVec 7) (o : BitVec 7) (b : BitVec 3) (l : BitVec 4) (s : Scope) (r : Bool)
  /-- ST_Q (R167). -/
  | stQ (d : BitVec 7) (o : BitVec 7) (b : BitVec 3) (l : BitVec 4) (s : Scope) (r : Bool)
  /-- LDL (R170). -/
  | ldl (d : BitVec 7) (o : BitVec 7) (b : BitVec 3) (l : BitVec 4) (z : Size)
  /-- LDT (R172). -/
  | ldt (d : BitVec 7) (o : BitVec 7) (b : BitVec 3) (l : BitVec 4)
  /-- STL (R170). -/
  | stl (d : BitVec 7) (o : BitVec 7) (b : BitVec 3) (l : BitVec 4) (z : Size)
  /-- ATOM (R176). -/
  | atom (d : BitVec 7) (c : AtomOp) (v : BitVec 3) (b : BitVec 3) (l : BitVec 4) (s : Scope) (r : Bool)
  /-- ATOM_FADD (R178). -/
  | atomFadd (d : BitVec 7) (v : BitVec 3) (b : BitVec 3) (l : BitVec 4) (s : Scope) (r : Bool)
  /-- ATOM_D (R176). -/
  | atomD (d : BitVec 7) (c : AtomOp) (v : BitVec 3) (b : BitVec 3) (l : BitVec 4) (s : Scope) (r : Bool)
  /-- FXADD (R179). -/
  | fxadd (d : BitVec 7) (v : BitVec 3) (b : BitVec 3) (l : BitVec 4) (s : Scope) (r : Bool)
  /-- ATOML (R180). -/
  | atoml (d : BitVec 7) (o : BitVec 7) (b : BitVec 3) (l : BitVec 4) (c : LAtomOp)
  /-- PREF (R174). -/
  | pref (o : BitVec 7) (b : BitVec 3) (l : BitVec 4)
  /-- ZFILL (R175). -/
  | zfill (o : BitVec 7) (b : BitVec 3) (l : BitVec 4) (s : Scope) (r : Bool)
  /-- MMA (R202). -/
  | mma (c : BitVec 7) (a : BitVec 7) (s : BitVec 3) (f : BitVec 3) (l : BitVec 4) (r : Bool)
  /-- MMAH (R211). -/
  | mmah (t : BitVec 5) (a : BitVec 7) (s : BitVec 3) (f : BitVec 3) (l : BitVec 4) (r : Bool)
  /-- MMAS (R209). -/
  | mmas (c : BitVec 7) (a : BitVec 7) (s : BitVec 3) (f : BitVec 3) (l : BitVec 4) (r : Bool)
  /-- HLD_REG (R214). -/
  | hldReg (t : BitVec 5) (a : BitVec 7) (l : BitVec 4)
  /-- HST_REG (R214). -/
  | hstReg (t : BitVec 5) (a : BitVec 7) (l : BitVec 4)
  /-- HLD_SCRATCH (R214). -/
  | hldScratch (t : BitVec 5) (s : BitVec 3) (l : BitVec 4)
  /-- HST_SCRATCH (R214). -/
  | hstScratch (t : BitVec 5) (s : BitVec 3) (l : BitVec 4)
  /-- HZERO (R214). -/
  | hzero (t : BitVec 5) (l : BitVec 4)
  /-- HDRN (R215). -/
  | hdrn (a : BitVec 6) (b : BitVec 6) (c : BitVec 6) (l : BitVec 4)
  /-- HDRN_MOM (R216). -/
  | hdrnMom (a : BitVec 6) (b : BitVec 6) (c : BitVec 6) (l : BitVec 4)
  /-- HDRN_SQ (R216). -/
  | hdrnSq (a : BitVec 6) (b : BitVec 6) (c : BitVec 6) (l : BitVec 4)
  /-- PILOT_GT (R218). -/
  | pilotGt (a : BitVec 6) (b : BitVec 6) (c : BitVec 6) (l : BitVec 4)
  /-- PILOT_TOP (R218). -/
  | pilotTop (a : BitVec 6) (b : BitVec 6) (c : BitVec 6) (l : BitVec 4)
  /-- MCHK (R222). -/
  | mchk (a : BitVec 6) (b : BitVec 6) (c : BitVec 6) (l : BitVec 4)
  /-- VSET (R184). -/
  | vset (a : BitVec 6) (b : BitVec 6) (c : BitVec 6) (l : BitVec 4)
  /-- VBASE (R185). -/
  | vbase (a : BitVec 6) (b : BitVec 6) (c : BitVec 6) (l : BitVec 4)
  /-- VINV (R186). -/
  | vinv (a : BitVec 6) (l : BitVec 4)
  /-- VQRY (R187). -/
  | vqry (a : BitVec 6) (b : BitVec 6) (c : BitVec 6) (l : BitVec 4)
  /-- CPY (R191). -/
  | cpy (d : BitVec 7) (o : BitVec 7) (b : BitVec 3) (l : BitVec 4) (z : CopySize)
  /-- CPYM (R192). -/
  | cpym (a : BitVec 6) (b : BitVec 6) (c : BitVec 6) (l : BitVec 4)
  /-- CPYO (R193). -/
  | cpyo (a : BitVec 6) (b : BitVec 6) (l : BitVec 4)
  /-- CPYRW (R194). -/
  | cpyrw (a : BitVec 6) (b : BitVec 6) (c : BitVec 6) (l : BitVec 4)
  /-- CSIG (R195). -/
  | csig (a : BitVec 6) (b : BitVec 6) (l : BitVec 4)
  /-- SPAWN (R228). -/
  | spawn (d : BitVec 7) (a : BitVec 7) (b : BitVec 7) (g : BitVec 3)
  /-- PARK (R232). -/
  | park (d : BitVec 7) (a : BitVec 7) (b : BitVec 7) (g : BitVec 3)
  /-- BFLUSH (R234). -/
  | bflush (a : BitVec 6) (l : BitVec 4)
  /-- CVOY (R244). -/
  | cvoy (a : BitVec 6) (b : BitVec 6) (c : BitVec 6) (l : BitVec 4)
  /-- CVQRY (R247). -/
  | cvqry (a : BitVec 6) (c : BitVec 6) (l : BitVec 4)
  /-- BRA (R130). -/
  | bra (p : BitVec 3) (n : Bool) (o : BitVec 21)
  /-- CALL (R131). -/
  | call (p : BitVec 3) (n : Bool) (o : BitVec 21)
  /-- JMP (R132). -/
  | jmp (s : BitVec 6)
  /-- CALLR (R132). -/
  | callr (s : BitVec 6)
  /-- NOP (R134). -/
  | nop
  /-- RET (R133). -/
  | ret
  /-- EXIT (R135). -/
  | exit
  /-- YIELD (R134). -/
  | yield
  /-- BKPT (R134). -/
  | bkpt (c : BitVec 12)
  /-- TRAP (R134). -/
  | trap (c : BitVec 12)
  /-- MELD (R137). -/
  | meld (a : BitVec 3) (b : BitVec 3)
  /-- MSET (R138). -/
  | mset (p : BitVec 2) (s : BitVec 6)
  /-- MEND (R139). -/
  | mend
  /-- BAR (R236). -/
  | bar (n : BitVec 6) (s : BitVec 6)
  /-- BARA (R236). -/
  | bara (n : BitVec 6) (s : BitVec 6)
  /-- BARW (R236). -/
  | barw (n : BitVec 6) (s : BitVec 6)
  /-- GBAR (R239). -/
  | gbar
  /-- FENCE (R181). -/
  | fence (o : FenceOrd) (c : Scope)
  /-- CINV (R182). -/
  | cinv (c : Scope)
  /-- WAITC (R196). -/
  | waitc (s : BitVec 6)
  /-- SHW (R241). -/
  | shw (d : BitVec 7) (a : BitVec 7) (g : BitVec 3)
  /-- SHR_WINDOW (R241). -/
  | shrWindow (d : BitVec 7) (a : BitVec 7) (g : BitVec 3)
  /-- SHP (R241). -/
  | shp (d : BitVec 7) (a : BitVec 7) (g : BitVec 3)
  /-- RDSR (R248). -/
  | rdsr (s : BitVec 6) (r : BitVec 12)
  /-- WRSR (R248). -/
  | wrsr (s : BitVec 6) (r : BitVec 12)
  /-- RDCLK (R250). -/
  | rdclk (s : BitVec 6)
  /-- ERRQ (R251). -/
  | errq (s : BitVec 6)
  /-- IMML (R100). -/
  | imml (p : BitVec 25)
  /-- IMMH (R100). -/
  | immh (p : BitVec 25)
  /-- MOD_ARITH (R99). -/
  | modArith (r : BitVec 2) (s : BitVec 2) (n : BitVec 3) (a : BitVec 3)
  /-- MOD_OFFSET (R99). -/
  | modOffset (o : BitVec 23)
  /-- MOD_COUNTER (R99). -/
  | modCounter (s : Scope) (i : BitVec 12)
  /-- MOD_LANE (R99). -/
  | modLane (p : BitVec 3) (n : Bool) (f : BitVec 6)
  /-- SCHED (R101). -/
  | sched (o : Bool) (d : BitVec 4)
  /-- LOAD_DATA_RETURN (R167). -/
  | loadDataReturn (k : Nat)
  /-- ATOMIC_RETURN (R176). -/
  | atomicReturn (k : Nat)
  /-- PARKED_LANE_RESUME (R171). -/
  | parkedLaneResume (cu part slot lane : Nat)
  /-- MMA_COMPLETE (R202). -/
  | mmaComplete (k : Nat)
  /-- LINE_LANDS (R190). -/
  | lineLands (k team line : Nat)
  /-- COPY_COMMAND_COMPLETE (R189). -/
  | copyCommandComplete (k : Nat)
  /-- HDRN_COMPLETE (R217). -/
  | hdrnComplete (k : Nat)
  /-- PILOT_COMPLETE (R221). -/
  | pilotComplete (k : Nat)
  /-- MCHK_COMPLETE (R223). -/
  | mchkComplete (k : Nat)
  /-- COLLECTIVE_COMPLETE (R244). -/
  | collectiveComplete (k : Nat)
  /-- CONVOY_FLIT_RECEIVE (R414). -/
  | convoyFlitReceive (flit : Flit)
  /-- BERTH_TIMER_EXPIRY (R270). -/
  | berthTimerExpiry (cu berth : Nat)
  /-- BERTH_IDLE_LAUNCH (R269). -/
  | berthIdleLaunch (cu berth : Nat)
  /-- BERTH_GROUP_LAUNCH (R271). -/
  | berthGroupLaunch (cu berth : Nat)
  /-- RING_DRAIN (R273). -/
  | ringDrain (cu launch : Nat)
  /-- GROUP_AGED (R262). -/
  | groupAged (cu part slot : Nat)
  /-- GROUP_RELEASE (R283). -/
  | groupRelease (cu part slot : Nat)
  /-- TEAM_RELEASE (R283). -/
  | teamRelease (team : Nat)
  /-- COMPACTION (R281). -/
  | compaction (move : Move)
  /-- FAULT_REPORT (R398). -/
  | faultReport (ctx fid : Nat)
  /-- TEAM_PLACE (R376). -/
  | teamPlace (launch : Nat)
  /-- RESERVATION_CLAIM (R378). -/
  | reservationClaim (launch : Nat)
  /-- PREEMPT_SAVE (R380). -/
  | preemptSave (launch : Nat)
  /-- TEAM_RESTORE (R381). -/
  | teamRestore (team : Nat)
  /-- LAUNCH_COMPLETE (R382). -/
  | launchComplete (launch : Nat)
  /-- LAUNCH_REPLAY (R444). -/
  | launchReplay (launch : Nat)
  /-- QUEUE_SUBMIT (R385). -/
  | queueSubmit (ctx queue : Nat)
  /-- LAUNCH_NODE (R374). -/
  | launchNode (ctx queue : Nat)
  /-- COPY_NODE (R387). -/
  | copyNode (ctx queue : Nat)
  /-- CVOY_NODE (R387). -/
  | cvoyNode (ctx queue : Nat)
  /-- COND_NODE (R387). -/
  | condNode (ctx queue : Nat)
  /-- WHILE_NODE (R387). -/
  | whileNode (ctx queue : Nat)
  /-- SIGNAL_SUBTRACT (R387). -/
  | signalSubtract (ctx queue : Nat)
  /-- SIGNAL_SET (R387). -/
  | signalSet (ctx queue : Nat)
  /-- WAIT_NODE (R387). -/
  | waitNode (ctx queue : Nat)
  /-- SNAPSHOT_TAKE (R446). -/
  | snapshotTake (ctx queue : Nat)
  /-- SNAPSHOT_RESTORE (R446). -/
  | snapshotRestore (ctx queue : Nat)
  /-- SNAPSHOT_DISCARD (R446). -/
  | snapshotDiscard (ctx queue : Nat)
  /-- INVPT (R404). -/
  | invpt (ctx : Nat)
  /-- FRESUME_RETRY (R400). -/
  | fresumeRetry (ctx : Nat)
  /-- FRESUME_ABANDON (R400). -/
  | fresumeAbandon (ctx : Nat)
  /-- QRESUME (R402). -/
  | qresume (ctx : Nat)
  /-- QABORT (R402). -/
  | qabort (ctx : Nat)
  /-- GRESUME_RETRY (R267). -/
  | gresumeRetry (ctx : Nat)
  /-- GRESUME_SKIP (R267). -/
  | gresumeSkip (ctx : Nat)
  /-- GRESUME_ABORT (R267). -/
  | gresumeAbort (ctx : Nat)
  /-- VINVALL (R402). -/
  | vinvall (ctx : Nat)
  /-- CONTEXT_CREATE (R392). -/
  | contextCreate (ctx : Nat)
  /-- CONTEXT_DESTROY (R392). -/
  | contextDestroy (ctx : Nat)
  /-- CTXERR_CLEAR (R409). -/
  | ctxerrClear (mask : BitVec 64)
  /-- NODEID_WRITE (R409). -/
  | nodeidWrite (value : BitVec 64)
  /-- PORTSTAT_READ (R409). -/
  | portstatRead (port : Nat)
  /-- GO2 (R425). -/
  | go2 (mask : BitVec 4)
  /-- REGISTER_WRITE (R425). -/
  | registerWrite (offset : Nat) (value : BitVec 64)
  /-- TELEM (R449). -/
  | telem
  /-- PPR (R449). -/
  | ppr
  /-- RETIRE (R449). -/
  | retire
  /-- FWSTORE (R449). -/
  | fwstore
  /-- POWER_GOOD (R424). -/
  | powerGood
  /-- POWER_OFF (R20). -/
  | powerOff
  /-- STAGE1_TRAINING_DONE (R424). -/
  | stage1TrainingDone (u : Stage1Unit) (ok : Bool)
  /-- CU_SELF_TEST_DONE (R424). -/
  | cuSelfTestDone (cu : Nat) (ok : Bool)
  /-- PORT_TRAINING_DONE (R410). -/
  | portTrainingDone (port : Nat) (ok : Bool)
  /-- GROUP_WATCHDOG_EXPIRY (R447). -/
  | groupWatchdogExpiry (cu part slot : Nat)
  /-- CU_WATCHDOG_EXPIRY (R447). -/
  | cuWatchdogExpiry (cu : Nat)
  /-- HARBOURMASTER_WATCHDOG_EXPIRY (R447). -/
  | harbourmasterWatchdogExpiry (who : HmWait)
  /-- ECC_CORRECTED (R427). -/
  | eccCorrected (site : ErrSite)
  /-- ECC_UNCORRECTABLE_DETECTED (R433). -/
  | eccUncorrectableDetected (site : ErrSite)
  /-- FLIT_CHECK_FAIL (R410). -/
  | flitCheckFail (port : Nat) (victim : Option Nat)
  /-- REFETCH (R440). -/
  | refetch (k : Nat) (linkOk : Bool)
  /-- ERROR_WINDOW_CLOSE (R432). -/
  | errorWindowClose (source unit : Nat)
  /-- ERROR_RECORD_WRITE (R431). -/
  | errorRecordWrite (ctx : Option Nat)
  /-- POWER_LIMIT_CHANGE (R450). -/
  | powerLimitChange (thermal enter : Bool)
  /-- THERMAL_SHUTDOWN (R450). -/
  | thermalShutdown
  /-- HOST_MEM_READ (R406). -/
  | hostMemRead (addr len : Nat)
  /-- HOST_MEM_WRITE (R406). -/
  | hostMemWrite (addr : Nat) (bytes : List (BitVec 8))
  /-- HOST_SNOOP (R407). -/
  | hostSnoop (addr : Nat)
  /-- REMOTE_REQUEST (R412). -/
  | remoteRequest (r : RemoteReq)
  /-- PACKET_FORWARD (R411). -/
  | packetForward (node hops : Nat)
  /-- UNDEFINED_ENCODING (R97). -/
  | undefinedEncoding (w : BitVec 32)
  /-- INSTRUCTION_FETCH_FAULT (R130). -/
  | instructionFetchFault
  /-- VIEW_COMMAND_COMPLETE (R188). -/
  | viewCommandComplete (k : Nat)
  /-- LAST_SOURCE_READ (R190). -/
  | lastSourceRead (k : Nat)
  /-- MALFORMED_NODE (R386). -/
  | malformedNode (ctx queue : Nat)
  /-- MALFORMED_COMMAND (R402). -/
  | malformedCommand (ctx : Nat)
  /-- MALFORMED_MAILBOX_COMMAND (R449). -/
  | malformedMailboxCommand
  deriving DecidableEq, Repr

end Sys2Proof
end

