-- ==== Sys2Proof/Machine/State.lean ====
section
/-!
DEFINITION. The state of the machine: every piece of state that the manual gives the module, a context,
a launch, a CU, a team, a group, a thread and an operation in flight (R17 names the four spans), as
plain data, with the machine right after reset. `INVENTORY.md` lists each piece with its rule and its
value at reset.
-/
namespace Sys2Proof.Machine

/-- A memory: cells at strictly rising addresses, none of them 0, which is what an address that is not
listed reads as (assumption log 1 and 2). -/
abbrev Mem := List Host.Cell

/-- Which memory a physical address lies in (R303, R394, R412): device DRAM, host memory, and the same of another module. -/
inductive Space where
  | dram
  | host
  | peer (node : Nat)
  | peerHost (node : Nat)
  deriving DecidableEq, Repr

/-- A physical address. -/
structure PAddr where
  space : Space
  addr : Nat
  deriving DecidableEq, Repr

/-- A view descriptor (R307 to R309). -/
structure ViewDesc where
  base : Nat
  version : Word
  ctrl : Word
  layout : Word64
  ext : List Nat
  baseExt : List Nat
  stride : List Int
  gidx : Nat
  deriving DecidableEq, Repr

/-- An address operand of an engine: a virtual address, or an offset in a sampled view with its number (R162,
R318). -/
inductive MemRef where
  | mem (va : Nat)
  | view (num : Nat) (d : ViewDesc) (off : Nat)
  deriving DecidableEq, Repr

/-- A format slot (R61). -/
structure FSlot where
  adesc : Word
  bdesc : Word
  atsc : Word
  btsc : Word
  cbk : List (BitVec 16)
  deriving DecidableEq, Repr

/-- One access that a parked lane still has to make (R42, R171, R172). -/
inductive ParkedOp where
  /-- LDL of `len` bytes at a scratchpad offset into these registers. -/
  | ldl (off len : Nat) (regs : List Nat)
  /-- LDT: the offsets of the rows of the quad (none for an inactive lane), this lane's place in the quad. -/
  | ldt (rows : List (Option Nat)) (j : Nat) (regs : List Nat)
  /-- RET: the offset of the return entry; the RET word and its address are recorded for the late check. -/
  | ret (off : Nat) (at_ : Word64)
  deriving DecidableEq, Repr

/-- One register of a shared window, in one lane (R38, R39): window, group index, register, lane. -/
structure WinKey where
  win : Nat
  index : Nat
  reg : Nat
  lane : Nat
  deriving DecidableEq, Repr

/-- A shared-window register of one lane that is full, with its value (R39). An absent key is empty. -/
structure WinCell where
  key : WinKey
  value : Word
  deriving DecidableEq, Repr

/-- What a thread that is parked on a full/empty bit does when the bit allows it (R39, R241): SHW writes the
value that it read at issue; SHR and SHP write a register. -/
inductive WindowOp where
  | put (value : Word)
  | get (reg : Nat) (clears : Bool)
  deriving DecidableEq, Repr

/-- Why a thread is not ready (R256), or `ready`. -/
inductive Wait where
  | ready
  /-- Parked on an absent scratchpad line (R171). -/
  | line (op : ParkedOp)
  /-- Parked on a full/empty bit (R241). -/
  | window (key : WinKey) (op : WindowOp)
  /-- WAITC on a counter (R196). -/
  | counter (index : Nat)
  /-- BAR on barrier `n`, until its phase is past this one (R236). -/
  | barrier (n phase : Nat)
  /-- BAR or BARA again before the phase of the earlier arrival completed: the word issues again then (R236). -/
  | barrierAgain (n phase : Nat)
  /-- BARW, with its own ROLES mask (R236, R238). -/
  | barw (n phase roles : Nat) (at_ : Word64)
  /-- GBAR (R239). -/
  | gbar (phase : Nat)
  /-- MMA, MMAH, MMAS or HLD from scratchpad waiting for presence of this range (R204, R214). -/
  | presence (lo len : Nat)
  /-- Stalled by a translation fault with this identifier (R166). -/
  | fault (fid : Nat)
  deriving DecidableEq, Repr

/-- A lookahead window (R102): how many more instructions it covers, the v-registers, s-registers and
predicates that the pending instruction will write, and the v-registers and s-registers that it reads. -/
structure LaWindow where
  left : Nat
  writes : List Nat
  swrites : List Nat
  pwrites : List Nat
  reads : List Nat
  sreads : List Nat
  deriving DecidableEq, Repr

/-- A thread (R10, R21). -/
structure Thread where
  /-- v0 to v(NREG - 1). -/
  regs : List Word
  /-- Registers that carry a poison mark (R433). -/
  bad : List Nat
  /-- a0 to a3 (R27). -/
  idx : List Word
  /-- p0 to p7 (R30). -/
  preds : BitVec 8
  /-- FX (R31). -/
  fx : Word
  /-- Call depth, 0 to 63 (R41). -/
  depth : Nat
  pc : Word64
  /-- MELDED and PATH (R136). -/
  melded : Bool
  path : BitVec 2
  /-- Pending hints, oldest first, and the address of the first of them (R98). -/
  hints : List Instr
  hintPc : Word64
  /-- The next word is reached by fall-through (R101, R258). -/
  fell : Bool
  /-- AGE, 0 to 256 (R259). -/
  age : Nat
  wait : Wait
  /-- Open lookahead windows (R102). -/
  windows : List LaWindow
  /-- The stable tiebreak that the thread's deposits carry (R229). -/
  tieTeam : Nat
  tieThread : Nat
  deriving DecidableEq, Repr

/-- What a halted group keeps (R265): the lanes of the trapping issue, the recorded address, whether the
trap was BKPT (R267). -/
structure Halt where
  lanes : BitVec 32
  addr : Word64
  brk : Bool
  deriving DecidableEq, Repr

/-- A group's error record (R251). -/
structure ErrStat where
  addr : Word64
  status : Word64
  deriving DecidableEq, Repr

/-- A group (R10, R254, R255). -/
structure Group where
  cu : Nat
  part : Nat
  slot : Nat
  launch : Nat
  team : Nat
  /-- The role, or none for a berth-formed group (R230). -/
  role : Option Nat
  /-- Index within the role. -/
  index : Nat
  /-- Index within the team, in role order: threads 32 x linear to 32 x linear + 31 (R41). -/
  linear : Nat
  nreg : Nat
  /-- First register and size of the register block (R276, R277). -/
  base : Nat
  size : Nat
  /-- s0 to s63 (R34). -/
  sregs : List Word64
  /-- Meld renaming table, entry 8 x path + j (R36). -/
  rename : List (BitVec 8)
  threads : List (Option Thread)
  halt : Option Halt
  err : Option ErrStat
  wdgroup : Word
  perfsel : BitVec 8
  perfcnt : Word64
  /-- Placement order (R262). -/
  order : Nat
  /-- Choices in which the group was issuable and did not issue, whether it is aged, and whether it yielded (R262, R263). -/
  waited : Nat
  aged : Bool
  yielded : Bool
  /-- When the group watchdog expired, while that is not yet reset (R447): ticks of the machine. -/
  wdExpired : Option Nat
  /-- A berth-formed group that has not issued yet (R231). -/
  fresh : Bool
  deriving DecidableEq, Repr

/-- A team barrier (R236): phase counter, mask of the current phase, lanes arrived of each group, and the groups that have
arrived in the phase, which still count once they have ended. -/
structure Bar where
  phase : Nat
  roles : Option Nat
  arrived : List (Nat × BitVec 32)
  done : List Nat
  deriving DecidableEq, Repr

/-- A barrier at the start of a phase. -/
def Bar.start (phase : Nat) : Bar := { phase := phase, roles := none, arrived := [], done := [] }

/-- A team's hold tiles in one partition (R43): byte memory, 8,192 bytes a tile, and the poisoned
values by their index (R433). -/
structure HoldPart where
  part : Nat
  mem : Mem
  bad : List Nat
  deriving DecidableEq, Repr

/-- A team (R10). -/
structure Team where
  id : Nat
  ctx : Nat
  launch : Nat
  /-- Linear index in the grid (R376). -/
  linear : Nat
  cu : Nat
  /-- Physical place of its scratchpad range, and its size SCR (R278, R288). -/
  base : Nat
  scr : Nat
  mem : Mem
  /-- Scratchpad sectors that carry a poison mark (R433), and lines whose presence bit is clear (R290). -/
  bad : List Nat
  absent : List Nat
  hold : List HoldPart
  bars : List Bar
  wins : List WinCell
  order : Nat
  deriving DecidableEq, Repr

/-- Kinds of range-lock entries (R292). -/
inductive LockKind where
  | dest
  | src
  | opnd
  deriving DecidableEq, Repr

/-- An entry of a CU's range-lock table, in the order in which entries were taken (R190, R292). `skip`
holds ranges that commands with later entries have written, which this command no longer writes (R190). -/
structure Lock where
  kind : LockKind
  owner : Nat
  team : Nat
  lo : Nat
  len : Nat
  skip : List (Nat × Nat)
  deriving DecidableEq, Repr

/-- A deposit (R228, R229, R272): its key, its stable tiebreak (team and thread linear index), its arrival number,
its payload, and the team of the depositing thread (R230). -/
structure Deposit where
  key : Word
  team : Nat
  thread : Nat
  owner : Nat
  arrival : Nat
  payload : List Word
  deriving DecidableEq, Repr

/-- A bound berth (R268 to R270): entries, whether its timer runs, and the groups that it has launched
and that wait for room (R271). -/
structure Berth where
  launch : Nat
  entry : Word64
  entries : List Deposit
  timer : Bool
  due : List (List Deposit)
  deriving DecidableEq, Repr

/-- An L1 sector (R301). -/
structure L1Sector where
  at_ : PAddr
  data : List Byte
  bad : Bool
  deriving DecidableEq, Repr

/-- A CU (R1, R286, R292, R268, R301). -/
structure Cu where
  num : Nat
  /-- SPLIT in units of 128 KiB (R286). -/
  split : Nat
  /-- The context it last held (R19). -/
  ctx : Option Nat
  l1 : List L1Sector
  locks : List Lock
  berths : List (Option Berth)
  arrival : Nat
  wdExpired : Bool
  deriving DecidableEq, Repr

/-- Registers that a returning operation writes in one lane, with flags for FX. -/
structure LaneWrite where
  lane : Nat
  regs : List Nat
  vals : List Word
  fx : Nat
  deriving DecidableEq, Repr

/-- Kinds of lighter commands (R191 to R194). -/
inductive CopyKind where
  | cpy
  | cpym
  | cpyo
  | cpyrw
  deriving DecidableEq, Repr

/-- A run of bytes that a command copies: from a memory reference to a scratchpad offset, or, for CPYO,
from a scratchpad offset to memory. -/
structure Piece where
  ref : MemRef
  scr : Nat
  len : Nat
  deriving DecidableEq, Repr

/-- The operands of CPYRW that wait for the manifest (R194). -/
structure RowCopy where
  rows : Nat
  man : Nat
  dst : Nat
  kmax : Nat
  rowlen : Nat
  stride : Nat
  base : MemRef
  deriving DecidableEq, Repr

/-- A lighter command (R188 to R194): its runs (for CPYRW known once the manifest is read), the teams it
writes, the (team, line) pairs still to land, its counter, and, for CPYO, source lines that it has read, with
the mark of each byte. -/
structure CopyOp where
  kind : CopyKind
  pieces : List Piece
  rows : Option RowCopy
  targets : List Nat
  todo : List (Nat × Nat)
  counter : Option (Nat × Scope)
  buf : List (Nat × List (Byte × Bool))
  deriving DecidableEq, Repr

/-- A matrix operation after its issue (R202, R204, R211): operands as read, destinations, and whether
its B lock is still held. -/
structure MmaOp where
  sparse : Bool
  slot : FSlot
  /-- The accumulator: the hold tile, or the first v-register. -/
  tile : Option Nat
  dreg : Nat
  /-- A registers and accumulators of each taking-part lane. -/
  arows : List (Nat × List Word)
  accs : List (Nat × List Word)
  b : List Byte
  aregs : List Nat
  locked : Bool
  deriving DecidableEq, Repr

/-- HDRN operands (R215). -/
structure HdrnOp where
  fn : Nat
  eps : Nat
  st : Nat
  gt : Nat
  waddr : Nat
  clip : Word
  alpha : Word
  beta : Word
  lossScale : Word
  deriving DecidableEq, Repr

/-- PILOT operands (R218); `x` once it has been read (R221). -/
structure PilotOp where
  top : Bool
  rk : Nat
  dm : Nat
  maddr : Nat
  xaddr : Nat
  tau : Word
  topk : Nat
  slot : FSlot
  n : Nat
  p1 : MemRef
  p2 : MemRef
  x : Option (List Byte)
  deriving DecidableEq, Repr

/-- MCHK operands (R222); `x` and the bitmap once they have been read (R223). -/
structure MchkOp where
  dm : Nat
  maddr : Nat
  xaddr : Nat
  pd : Nat
  raddr : Nat
  slot : FSlot
  n : Nat
  eps : Word
  theta : Word
  h : Word
  w : MemRef
  sc : Nat
  x : Option (List Byte)
  map : Option (List Byte)
  deriving DecidableEq, Repr

/-- A view command that has not completed (R183 to R187): FN, view number, EB and EC as read, the
s-register that receives the result, the scope, and the descriptor that VQRY sampled at its issue (R318). -/
structure ViewOp where
  fn : Nat
  view : Nat
  eb : Word64
  ec : Word64
  sd : Nat
  scope : Scope
  sampled : Option ViewDesc
  deriving DecidableEq, Repr

/-- A collective of this module (R242 to R246): shape, sequence number, ranks, data received of each
member with the mark of a poisoned source, the elements of DST that it has written, its counter, and the node that issued it
where a node did: its queue, the walk, its address, and whether it was ASYNC. -/
structure ConvoyOp where
  group : Nat
  seq : Nat
  op : Nat
  type : Nat
  norm : Bool
  len : Nat
  src : Nat
  dst : Nat
  norma : Nat
  members : Nat
  rank : Nat
  nodes : List Nat
  got : List (Nat × Nat × List Byte × Bool)
  wrote : List Nat
  fail : Nat
  counter : Option (Nat × Scope)
  node : Option (Nat × Nat × Nat × Bool)
  deriving DecidableEq, Repr

/-- Where bytes of a held-back access lie (R322): in memory, or at an offset of a team's scratchpad. -/
inductive LateSite where
  | mem (p : PAddr)
  | scr (team off : Nat)
  deriving DecidableEq, Repr

/-- The bytes lie in a team's scratchpad. -/
def LateSite.inTeam (x : LateSite) (team : Nat) : Bool :=
  match x with
  | .mem _ => false
  | .scr t _ => t == team

/-- Part of a late access: where its bytes lie, or padding; the address that a record names for it, its virtual address or its
offset in scratchpad (R313, R328); the element access that it belongs to, in the order in which a lane's element accesses take
effect (R312); and what it has read, once it has. -/
structure LatePart where
  place : Option LateSite
  va : Nat
  len : Nat
  elem : Nat
  got : Option (List Byte)
  deriving DecidableEq, Repr

/-- A relaxed load of one lane that has not read all of its bytes yet (R328), and whether its parts may be read apart (R168, R172,
R315). -/
structure LateLoad where
  lane : Nat
  regs : List Nat
  parts : List LatePart
  apart : Bool
  deriving DecidableEq, Repr

/-- A relaxed store of one lane that memory has not taken yet (R328): the element access that it belongs to (R312), its place, its
bytes with their marks. -/
structure LateStore where
  lane : Nat
  elem : Nat
  place : LateSite
  bytes : List (Byte × Bool)
  deriving DecidableEq, Repr

/-- What a thread has read of memory for a relaxed load that it has not issued yet (R328, log 7): the group by its placement order,
the lane, the address of the load's word, what was read, and the registers that its address comes from (R329). -/
structure EarlyRead where
  order : Nat
  lane : Nat
  pc : Word64
  part : LatePart
  regs : List Nat
  sregs : List Nat
  deriving DecidableEq, Repr

/-- What a read-modify-write does (R176, R178, R179): an operation of some bits with its operand and new value, an FADD, or
the addition of FXADD. -/
inductive Rmw where
  | atom (op : AtomOp) (bits v w : Nat)
  | fadd (v : Nat)
  | fxadd (n : Nat)
  deriving DecidableEq, Repr

/-- A relaxed atomic of one lane (R328): the registers that take its old value, the flags that it sets, and the old value once
it has been performed. -/
structure LateRmw where
  lane : Nat
  regs : List Nat
  part : LatePart
  rmw : Rmw
  fx : Nat
  got : Option Nat
  deriving DecidableEq, Repr

/-- What an operation in flight is. -/
inductive FlightOp where
  | load (writes : List LaneWrite)
  /-- Loads at a scope that have not read memory yet (R328). -/
  | lateLoad (scope : Scope) (loads : List LateLoad)
  /-- Stores that memory has not taken yet, of ZFILL where `zero` (R328). -/
  | lateStore (zero : Bool) (stores : List LateStore)
  /-- Atomics, of which some may not have been performed yet (R328). -/
  | lateAtomic (ops : List LateRmw)
  /-- The read of SLD, not made yet (R128, R328). -/
  | lateSload (reg : Nat) (parts : List LatePart)
  /-- The read of HLD, not made yet: its tile and the offset of its 8,192 bytes (R322, R328). -/
  | lateHold (tile base : Nat)
  | atomic (writes : List LaneWrite)
  | sload (reg : Nat) (value : Word64)
  | mma (m : MmaOp)
  | hdrn (h : HdrnOp)
  | pilot (p : PilotOp)
  | mchk (m : MchkOp)
  | copy (c : CopyOp)
  | view (v : ViewOp)
  | convoy (c : ConvoyOp)
  deriving DecidableEq, Repr

/-- Which check a read has failed (R436, R440): the hash of its page, the flits of a port, or the sender's code at the boundary of a
unit, the detector of R430. -/
inductive BadRead where
  | hash
  | link (port : Nat)
  | boundary (source : Nat)
  deriving DecidableEq, Repr

/-- What goes through the refetch procedure (R440): the team and line whose data failed, the check that failed it, and the address
concerned. -/
structure Refetch where
  team : Nat
  line : Nat
  why : BadRead
  addr : Nat
  deriving DecidableEq, Repr

/-- An operation in flight: its issuer (the group by its placement order too), the lanes of its issue, what it is, the translation fault that
stalls it (R399), what goes through the refetch procedure (R440), the first virtual address that it accesses (R429), and whether a
FENCE has put what it holds back before later writes (R181, R335). -/
structure Flight where
  id : Nat
  ctx : Nat
  launch : Nat
  team : Nat
  cu : Nat
  part : Nat
  slot : Nat
  order : Nat
  lanes : BitVec 32
  op : FlightOp
  fault : Option Nat
  refetch : Option Refetch
  va : Nat
  fenced : Bool
  deriving DecidableEq, Repr

/-- A shared-window declaration (R371). -/
structure Win where
  valid : Bool
  prole : Nat
  crole : Nat
  pbase : Nat
  cbase : Nat
  wn : Nat
  deriving DecidableEq, Repr

/-- The header of a launch record (R369, R370). -/
structure Header where
  entry : Nat
  gx : Nat
  gy : Nat
  gz : Nat
  flags : Nat
  /-- (GROUPS, REGM) of roles 0 to 3. -/
  roles : List (Nat × Nat)
  scr : Nat
  split : Nat
  ht : Nat
  wins : List Win
  rsbase : Nat
  consta : Nat
  nconst : Nat
  btimer : Nat
  ring : Nat
  ringlog : Nat
  bregm : Nat
  wdg : Nat
  snapa : Nat
  nsnap : Nat
  done0 : Nat
  done1 : Nat
  cumask : Nat
  deriving DecidableEq, Repr

/-- An entry of a range list (R437). -/
structure Range where
  va : Nat
  npages : Nat
  kind : Nat
  aux : Nat
  replica : Nat
  root : List Byte
  deriving DecidableEq, Repr

/-- States of a launch (R383). A refused launch is not kept. -/
inductive LState where
  | waiting
  | running
  | preempted
  | stopped
  deriving DecidableEq, Repr

/-- How a launch stopped: its STATUS, whether by a consumed error (R444), SOURCE of the record. -/
structure Stop where
  status : Nat
  consumed : Bool
  source : Nat
  deriving DecidableEq, Repr

/-- A launch (R369 to R384). -/
structure Launch where
  id : Nat
  ctx : Nat
  queue : Nat
  node : Nat
  /-- The walk that started it (R387). -/
  run : Nat
  record : Nat
  isAsync : Bool
  hdr : Header
  slots : List FSlot
  /-- The CU mask as read: bit u for logical CU u (R369). -/
  mask : Nat
  ranges : List Range
  state : LState
  nextTeam : Nat
  order : Option Nat
  gbarPhase : Nat
  gbarArrived : List (Nat × Nat × BitVec 32)
  /-- Replays taken (R384, R444), and whether the next one has begun to read the record. -/
  replays : Nat
  replaying : Bool
  stop : Option Stop
  /-- It claims the reservation (R378). -/
  claims : Bool
  /-- Teams of the threads that deposited the entries of its sub-rings (R230): CU, entry number, team. -/
  ringTeams : List (Nat × Nat × Nat)
  deriving DecidableEq, Repr

/-- A context descriptor (R391). -/
structure Desc where
  ptroot : Nat
  vtbase : Nat
  qtbase : Nat
  savepool : Nat
  saveslots : Nat
  fqbase : Nat
  fqlog : Nat
  cqlog : Nat
  eqlog : Nat
  fabtag : Nat
  cmdbase : Nat
  eqbase : Nat
  cgbase : Nat
  deriving DecidableEq, Repr

/-- How far the node that a walk stands at has come (R386): not started, started and reading what it names, or
running. -/
inductive Phase where
  | fresh
  | reading
  | running
  deriving DecidableEq, Repr

/-- The walk of a queue through its graph (R386, R387): the node it stands at (0 when the graph has ended), how
far that node has come, its successor, the WHILE nodes around it, innermost first, the ASYNC nodes that have not
completed, the counter that the WAIT node it stands at waits for (R300), whether that node has been released, and the number of
this walk, which tells the work of one entry of the queue from that of an earlier one (R385, R387). -/
structure Walk where
  run : Nat
  node : Nat
  phase : Phase
  next : Nat
  stack : List Nat
  asyncs : List Nat
  waiting : Option Nat
  released : Bool
  deriving DecidableEq, Repr

/-- An entry of the queue table as the harbourmaster last read it (R385). -/
structure QEntry where
  addr : Nat
  size : Nat
  prio : Nat
  enabled : Bool
  deriving DecidableEq, Repr

/-- A queue of a context (R385): its entry, the number of its next walk, its walk, whether it is parked (R384), the node statuses
that a translation fault keeps it from writing (R386), and the fault. -/
structure Queue where
  entry : QEntry
  nextRun : Nat
  walk : Option Walk
  parked : Bool
  owed : List (Nat × Nat)
  fault : Option Nat
  deriving DecidableEq, Repr

/-- What a queue was doing when a translation fault met it (R384, R386): reading its entry or the node that its walk stands at,
with what that node names; reading a launch again for a replay; or writing a node's STATUS. -/
inductive QueueWork where
  | node
  | replay (launch : Nat)
  | status
  deriving DecidableEq, Repr

/-- Who waits for a translation fault (R399). -/
inductive Requester where
  | issue (cu part slot : Nat) (lanes : BitVec 32)
  | flight (id : Nat)
  | queue (q : Nat) (for_ : QueueWork)
  | ring (cu launch : Nat)
  | remote (r : RemoteReq)
  deriving DecidableEq, Repr

/-- A translation fault (R398); `reported` once its entry stands in the fault queue. A fault that a far module reports in
its own queue (R412) has an identifier from 2^32 up, which no FID is. -/
structure XFault where
  fid : Nat
  va : Nat
  cause : Nat
  access : Nat
  agent : Nat
  slot : Nat
  cu : Nat
  node : Nat
  who : Requester
  launch : Option Nat
  reported : Bool
  deriving DecidableEq, Repr

/-- An error record (R429) that has not been written yet. -/
structure ErrRec where
  cls : Nat
  source : Nat
  action : Nat
  slot : Option Nat
  cu : Option Nat
  queue : Option Nat
  addr : Nat
  node : Nat
  record : Nat
  stat : Nat
  stat2 : Nat
  count : Nat
  time : Word64
  deriving DecidableEq, Repr

/-- A page under preservation (R443): where it and its shadow lie, and whether it has been copied. -/
structure PageCopy where
  page : PAddr
  shadow : PAddr
  copied : Bool
  deriving DecidableEq, Repr

/-- An active preservation (R443, R446), named by its list address; the launch that owns it, or none
for one that a SNAPSHOT node began. -/
structure Preserve where
  list : Nat
  launch : Option Nat
  ranges : List Range
  pages : List PageCopy
  deriving DecidableEq, Repr

/-- A context that lives (R391, R392). -/
structure Ctx where
  id : Nat
  desc : Desc
  /-- Dependence counters that are not 0, by index, rising (R299). -/
  counters : List (Nat × Word)
  queues : List Queue
  faults : List XFault
  nextFid : Nat
  /-- Faults of this context that far modules have reported so far (R412). -/
  nextFar : Nat
  errq : List ErrRec
  lost : Nat
  /-- Next sequence number of each convoy group that has been used, and statuses kept (R244, R247). -/
  seqs : List (Nat × Nat)
  tickets : List (Nat × Nat × Nat × Nat)
  preserves : List Preserve
  frozen : Bool
  /-- Slots of the save pool that hold a save (R379). -/
  saveUsed : List Nat
  deriving DecidableEq, Repr

/-- A team saved by pre-emption (R380): the team, its groups, the lock entries of its recorded commands,
its berth entries by berth key, and its slot in the save pool. -/
structure Saved where
  team : Team
  groups : List Group
  locks : List Lock
  flights : List Flight
  deposits : List (Word64 × List Deposit)
  pool : Nat
  deriving DecidableEq, Repr

/-- A translation-cache entry (R397): unit 0 to 255 is a CU, 256 to 259 a base die. -/
structure TlbEntry where
  unit : Nat
  ctx : Nat
  va : Nat
  size : Nat
  pte : Nat
  deriving DecidableEq, Repr

/-- A cached copy of a view descriptor in one view unit (R306). -/
structure ViewCopy where
  cu : Nat
  ctx : Nat
  view : Nat
  raw : List Byte
  deriving DecidableEq, Repr

/-- A context of a peer module, as far as a remote view reaches it (R412). -/
structure PeerCtx where
  tag : Nat
  ptroot : Nat
  deriving DecidableEq, Repr

/-- A peer module reached over the fabric (R412): its device DRAM and its host's memory with their marks, its contexts. -/
structure Peer where
  node : Nat
  mem : Mem
  bad : List Nat
  hostMem : Mem
  hostBad : List Nat
  ctxs : List PeerCtx
  deriving DecidableEq, Repr

/-- A corrected-event window (R432). -/
structure ErrWindow where
  source : Nat
  unit : Nat
  record : ErrRec
  ctx : Option Nat
  deriving DecidableEq, Repr

/-- The reservation (R377): its holder and the CUs claimed. -/
structure Reservation where
  launch : Nat
  cus : List Nat
  deriving DecidableEq, Repr

/-- A disturbance of the physical environment that the next check will meet (R441, R442, R210, R440); `write`: a boundary of
R436 whose check fails for a write and for the write sent once more; `read`: a boundary whose check fails for a read that an issue
makes, at the detector `source`, and where `lost` for its refetch too. -/
inductive Upset where
  | paired
  | residue
  | line
  | write
  | read (source : Nat) (lost : Bool)
  deriving DecidableEq, Repr

/-- The BAR0 registers (R409, R425). CTXLIVE follows from the contexts that live. -/
structure Bar0 where
  nodeid : Nat
  ctxtab : Nat
  ctxerr : Word64
  /-- Lanes up of each port (PORTSTAT [7:4]) and corrected retries since its last read. -/
  lanesUp : List (Nat × Nat)
  retries : List (Nat × Nat)
  /-- ROUTE entries that are not 0. -/
  route : List (Nat × Nat)
  stage1Ended : BitVec 4
  stage2Ended : BitVec 4
  go2 : BitVec 4
  sparemap : List Word64
  wdcu : Word
  wdhm : Word
  wdarm : BitVec 3
  deveqbase : Nat
  deveqlog : Nat
  powercap : Nat
  mbcmd : List Byte
  mbreply : List Byte
  deriving DecidableEq, Repr

/-- The issue that a step performs (R258): its key's group, its lanes, its address, the port, and whether its relaxed loads
and stores reach memory later than the issue (R328). -/
structure Issue where
  cu : Nat
  part : Nat
  slot : Nat
  lanes : BitVec 32
  pc : Word64
  secondary : Bool
  late : Bool
  deriving DecidableEq, Repr

/-- What the environment's schedule asks for next (assumption log 6): an event of the table, an issue of
a partition, the moment at which memory takes a store or an element of a collective, a store of the host to its own memory,
the loss of a cached copy, the use of a translation cache, or an upset. -/
inductive Act where
  | event (i : Instr)
  | issue (cu part : Nat)
  /-- An issue whose relaxed loads and stores reach memory later (R328). -/
  | issueLate (cu part : Nat)
  /-- Memory takes store `k` of those that a flight holds back, or performs its atomic or part `k` of its loads (R328). -/
  | landStore (flight k : Nat)
  /-- A thread reads memory for the relaxed load at an address that it has not issued yet, whose hints add to its effective address
  (R328). -/
  | readEarly (cu part slot lane : Nat) (pc : Word64) (add : Int)
  /-- The sender's check of what an operation in flight has read fails at the boundary of a unit (R436). -/
  | readFail (flight source : Nat)
  /-- The convoy writes element `k` of the DST of a collective (R244, R326). -/
  | landElement (flight k : Nat)
  | evictL1 (cu : Nat) (at_ : PAddr)
  | evictView (cu ctx view : Nat)
  | fillTlb (unit ctx va : Nat)
  | evictTlb (unit ctx va : Nat)
  | evictZero (addr : Nat)
  /-- The host stores into a line of its own memory (R322, R407). -/
  | hostStore (addr : Nat) (bytes : List Byte)
  /-- The host programs the HDM decoder (R406). -/
  | hdmBase (base : Nat)
  /-- The far host answers a fault that its module reported for a request of this one (R412). -/
  | farResume (ctx fid : Nat) (abandon : Bool)
  | upset (u : Upset)
  deriving DecidableEq, Repr

/-- The state of the module. -/
structure State where
  /-- Power is on (R20). -/
  power : Bool
  bar0 : Bar0
  cuReady : List Nat
  /-- Logical CU numbers that a spare holds, with the spare: 256 + 4 x die + s (R2, R425). Any other logical number u is
  held by the physical CU u, the one that holds that position of the mesh. -/
  spares : List (Nat × Nat)
  llcReady : BitVec 4
  stackReady : BitVec 12
  linkReady : BitVec 24
  /-- Units of stage 1, and physical CUs (0 to 255 by position, 256 to 271 the spares) and ports of stage 2, whose outcome
  is not yet known (R1, R424). -/
  stage1Open : List Stage1Unit
  stage2Open : List Nat
  portsOpen : List Nat
  dram : Mem
  dramBad : List Nat
  zeroFlags : List Nat
  hostMem : Mem
  hostBad : List Nat
  peers : List Peer
  retired : List Nat
  /-- Row repairs and the firmware store, which survive power-off (R20, R449); whether the clock is lowered (R450). -/
  repairs : List (Nat × Nat × Nat × Nat)
  firmware : List Byte
  powerLimited : Bool
  thermalLimited : Bool
  cus : List Cu
  groups : List Group
  teams : List Team
  launches : List Launch
  ctxs : List Ctx
  saved : List Saved
  flights : List Flight
  /-- Reads of memory for loads that have not issued yet (R328). -/
  early : List EarlyRead
  tlb : List TlbEntry
  viewCache : List ViewCopy
  reservation : Option Reservation
  /-- Round-robin position for each priority: the (context, queue) served last (R378). -/
  served : List (Nat × Nat × Nat)
  devErrq : List ErrRec
  devLost : Nat
  windows : List ErrWindow
  hmExpired : List HmWait
  msix : List Nat
  /-- Ticks of the machine, from which `Config.freeClock` gives the module time (log 8). -/
  clock : Nat
  cur : Option Issue
  port2 : Option Issue
  upset : Option Upset
  /-- HDMBASE of the HDM decoder (R406). -/
  hdmbase : Nat
  /-- Bytes of the last reply to a host read, a snoop or a remote request (log 14), and packets that left: port, node, hop
  count (R411). -/
  reply : List Byte
  replyBad : Bool
  sent : List (Nat × Nat × Nat)
  agenda : List Act
  turn : Nat
  free : Nat
  nextLaunch : Nat
  nextTeamId : Nat
  nextFlight : Nat
  nextOrder : Nat
  deriving DecidableEq, Repr

/-- Why the model stops with a fault. -/
inductive Fault where
  /-- Raised by the meaning of an instruction word that runs where no issue stands or where the issue
  names no resident group, team, launch or context: `step` never does that. Safe: the hardware has no
  such situation, so nothing true of it becomes provable or false. -/
  | noIssue
  deriving DecidableEq, Repr

/-- Why the model refuses. -/
inductive Refusal where
  /-- An instruction that has no meaning yet; raised by its arm in Dispatch only. Safe: nothing is
  claimed of it. -/
  | notModelled (mnemonic : String)
  deriving DecidableEq, Repr

/-- BAR0 at power-good (R425); the registers of R409 by assumption log 12. -/
def Bar0.reset : Bar0 :=
  { nodeid := 0, ctxtab := 0, ctxerr := 0, lanesUp := [], retries := [], route := [], stage1Ended := 0,
    stage2Ended := 0, go2 := 0, sparemap := [0, 0, 0, 0], wdcu := 0, wdhm := 0, wdarm := 0, deveqbase := 0,
    deveqlog := 0, powercap := 3200, mbcmd := List.replicate 64 0, mbreply := List.replicate 64 0 }

/-- What trains in stage 1 (R424). -/
def stage1Units : List Stage1Unit :=
  (List.range 4).map .llc ++ (List.range 12).map .stack

/-- The machine at power-good, the start of stage 0 (R424, assumption log 4): nothing is ready, no
context lives, nothing is placed. -/
def State.reset : State :=
  { power := true, bar0 := Bar0.reset, cuReady := [], spares := [], llcReady := 0, stackReady := 0, linkReady := 0,
    stage1Open := stage1Units, stage2Open := [], portsOpen := [], dram := [], dramBad := [], zeroFlags := [], hostMem := [],
    hostBad := [], peers := [], retired := [], repairs := [], firmware := [], powerLimited := false,
    thermalLimited := false, cus := [], groups := [], teams := [], launches := [], ctxs := [], saved := [],
    flights := [], early := [], tlb := [], viewCache := [], reservation := none, served := [], devErrq := [], devLost := 0,
    windows := [], hmExpired := [], msix := [], hdmbase := 0, clock := 0, cur := none, port2 := none, upset := none,
    reply := [], replyBad := false, sent := [], agenda := [], turn := 0, free := 0, nextLaunch := 1,
    nextTeamId := 1, nextFlight := 1, nextOrder := 1 }

end Sys2Proof.Machine
end

