-- ==== Sys2Proof/Machine/Bytes.lean ====
section
/-!
DEFINITION. Numbers as little-endian bytes (R11), fields of numbers, and operations on sparse memory,
sector marks and keyed lists that the rest of the machine is written with.
-/
namespace Sys2Proof.Machine

/-- Field of `n` bits of a number from bit `lo`. -/
def field (x lo n : Nat) : Nat := x / 2 ^ lo % 2 ^ n

/-- Bit `i` of a number. -/
def bitOf (x i : Nat) : Bool := x / 2 ^ i % 2 == 1

/-- Two's complement value of the low `n` bits. -/
def signed (n x : Nat) : Int :=
  let y := x % 2 ^ n
  if y < 2 ^ (n - 1) then (y : Int) else (y : Int) - 2 ^ n

/-- The low `n` bits of an integer. -/
def wrap (n : Nat) (x : Int) : Nat := (x % (2 : Int) ^ n).toNat

/-- The number of little-endian bytes (R11). -/
def leNat : List Byte → Nat
  | [] => 0
  | b :: bs => b.toNat + 256 * leNat bs

/-- The low `n` bytes of a number, little-endian (R11). -/
def leBytes : Nat → Nat → List Byte
  | 0, _ => []
  | n + 1, x => BitVec.ofNat 8 x :: leBytes n (x / 256)

/-- The number of registers, the lowest first (R24). -/
def regsNat : List Word → Nat
  | [] => 0
  | w :: ws => w.toNat + 4294967296 * regsNat ws

/-- `n` registers holding a number, the lowest first (R24). -/
def natRegs : Nat → Nat → List Word
  | 0, _ => []
  | n + 1, x => BitVec.ofNat 32 x :: natRegs n (x / 4294967296)

/-- The bytes of registers, as R46 lays them out. -/
def regBytes (ws : List Word) : List Byte := ws.flatMap fun w => leBytes 4 w.toNat

/-- Little-endian number of `n` bytes of a byte string from offset `off`. -/
def numAt (bs : List Byte) (off n : Nat) : Nat := leNat ((bs.drop off).take n)

/-- The bit mask of a list of bit numbers. -/
def maskOf (n : Nat) (xs : List Nat) : BitVec n :=
  BitVec.ofNat n (xs.foldl (fun m i => if bitOf m i then m else m + 2 ^ i) 0)

/-- The set bits of a mask of 32 lanes, ascending. -/
def lanesOf (m : BitVec 32) : List Nat := (List.range 32).filter fun i => bitOf m.toNat i

/-- Write position `i` of a list. -/
def setAt {α : Type} (xs : List α) (i : Nat) (x : α) : List α := xs.set i x

/-- Insert into a rising list without repeats. -/
def insertNat : List Nat → Nat → List Nat
  | [], x => [x]
  | y :: ys, x => if x < y then x :: y :: ys else if x = y then y :: ys else y :: insertNat ys x

/-- Take a number out of a list. -/
def removeNat (xs : List Nat) (x : Nat) : List Nat := xs.filter (· != x)

/-- Insert by key into a list of pairs with rising keys; a key that is there is replaced. -/
def insertKey {β : Type} : List (Nat × β) → Nat → β → List (Nat × β)
  | [], k, v => [(k, v)]
  | (a, b) :: r, k, v => if k < a then (k, v) :: (a, b) :: r else if k = a then (k, v) :: r else (a, b) :: insertKey r k v

/-- The value of a key. -/
def lookupKey {β : Type} : List (Nat × β) → Nat → Option β
  | [], _ => none
  | (a, b) :: r, k => if a = k then some b else lookupKey r k

/-- Insert into a list sorted by `le`, after the entries that do not come later. -/
def insertBy {α : Type} (le : α → α → Bool) : List α → α → List α
  | [], x => [x]
  | y :: ys, x => if le y x then y :: insertBy le ys x else x :: y :: ys

/-- Stable sort. -/
def sortBy {α : Type} (le : α → α → Bool) : List α → List α
  | xs => xs.foldl (insertBy le) []

/-- Replace the first entry that satisfies `p`. -/
def updFirst {α : Type} (p : α → Bool) (f : α → α) : List α → List α
  | [] => []
  | x :: xs => if p x then f x :: xs else x :: updFirst p f xs

/-- The byte at an address: 0 where nothing is listed (log 1, 2). -/
def Mem.get : Mem → Nat → Byte
  | [], _ => 0
  | (a, b) :: r, x => if a = x then b else Mem.get r x

/-- Write one byte, keeping the canonical form. -/
def Mem.set : Mem → Nat → Byte → Mem
  | [], x, v => if v = 0 then [] else [(x, v)]
  | (a, b) :: r, x, v =>
    if x < a then (if v = 0 then (a, b) :: r else (x, v) :: (a, b) :: r)
    else if x = a then (if v = 0 then r else (x, v) :: r)
    else (a, b) :: Mem.set r x v

/-- Replace the `n` bytes from an address upwards, byte `k` of them by `f k`, keeping the canonical form. -/
def Mem.fill (m : Mem) (a n : Nat) (f : Nat → Byte) : Mem :=
  m.filter (·.1 < a) ++ ((List.range n).map fun k => (a + k, f k)).filter (·.2 != 0) ++ m.filter (a + n ≤ ·.1)

/-- Canonical form: addresses strictly rising and no listed byte 0. -/
def Mem.wf : Mem → Bool
  | [] => true
  | (_, b) :: [] => b != 0
  | (a, b) :: (a', b') :: r => decide (a < a') && b != 0 && Mem.wf ((a', b') :: r)

/-- `n` bytes from an address upwards. -/
def Mem.read : Mem → Nat → Nat → List Byte
  | _, _, 0 => []
  | m, a, n + 1 => Mem.get m a :: Mem.read m (a + 1) n

/-- Write bytes from an address upwards. -/
def Mem.write : Mem → Nat → List Byte → Mem
  | m, _, [] => m
  | m, a, b :: bs => Mem.write (Mem.set m a b) (a + 1) bs

/-- Little-endian number of `n` bytes. -/
def Mem.num (m : Mem) (a n : Nat) : Nat := leNat (Mem.read m a n)

/-- The 32-byte sectors that a range of bytes touches (R303, R433). -/
def sectorsOf (a n : Nat) : List Nat :=
  if n = 0 then [] else (List.range ((a + n - 1) / 32 - a / 32 + 1)).map fun i => (a / 32 + i) * 32

/-- The 128-byte lines that a range of bytes touches (R290). -/
def linesOf (a n : Nat) : List Nat :=
  if n = 0 then [] else (List.range ((a + n - 1) / 128 - a / 128 + 1)).map fun i => a / 128 + i

/-- Two ranges of bytes share a byte. -/
def overlap (a n b m : Nat) : Bool := decide (a < b + m) && decide (b < a + n)

/-- Marks after a write of a range: sectors covered whole take the mark of the data, others keep theirs
or gain one (R433). -/
def markWrite (bad : List Nat) (a n : Nat) (dataBad : Bool) : List Nat :=
  (sectorsOf a n).foldl (fun m sct =>
    if dataBad then insertNat m sct
    else if a ≤ sct && sct + 32 ≤ a + n then removeNat m sct else m) bad

/-- Some sector of the range carries a mark (R433). -/
def marked (bad : List Nat) (a n : Nat) : Bool :=
  (sectorsOf a n).any fun sct => bad.contains sct

/-- A canonical 57-bit address: bits 63 to 57 equal bit 56 (R161). -/
def canonical (a : Nat) : Bool := a < 2 ^ 56 || (2 ^ 64 - 2 ^ 56 ≤ a && a < 2 ^ 64)

/-- A view address: bits 63 to 52 are 0xFFF (R162). -/
def isView (a : Nat) : Bool := field a 52 12 == 0xFFF

end Sys2Proof.Machine
end

