-- ==== Sys2Proof/Machine/Capacity.lean ====
section
/-!
DEFINITION. What a team needs and what an empty CU holds (R276 to R278, R377): register blocks by the buddy rule, the groups
of a team, the partitions that they take, and the capacity of a launch on a CU.
-/
namespace Sys2Proof.Machine

/-! ### Register blocks (R276, R277) -/

/-- The block size of a group of `n` registers (R276). -/
def blockFor (n : Nat) : Nat := (([8, 16, 32, 64, 128].find? (n ≤ ·))).getD 256

/-- The free blocks of a register file, merged, among the blocks of 8 x 2^n registers (R277). -/
def freeBlocks (used : List (Nat × Nat)) : Nat → Nat → List (Nat × Nat)
  | 0, base => if used.any fun u => overlap u.1 u.2 base 8 then [] else [(base, 8)]
  | n + 1, base =>
    if used.any fun u => overlap u.1 u.2 base (8 * 2 ^ (n + 1)) then
      freeBlocks used n base ++ freeBlocks used n (base + 8 * 2 ^ n)
    else [(base, 8 * 2 ^ (n + 1))]

/-- The better of two free blocks for a request: the smaller, then the lower. -/
def betterBlock (a : Option (Nat × Nat)) (b : Nat × Nat) : Option (Nat × Nat) :=
  match a with
  | none => some b
  | some x => if b.2 < x.2 || (b.2 == x.2 && b.1 < x.1) then some b else some x

/-- The block that a request takes: the lowest free block of its size, else part of a larger one (R277). -/
def takeBlock (used : List (Nat × Nat)) (b : Nat) : Option Nat :=
  (((freeBlocks used 8 0).filter (b ≤ ·.2)).foldl betterBlock none).map (·.1)

/-- Blocks of these sizes, largest first, fit beside what is used. -/
def packs (used : List (Nat × Nat)) : List Nat → Bool
  | [] => true
  | b :: bs => (takeBlock used b).any fun a => packs ((a, b) :: used) bs

/-! ### The groups of a team and their partitions (R38, R276, R278) -/

/-- Teams of the grid (R375, R376). -/
def Header.total (h : Header) : Nat := h.gx * h.gy * h.gz

/-- NREG of a role (R369). -/
def Header.nreg (h : Header) (q : Nat) : Nat := 8 * ((h.roles.getD q (0, 0)).2 + 1)

/-- Groups of a team in role order (R278, R372): role, index, NREG. -/
def Header.groups (h : Header) : List (Nat × Nat × Nat) :=
  (List.range 4).flatMap fun q => (List.range (h.roles.getD q (0, 0)).1).map fun i => (q, i, h.nreg q)

/-- Groups of a team that have their partition: ((role, index), partition). -/
abbrev Assigned := List ((Nat × Nat) × Nat)

/-- The partition of a group already assigned. -/
def Assigned.part (a : Assigned) (q i : Nat) : Option Nat := (a.find? fun x => x.1 == (q, i)).map (·.2)

/-- Two roles that shared windows bind to one partition, over at most `n` windows in a row (R38). -/
def Header.linked (h : Header) : Nat → Nat → Nat → Bool
  | 0, a, b => a == b
  | n + 1, a, b => h.linked n a b || h.wins.any fun w => w.valid &&
      ((w.prole == b && h.linked n a w.crole) || (w.crole == b && h.linked n a w.prole))

/-- The partition that shared windows give a group (R38, R278): that of a group of its index, in a role that they bind to its
own directly or through other roles, which has its partition already; groups so bound share one partition, so that the order of the
windows does not matter (log 69). -/
def Header.partner (h : Header) (a : Assigned) (q i : Nat) : Option Nat :=
  (a.find? fun x => x.1.2 == i && x.1.1 != q && h.linked 3 q x.1.1).map (·.2)

/-- A partition as a placement weighs it, blocks that may move counted by size (R278, R280). -/
structure Fit where
  part : Nat
  free : Nat
  slots : Nat
  fixed : List (Nat × Nat)
  sizes : List Nat
  deriving DecidableEq, Repr

/-- A slot and a block of a size are free after compaction (R278). -/
def Fit.opens (f : Fit) (b : Nat) : Bool := f.slots != 0 && packs f.fixed (sortBy (fun x y => y ≤ x) (b :: f.sizes))

/-- The partition with one more group. -/
def Fit.add (f : Fit) (b : Nat) : Fit := { f with free := f.free - b, slots := f.slots - 1, sizes := b :: f.sizes }

/-- The partition with the most free registers, the lower number on a tie (R278). -/
def roomiest (fs : List Fit) : Option Fit :=
  fs.foldl (fun best f => match best with
    | none => some f
    | some g => if g.free < f.free then some f else some g) none

/-- Assign the groups of a team to partitions in order (R278). -/
def assign (h : Header) : List (Nat × Nat × Nat) → List Fit → Assigned → Option (Assigned × List Fit)
  | [], fs, a => some (a, fs)
  | (q, i, n) :: r, fs, a =>
    let b := blockFor n
    let ok : List Fit := fs.filter fun f => f.opens b
    let pick : Option Fit := match h.partner a q i with
      | some p => ok.find? (·.part == p)
      | none => roomiest ok
    match pick with
    | none => none
    | some f => assign h r (fs.map fun (g : Fit) => if g.part = f.part then g.add b else g) (((q, i), f.part) :: a)

/-- An empty CU. -/
def emptyFits : List Fit := (List.range 4).map fun p => { part := p, free := 2048, slots := 16, fixed := [], sizes := [] }

/-- Teams that fit on partitions with these hold tiles left, at most `n` (R278, R377). -/
def Header.teamsIn (h : Header) : Nat → List Fit → List Nat → Nat
  | 0, _, _ => 0
  | n + 1, fs, tiles =>
    match assign h h.groups fs [] with
    | none => 0
    | some (a, fs1) =>
      let left := tiles.zipIdx.map fun t => (t.1, a.any (·.2 == t.2))
      if left.any fun t => t.2 && t.1 < h.ht then 0
      else 1 + h.teamsIn n fs1 (left.map fun t => if t.2 then t.1 - h.ht else t.1)

/-- The capacity of a launch on an empty CU (R377). -/
def Header.capacity (h : Header) : Nat :=
  h.teamsIn (if h.scr = 0 then 64 else min 64 (h.split * 131072 / h.scr)) emptyFits [32, 32, 32, 32]

end Sys2Proof.Machine
end

