-- ==== Sys2Proof/Machine/Num.lean ====
section
/-!
DEFINITION. Exact values, formats and rounding (R47 to R52, R66 to R72, R75 to R78). A finite value is a
sign, a natural mantissa and an exponent of two; a value that is known only to lie strictly above its
mantissa and below the next one carries a sticky mark, which is enough to round it once.
-/
namespace Sys2Proof.Machine

/-- FX flags as bits (R31). -/
def fxNV : Nat := 1
def fxDZ : Nat := 2
def fxOF : Nat := 4
def fxUF : Nat := 8
def fxNX : Nat := 16
def fxLO : Nat := 32
def fxCL : Nat := 64

/-- Rounding modes (R68). -/
inductive RMode where
  | rne
  | rtz
  | rdn
  | rup
  deriving DecidableEq, Repr

/-- Rounding mode of a code (R68). -/
def RMode.ofCode : Nat → RMode
  | 0 => .rne
  | 1 => .rtz
  | 2 => .rdn
  | _ => .rup

/-- A floating-point format (R47): exponent and fraction bits, bias, the greatest finite magnitude as a
pattern, whether it has an infinity, its canonical NaN (R48). -/
structure Fmt where
  ebits : Nat
  fbits : Nat
  bias : Nat
  maxPat : Nat
  hasInf : Bool
  canon : Option Nat
  deriving DecidableEq, Repr

def fp32 : Fmt := ⟨8, 23, 127, 0x7F7FFFFF, true, some 0x7FC00000⟩
def fp16 : Fmt := ⟨5, 10, 15, 0x7BFF, true, some 0x7E00⟩
def bf16 : Fmt := ⟨8, 7, 127, 0x7F7F, true, some 0x7FC0⟩
def e4m3 : Fmt := ⟨4, 3, 7, 0x7E, false, some 0x7F⟩
def e5m2 : Fmt := ⟨5, 2, 15, 0x7B, true, some 0x7E⟩
def e2m1 : Fmt := ⟨2, 1, 1, 0x7, false, none⟩
def fp64 : Fmt := ⟨11, 52, 1023, 0x7FEFFFFFFFFFFFFF, true, some 0x7FF8000000000000⟩

/-- The sign bit of a format. -/
def Fmt.signBit (f : Fmt) : Nat := 2 ^ (f.ebits + f.fbits)

/-- The pattern of an infinity. -/
def Fmt.inf (f : Fmt) (neg : Bool) : Nat :=
  (2 ^ f.ebits - 1) * 2 ^ f.fbits + (if neg then f.signBit else 0)

/-- A NaN on its way to a result (R71): sign and fraction bits as found, whether it is signalling, whether
it counts as the canonical NaN of the result (FP8 NaNs and reserved codes), whether it is a reserved code. -/
structure NanV where
  neg : Bool
  frac : Nat
  bits : Nat
  sig : Bool
  canon : Bool
  reserved : Bool
  deriving DecidableEq, Repr

/-- An exact value (R66): NaN, an infinity, or (-1)^neg x m x 2^e. -/
inductive FV where
  | nan (n : NanV)
  | inf (neg : Bool)
  | fin (neg : Bool) (m : Nat) (e : Int)
  deriving DecidableEq, Repr

/-- The NaN of an invalid operation or of a reserved code (R48, R58). -/
def canonNan (reserved : Bool) : NanV := ⟨false, 0, 0, false, true, reserved⟩

def FV.isNan : FV → Bool
  | .nan _ => true
  | _ => false

def FV.isZero : FV → Bool
  | .fin _ m _ => m == 0
  | _ => false

def FV.isInf : FV → Bool
  | .inf _ => true
  | _ => false

def FV.sign : FV → Bool
  | .nan n => n.neg
  | .inf s => s
  | .fin s _ _ => s

/-- The value with its sign inverted where `b`. -/
def FV.flip (b : Bool) : FV → FV
  | .nan n => .nan n
  | .inf s => .inf (s != b)
  | .fin s m e => .fin (s != b) m e

/-- The exact value of a pattern of a format with the IEEE field split (R47). -/
def Fmt.decode (f : Fmt) (x : Nat) : FV :=
  let s := bitOf x (f.ebits + f.fbits)
  let ex := field x f.fbits f.ebits
  let fr := field x 0 f.fbits
  let top := 2 ^ f.ebits - 1
  if f.hasInf && ex == top then
    if fr = 0 then .inf s
    else if f.fbits ≤ 2 then .nan (canonNan false)
    else .nan ⟨s, fr, f.fbits, !bitOf fr (f.fbits - 1), false, false⟩
  else if !f.hasInf && f.canon.isSome && ex == top && fr == 2 ^ f.fbits - 1 then .nan (canonNan false)
  else if ex = 0 then .fin s fr (1 - (f.bias : Int) - f.fbits)
  else .fin s (2 ^ f.fbits + fr) ((ex : Int) - f.bias - f.fbits)

/-- A pattern and the flags raised. -/
structure Rounded where
  pat : Nat
  fx : Nat
  deriving DecidableEq, Repr

/-- Whether a discarded part rounds the magnitude up: `rem` of `2^sh`, and a sticky mark (R68). -/
def roundsUp (mode : RMode) (neg odd : Bool) (rem sh : Nat) (sticky : Bool) : Bool :=
  let any := rem != 0 || sticky
  match mode with
  | .rtz => false
  | .rdn => neg && any
  | .rup => !neg && any
  | .rne =>
    if sh = 0 then false
    else
      let half := 2 ^ (sh - 1)
      half < rem || (rem == half && (sticky || odd))

/-- Integer part, and whether rounding at `sh` bits below the mantissa was inexact. -/
def roundShift (mode : RMode) (neg : Bool) (m sh : Nat) (sticky : Bool) : Nat × Bool :=
  let n := m / 2 ^ sh
  let rem := m % 2 ^ sh
  (n + (if roundsUp mode neg (n % 2 == 1) rem sh sticky then 1 else 0), rem != 0 || sticky)

/-- What overflow gives (R69). -/
def overflowPat (f : Fmt) (mode : RMode) (neg : Bool) : Nat :=
  let s := if neg then f.signBit else 0
  let toInf := match mode with
    | .rne => true
    | .rtz => false
    | .rdn => neg
    | .rup => !neg
  if f.hasInf && toInf then f.inf neg else s + f.maxPat

/-- RoundFP of a nonzero magnitude (R69). -/
def roundMag (f : Fmt) (mode : RMode) (neg : Bool) (m : Nat) (e : Int) (sticky : Bool) : Rounded :=
  let s := if neg then f.signBit else 0
  let top : Int := (Nat.log2 m : Int) + e
  let emin : Int := 1 - (f.bias : Int)
  let qmin : Int := emin - f.fbits
  let q : Int := if qmin ≤ top - f.fbits then top - f.fbits else qmin
  let (n, inexact) :=
    if q ≤ e then (m * 2 ^ (e - q).toNat, sticky) else roundShift mode neg m (q - e).toNat sticky
  let pat := (q - qmin).toNat * 2 ^ f.fbits + n
  if f.maxPat < pat then ⟨overflowPat f mode neg, fxOF + fxNX⟩
  else
    let qu := top - f.fbits
    let nu := if qu ≤ e then m * 2 ^ (e - qu).toNat else (roundShift mode neg m (qu - e).toNat sticky).1
    let tiny := decide (top < emin) && !(decide (top + 1 = emin) && nu == 2 ^ (f.fbits + 1))
    ⟨s + pat, (if inexact then fxNX else 0) + (if inexact && tiny then fxUF else 0)⟩

/-- RoundFP (R69) of (-1)^neg x m x 2^e, or of a value strictly between that and the next mantissa. -/
def roundFin (f : Fmt) (mode : RMode) (neg : Bool) (m : Nat) (e : Int) (sticky : Bool) : Rounded :=
  if m = 0 then
    if sticky then roundMag f mode neg 1 (e - 1) true
    else ⟨if neg then f.signBit else 0, 0⟩
  else roundMag f mode neg m e sticky

/-- The pattern that a NaN gives in a format: its payload kept from the top, its quiet bit set (R71); zero
where the format has no NaN. -/
def nanPat (f : Fmt) (n : NanV) : Nat :=
  match f.canon with
  | none => 0
  | some c =>
    if n.canon || f.fbits ≤ 3 then c
    else
      let fr := if n.bits ≤ f.fbits then n.frac * 2 ^ (f.fbits - n.bits) else n.frac / 2 ^ (n.bits - f.fbits)
      let q := 2 ^ (f.fbits - 1)
      let fr' := if bitOf fr (f.fbits - 1) then fr else fr + q
      (if n.neg then f.signBit else 0) + (2 ^ f.ebits - 1) * 2 ^ f.fbits + fr'

/-- NV where a NaN operand is signalling or a reserved code (R58, R71). -/
def nanFlags (ops : List FV) : Nat :=
  if ops.any fun v => match v with
    | .nan n => n.sig || n.reserved
    | _ => false
  then fxNV else 0

/-- PropagateNaN (R71): the first NaN operand; a format without NaN takes zero with NV. -/
def propagate (f : Fmt) (ops : List FV) : Rounded :=
  match ops.find? FV.isNan with
  | some (.nan n) => ⟨nanPat f n, if f.canon.isNone then fxNV else nanFlags ops⟩
  | _ => ⟨0, 0⟩

/-- The NaN of an invalid operation, with NV (R72). -/
def invalid (f : Fmt) : Rounded := ⟨f.canon.getD 0, fxNV⟩

/-- RoundFP of a value (R69). -/
def roundFV (f : Fmt) (mode : RMode) (v : FV) : Rounded :=
  match v with
  | .nan _ => propagate f [v]
  | .inf s => if f.hasInf then ⟨f.inf s, 0⟩ else ⟨overflowPat f mode s, fxOF + fxNX⟩
  | .fin s m e => roundFin f mode s m e false

/-- Signed mantissa at a lower exponent. -/
def alignTo (neg : Bool) (m : Nat) (e q : Int) : Int :=
  let x : Int := (m * 2 ^ (e - q).toNat : Nat)
  if neg then -x else x

/-- The exact product; ∞ x 0 gives none (R72). NaN operands are the caller's. -/
def FV.mul (a b : FV) : Option FV :=
  match a, b with
  | .nan _, _ => some a
  | _, .nan _ => some b
  | .inf s, .inf t => some (.inf (s != t))
  | .inf s, .fin t m _ => if m = 0 then none else some (.inf (s != t))
  | .fin s m _, .inf t => if m = 0 then none else some (.inf (s != t))
  | .fin s m e, .fin t n f => some (.fin (s != t) (m * n) (e + f))

/-- The exact sum with the sign rules of R69 and R144; ∞ - ∞ gives none. -/
def FV.add (mode : RMode) (a b : FV) : Option FV :=
  match a, b with
  | .nan _, _ => some a
  | _, .nan _ => some b
  | .inf s, .inf t => if s = t then some (.inf s) else none
  | .inf s, .fin _ _ _ => some (.inf s)
  | .fin _ _ _, .inf t => some (.inf t)
  | .fin s m e, .fin t n f =>
    let q := if e ≤ f then e else f
    let x := alignTo s m e q + alignTo t n f q
    if x = 0 then some (.fin (if m = 0 && n = 0 && s == t then s else decide (mode = .rdn)) 0 0)
    else some (.fin (decide (x < 0)) x.natAbs q)

/-- a + b, rounded once (R145, R151). -/
def addFP (f : Fmt) (mode : RMode) (a b : FV) : Rounded :=
  if a.isNan || b.isNan then propagate f [a, b]
  else match FV.add mode a b with
    | none => invalid f
    | some v => roundFV f mode v

/-- a x b, rounded once. -/
def mulFP (f : Fmt) (mode : RMode) (a b : FV) : Rounded :=
  if a.isNan || b.isNan then propagate f [a, b]
  else match FV.mul a b with
    | none => invalid f
    | some v => roundFV f mode v

/-- a x b + d, fused; ∞ x 0 is invalid whatever d is (R72, R145). -/
def fmaFP (f : Fmt) (mode : RMode) (a b d : FV) : Rounded :=
  if a.isNan || b.isNan then propagate f [a, b, d]
  else match FV.mul a b with
    | none => invalid f
    | some p =>
      if d.isNan then propagate f [a, b, d]
      else match FV.add mode p d with
        | none => invalid f
        | some v => roundFV f mode v

/-- A finite quotient of magnitudes: mantissa with at least 100 significant bits, exponent, sticky mark. -/
def quotMag (m : Nat) (e : Int) (n : Nat) (f : Int) : Nat × Int × Bool :=
  let k := Nat.log2 n + 100
  (m * 2 ^ k / n, e - f - k, m * 2 ^ k % n != 0)

/-- An exact value, or a magnitude with a sticky mark, or what division makes of it (R72, R78). -/
inductive QuotV where
  | val (v : FV) (fx : Nat)
  | mag (neg : Bool) (m : Nat) (e : Int) (sticky : Bool)
  | bad
  deriving DecidableEq, Repr

/-- a ÷ b of values that are not NaN (R72, R146). -/
def divFV (a b : FV) : QuotV :=
  let s := a.sign != b.sign
  match a, b with
  | .nan _, _ => .val a 0
  | _, .nan _ => .val b 0
  | .inf _, .inf _ => .bad
  | .inf _, .fin _ _ _ => .val (.inf s) 0
  | .fin _ _ _, .inf _ => .val (.fin s 0 0) 0
  | .fin _ m e, .fin _ n f =>
    if n = 0 then (if m = 0 then .bad else .val (.inf s) fxDZ)
    else if m = 0 then .val (.fin s 0 0) 0
    else let (k, x, st) := quotMag m e n f; .mag s k x st

/-- a ÷ b, rounded once (R146). -/
def divFP (f : Fmt) (mode : RMode) (a b : FV) : Rounded :=
  if a.isNan || b.isNan then propagate f [a, b]
  else match divFV a b with
    | .bad => invalid f
    | .val v fx => let r := roundFV f mode v; ⟨r.pat, r.fx ||| fx⟩
    | .mag s m e st => roundFin f mode s m e st

/-- Comparison of two values that are not NaN: -0 equals +0. -/
def FV.cmp (a b : FV) : Ordering :=
  match a, b with
  | .inf s, .inf t => if s = t then .eq else if s then .lt else .gt
  | .inf s, _ => if s then .lt else .gt
  | _, .inf t => if t then .gt else .lt
  | .fin s m e, .fin t n f =>
    let q := if e ≤ f then e else f
    compare (alignTo s m e q) (alignTo t n f q)
  | .nan _, _ => .eq
  | _, .nan _ => .eq

/-- Min or Max (R147): -0 orders below +0; one NaN operand yields the other. -/
def minMaxFP (f : Fmt) (isMax : Bool) (x y : Nat) : Rounded :=
  let a := f.decode x
  let b := f.decode y
  let fx := nanFlags [a, b]
  if a.isNan && b.isNan then propagate f [a, b]
  else if a.isNan then ⟨y, fx⟩
  else if b.isNan then ⟨x, fx⟩
  else
    let less := match FV.cmp a b with
      | .lt => true
      | .gt => false
      | .eq => a.sign && !b.sign
    ⟨if less != isMax then x else y, fx⟩

/-! ### Narrowing (R77, R78) -/

/-- A target of a narrowing: a floating format, or an integer format of some bits. -/
inductive Target where
  | fp (f : Fmt)
  | int (bits : Nat) (sgn : Bool)
  deriving DecidableEq, Repr

/-- Least and greatest integer of an integer format. -/
def intRange (bits : Nat) (sgn : Bool) : Int × Int :=
  if sgn then (-(2 : Int) ^ (bits - 1), (2 : Int) ^ (bits - 1) - 1) else (0, (2 : Int) ^ bits - 1)

/-- RoundInt (R70) of a magnitude with its sign: the integer and NX. -/
def roundInt (mode : RMode) (neg : Bool) (m : Nat) (e : Int) (sticky : Bool) : Int × Nat :=
  let (n, inexact) := if 0 ≤ e then (m * 2 ^ e.toNat, sticky) else roundShift mode neg m (-e).toNat sticky
  (if neg then -(n : Int) else n, if inexact then fxNX else 0)

/-- SatInt (R67). -/
def satInt (x : Int) (bits : Nat) (sgn : Bool) : Int :=
  let r := intRange bits sgn
  if x < r.1 then r.1 else if r.2 < x then r.2 else x

/-- A magnitude with sticky mark lies strictly above the integer `k` (k not negative). -/
def magAbove (m : Nat) (e : Int) (sticky : Bool) (k : Nat) : Bool :=
  if 0 ≤ e then k < m * 2 ^ e.toNat || (m * 2 ^ e.toNat == k && sticky)
  else k * 2 ^ (-e).toNat < m || (m == k * 2 ^ (-e).toNat && sticky)

/-- A magnitude lies strictly above the greatest finite value of a format. -/
def magAboveFmt (f : Fmt) (m : Nat) (e : Int) (sticky : Bool) : Bool :=
  match f.decode f.maxPat with
  | .fin _ n q =>
    let z := if e ≤ q then e else q
    let x := m * 2 ^ (e - z).toNat
    let y := n * 2 ^ (q - z).toNat
    y < x || (x == y && sticky)
  | _ => false

/-- Clip and round one finite magnitude into a target (R77). -/
def narrowMag (t : Target) (mode : RMode) (neg : Bool) (m : Nat) (e : Int) (sticky : Bool) : Rounded :=
  match t with
  | .fp f =>
    if magAboveFmt f m e sticky then ⟨(if neg then f.signBit else 0) + f.maxPat, fxCL + fxNX⟩
    else roundFin f mode neg m e sticky
  | .int bits sgn =>
    let r := intRange bits sgn
    let lim := if neg then r.1.natAbs else r.2.natAbs
    if magAbove m e sticky lim then ⟨wrap bits (if neg then r.1 else r.2), fxCL + fxNX⟩
    else let (x, fx) := roundInt mode neg m e sticky; ⟨wrap bits (satInt x bits sgn), fx⟩

/-- An infinity into a target (R77). -/
def narrowInf (t : Target) (neg : Bool) : Rounded :=
  match t with
  | .fp f => if f.hasInf then ⟨f.inf neg, 0⟩ else ⟨(if neg then f.signBit else 0) + f.maxPat, fxCL + fxNX⟩
  | .int bits sgn => let r := intRange bits sgn; ⟨wrap bits (if neg then r.1 else r.2), fxCL + fxNX⟩

/-- A NaN into a target (R71). -/
def narrowNan (t : Target) (ops : List FV) : Rounded :=
  match t with
  | .fp f => propagate f ops
  | .int _ _ => ⟨0, fxNV⟩

/-- The NaN of an invalid operation into a target (R71, R72). -/
def narrowBad (t : Target) : Rounded :=
  match t with
  | .fp f => invalid f
  | .int _ _ => ⟨0, fxNV⟩

/-- Narrow of an exact product (R77): `none` is ∞ x 0. -/
def narrowFV (t : Target) (mode : RMode) (ops : List FV) (v : Option FV) : Rounded :=
  if ops.any FV.isNan then narrowNan t ops
  else match v with
    | none => narrowBad t
    | some (.nan _) => narrowBad t
    | some (.inf s) => narrowInf t s
    | some (.fin s m e) => narrowMag t mode s m e false

/-- DivNarrow (R78): one rounding of the exact quotient. -/
def divNarrow (t : Target) (mode : RMode) (a b : FV) : Rounded :=
  if a.isNan || b.isNan then narrowNan t [a, b]
  else match divFV a b with
    | .bad => narrowBad t
    | .val (.inf s) fx => let r := narrowInf t s; ⟨r.pat, r.fx ||| fx⟩
    | .val (.fin s m e) fx => let r := narrowMag t mode s m e false; ⟨r.pat, r.fx ||| fx⟩
    | .val (.nan _) _ => narrowBad t
    | .mag s m e st => narrowMag t mode s m e st

/-- A signed integer as a value. -/
def intFV (x : Int) : FV := .fin (decide (x < 0)) x.natAbs 0

/-- Exact value 1. -/
def oneFV : FV := .fin false 1 0

end Sys2Proof.Machine
end

