-- ==== Sys2Proof/Machine/Trans.lean ====
section
/-!
DEFINITION. The correctly rounded functions (R73, R74). Square roots are exact digit by digit. The
transcendental functions are evaluated in fixed point with 320 fractional bits, far more than the
24-bit results and the arguments of FP32 need, and rounded once from the truncated value (assumption log 17).
-/
namespace Sys2Proof.Machine

/-- Fractional bits of the fixed-point evaluation. -/
def fixBits : Nat := 320

/-- 1 in fixed point. -/
def fixOne : Nat := 2 ^ 320

/-- Integer square root, from bit `k - 1` downwards. -/
def isqrtGo (n : Nat) : Nat → Nat → Nat
  | 0, r => r
  | k + 1, r => let c := r + 2 ^ k; isqrtGo n k (if c * c ≤ n then c else r)

/-- ⌊√n⌋. -/
def isqrt (n : Nat) : Nat := isqrtGo n (Nat.log2 n / 2 + 1) 0

/-- √(m x 2^e) with at least 100 significant bits: mantissa, exponent, sticky mark. -/
def sqrtMag (m : Nat) (e : Int) : Nat × Int × Bool :=
  let k : Nat := 200 + (e % 2).toNat
  let n := m * 2 ^ k
  let r := isqrt n
  (r, (e - k) / 2, r * r != n)

/-- 1 ÷ √(m x 2^e): mantissa, exponent, sticky mark. -/
def rsqrtMag (m : Nat) (e : Int) : Nat × Int × Bool :=
  let k : Nat := 2 * Nat.log2 m + 400 + (e % 2).toNat
  let n := 2 ^ k / m
  let r := isqrt n
  (r, (-e - k) / 2, !(r * r == n && 2 ^ k % m == 0))

/-- Σ over j of term(j): term(j + 1) = term(j) x num ÷ (den(j)), up to `n` terms. -/
def seriesGo (num : Nat) (den : Nat → Nat) : Nat → Nat → Nat → Nat → Nat
  | 0, _, _, acc => acc
  | n + 1, j, t, acc => seriesGo num den n (j + 1) (t * num / 2 ^ 320 / den j) (acc + t)

/-- e^y for a fixed-point y of 0 up to about 1. -/
def fixExp (y : Nat) : Nat := seriesGo y (fun j => j + 1) 90 0 fixOne 0

/-- Σ (-1)^j term(j): alternating series, split into even and odd terms. -/
def altGo (num : Nat) (den : Nat → Nat) : Nat → Nat → Nat → Nat → Nat → Nat × Nat
  | 0, _, _, p, n => (p, n)
  | k + 1, j, t, p, n =>
    let t' := t * num / 2 ^ 320 / den j
    if j % 2 = 0 then altGo num den k (j + 1) t' (p + t) n else altGo num den k (j + 1) t' p (n + t)

/-- sin y for a fixed-point y of 0 to about 0.8. -/
def fixSin (y : Nat) : Nat :=
  let (p, n) := altGo (y * y / 2 ^ 320) (fun j => (2 * j + 2) * (2 * j + 3)) 50 0 y 0 0
  p - n

/-- cos y for a fixed-point y of 0 to about 0.8. -/
def fixCos (y : Nat) : Nat :=
  let (p, n) := altGo (y * y / 2 ^ 320) (fun j => (2 * j + 1) * (2 * j + 2)) 50 0 fixOne 0 0
  p - n

/-- Σ z^(2j+1) ÷ (2j+1), with `z2` = z²: atanh z; terms alternate where `alt` (atan z). -/
def atanGo (z2 : Nat) (alt : Bool) : Nat → Nat → Nat → Nat → Nat → Nat
  | 0, _, _, p, n => p - n
  | k + 1, j, t, p, n =>
    let q := t / (2 * j + 1)
    let t' := t * z2 / 2 ^ 320
    if alt && j % 2 == 1 then atanGo z2 alt k (j + 1) t' p (n + q) else atanGo z2 alt k (j + 1) t' (p + q) n

/-- atanh of a fixed-point value of 0 to 1/3. -/
def fixAtanh (z : Nat) : Nat := atanGo (z * z / 2 ^ 320) false 110 0 z 0 0

/-- ln 2 = 2 atanh (1/3). -/
def fixLn2 : Nat := 2 * fixAtanh (fixOne / 3)

/-- Σ of atan (1/k) at `b` fractional bits. -/
def atanInvGo (k : Nat) : Nat → Nat → Nat → Nat → Nat → Nat
  | 0, _, _, p, n => p - n
  | f + 1, j, t, p, n =>
    let q := t / (2 * j + 1)
    if j % 2 = 1 then atanInvGo k f (j + 1) (t / (k * k)) p (n + q) else atanInvGo k f (j + 1) (t / (k * k)) (p + q) n

/-- π at 512 fractional bits (Machin: 16 atan (1/5) - 4 atan (1/239)). -/
def piBits : Nat :=
  16 * atanInvGo 5 130 0 (2 ^ 530 / 5) 0 0 / 2 ^ 18 - 4 * atanInvGo 239 60 0 (2 ^ 530 / 239) 0 0 / 2 ^ 18

/-- |x| reduced by π/2 (R73): the quadrant and the rest in fixed point, 0 to π/2. -/
def reduceQuarter (m : Nat) (e : Int) : Nat × Nat :=
  let h := piBits / 2
  let x := if 0 ≤ e + 512 then m * 2 ^ (e + 512).toNat else 0
  (x / h % 4, (x - x / h * h) / 2 ^ 192)

/-- Exp(x) = ⌊log2 |x|⌋ of a nonzero magnitude (R67). -/
def expOf (m : Nat) (e : Int) : Int := (Nat.log2 m : Int) + e

/-- Just below a magnitude: the value x - d for 0 < d < x x 2^-64. -/
def justBelow (m : Nat) (e : Int) : Nat × Int := (m * 2 ^ 64 - 1, e - 64)

/-- sin of a finite nonzero value (R73). -/
def sinFin (mode : RMode) (neg : Bool) (m : Nat) (e : Int) : Rounded :=
  if expOf m e < -40 then
    let (k, f) := justBelow m e
    roundFin fp32 mode neg k f true
  else
    let (q, r) := reduceQuarter m e
    let v := if q % 2 = 0 then fixSin r else fixCos r
    roundFin fp32 mode (neg != decide (2 ≤ q)) v (-320) true

/-- cos of a finite nonzero value (R73). -/
def cosFin (mode : RMode) (m : Nat) (e : Int) : Rounded :=
  if expOf m e < -40 then roundFin fp32 mode false (2 ^ 64 - 1) (-64) true
  else
    let (q, r) := reduceQuarter m e
    let v := if q % 2 = 0 then fixCos r else fixSin r
    roundFin fp32 mode (q == 1 || q == 2) v (-320) true

/-- 2^x of a finite nonzero value (R73, R74): exact where x is an integer. -/
def exp2Fin (mode : RMode) (neg : Bool) (m : Nat) (e : Int) : Rounded :=
  if 8 ≤ expOf m e then
    if neg then roundFin fp32 mode false 1 (-400) true else roundFin fp32 mode false 1 400 true
  else
    let x := alignTo neg m e (-320)
    let n := x / (2 : Int) ^ 320
    let f := (x % (2 : Int) ^ 320).toNat
    if f = 0 then roundFin fp32 mode false 1 n false
    else roundFin fp32 mode false (fixExp (f * fixLn2 / 2 ^ 320)) (n - 320) true

/-- log2 of a finite positive value (R73, R74): exact for a power of two. -/
def log2Fin (mode : RMode) (m : Nat) (e : Int) : Rounded :=
  let t : Nat := Nat.log2 m
  if m = 2 ^ t then
    let k := e + t
    roundFin fp32 mode (decide (k < 0)) k.natAbs 0 false
  else
    let up : Bool := decide (3 * 2 ^ t ≤ 2 * m)
    let one : Nat := if up then 2 ^ (t + 1) else 2 ^ t
    let k : Int := e + t + (if up then 1 else 0)
    let a : Nat := (if up then one - m else m - one) * fixOne / (m + one)
    let l : Nat := 2 * fixAtanh a * fixOne / fixLn2
    let v : Int := k * (2 : Int) ^ 320 + (if up then -(l : Int) else l)
    roundFin fp32 mode (decide (v < 0)) v.natAbs (-320) true

/-- e^-y of a fixed-point y. -/
def fixExpNeg (y : Nat) : Nat :=
  let n := y / fixLn2
  2 ^ 640 / (fixExp (y - n * fixLn2) * 2 ^ n)

/-- tanh of a finite nonzero value (R73). -/
def tanhFin (mode : RMode) (neg : Bool) (m : Nat) (e : Int) : Rounded :=
  if expOf m e < -40 then
    let (k, f) := justBelow m e
    roundFin fp32 mode neg k f true
  else if 6 ≤ expOf m e then roundFin fp32 mode neg (2 ^ 80 - 1) (-80) true
  else
    let w := fixExpNeg (m * 2 ^ (e + 321).toNat)
    roundFin fp32 mode neg ((fixOne - w) * 2 ^ 320 / (fixOne + w)) (-320) true

/-- The functions of R150. -/
inductive Fun1 where
  | sqrt
  | rcp
  | rsq
  | exp2
  | log2
  | sin
  | cos
  | tanh
  deriving DecidableEq, Repr

/-- FRCP of a value that is not NaN (R74). -/
def rcpFP (mode : RMode) (a : FV) : Rounded := divFP fp32 mode oneFV a

/-- A correctly rounded function of an FP32 value (R73, R74). -/
def fun1 (fn : Fun1) (mode : RMode) (a : FV) : Rounded :=
  match a with
  | .nan _ => propagate fp32 [a]
  | .inf neg =>
    match fn with
    | .sqrt => if neg then invalid fp32 else ⟨fp32.inf false, 0⟩
    | .rcp => ⟨if neg then fp32.signBit else 0, 0⟩
    | .rsq => if neg then invalid fp32 else ⟨0, 0⟩
    | .exp2 => if neg then ⟨0, 0⟩ else ⟨fp32.inf false, 0⟩
    | .log2 => if neg then invalid fp32 else ⟨fp32.inf false, 0⟩
    | .sin => invalid fp32
    | .cos => invalid fp32
    | .tanh => ⟨if neg then 0xBF800000 else 0x3F800000, 0⟩
  | .fin neg m e =>
    if m = 0 then
      let zero : Rounded := ⟨if neg then fp32.signBit else 0, 0⟩
      match fn with
      | .sqrt => zero
      | .rcp => ⟨fp32.inf neg, fxDZ⟩
      | .rsq => ⟨fp32.inf neg, fxDZ⟩
      | .exp2 => ⟨0x3F800000, 0⟩
      | .log2 => ⟨fp32.inf true, fxDZ⟩
      | .sin => zero
      | .cos => ⟨0x3F800000, 0⟩
      | .tanh => zero
    else
      match fn with
      | .sqrt => if neg then invalid fp32 else let (k, x, st) := sqrtMag m e; roundFin fp32 mode false k x st
      | .rcp => rcpFP mode a
      | .rsq => if neg then invalid fp32 else let (k, x, st) := rsqrtMag m e; roundFin fp32 mode false k x st
      | .exp2 => exp2Fin mode neg m e
      | .log2 => if neg then invalid fp32 else log2Fin mode m e
      | .sin => sinFin mode neg m e
      | .cos => cosFin mode m e
      | .tanh => tanhFin mode neg m e

end Sys2Proof.Machine
end

