-- ==== Sys2Proof/Machine/Formats.lean ====
section
/-!
DEFINITION. The narrow and lattice formats (R45 to R60), the format slot (R61 to R64), matrix sums (R79,
R80), the search for the nearest lattice point (R82 to R84) and the matrix, drain and pilot functions over
operands that have been read (R202, R209, R216, R219, R220, R223).
-/
namespace Sys2Proof.Machine

/-! ### The format slot -/

/-- Operand-descriptor fields (R62). -/
def descKind (d : Word) : Nat := field d.toNat 0 8
def descBlk (d : Word) : Nat := field d.toNat 8 3
def descScf (d : Word) : Nat := field d.toNat 11 3
def descSpl (d : Word) : Nat := field d.toNat 14 2
def descNz (d : Word) : Bool := bitOf d.toNat 16
def descLpol (d : Word) : Bool := bitOf d.toNat 17

/-- Block size of a BLK code (R62); 0 for none. -/
def blockSize (d : Word) : Nat :=
  match descBlk d with
  | 1 => 4
  | 2 => 8
  | 3 => 16
  | 4 => 32
  | _ => 0

/-- Bytes of a block scale (R52, R62); 0 for none. -/
def scaleBytes (d : Word) : Nat :=
  match descScf d with
  | 1 => 1
  | 2 => 1
  | 3 => 4
  | _ => 0

/-- Element bits of a KIND (R63); L8 kinds take their point width in bits per element. -/
def kindBits (k : Nat) : Nat :=
  if k = 1 || k = 2 then 16
  else if k = 3 || k = 4 || k = 5 || k = 0xF || k = 0xC || k = 0xD || k = 0xE then 8
  else if k = 6 || k = 7 || k = 8 then 4
  else if k = 9 then 2
  else if k = 0xA then 3
  else if k = 0xB then 4
  else 0

/-- Point width in bytes of an L8 kind (R56); 0 for another kind. -/
def pointWidth (k : Nat) : Nat := if k = 9 then 2 else if k = 0xA then 3 else if k = 0xB then 4 else 0

/-- Operand class (R63): 0 BF16/FP16, 1 FP8, 2 the 4-bit class. -/
def kindClass (k : Nat) : Nat :=
  if k = 1 || k = 2 then 0
  else if k = 3 || k = 4 || k = 5 || k = 0xC || k = 0xD || k = 0xE || k = 0xF then 1
  else 2

/-- The slot in 48 bytes (R61). -/
def slotOfBytes (bs : List Byte) : FSlot :=
  { adesc := BitVec.ofNat 32 (numAt bs 0 4), bdesc := BitVec.ofNat 32 (numAt bs 4 4),
    atsc := BitVec.ofNat 32 (numAt bs 8 4), btsc := BitVec.ofNat 32 (numAt bs 12 4),
    cbk := (List.range 16).map fun k => BitVec.ofNat 16 (numAt bs (16 + 2 * k) 2) }

/-- One descriptor passes R64; `isA` for ADESC. -/
def descOk (isA : Bool) (d : Word) : Bool :=
  let k := descKind d
  field d.toNat 18 14 == 0 && k ≤ 0xF && descScf d ≤ 3 && descBlk d ≤ 4 && descSpl d ≤ 1 &&
  !(isA && 9 ≤ k && k ≤ 0xE) &&
  (descBlk d == 0) == (descScf d == 0) &&
  !((k == 1 || k == 2) && (descBlk d != 0 || descScf d != 0)) &&
  !(pointWidth k != 0 && descBlk d == 1) &&
  (!descNz d || k == 6) && (!descLpol d || pointWidth k != 0) &&
  (k != 0 || (descBlk d == 0 && descScf d == 0 && descSpl d == 0 && !descNz d && !descLpol d))

/-- A per-tensor scale that is finite and not zero (R64). -/
def tscOk (w : Word) : Bool := field w.toNat 23 8 != 255 && field w.toNat 0 31 != 0

/-- The checks of R64 on a slot. -/
def slotOk (f : FSlot) : Bool := descOk true f.adesc && descOk false f.bdesc && tscOk f.atsc && tscOk f.btsc

/-! ### Elements and scales -/

/-- The NaN of a reserved code (R58). -/
def reservedFV : FV := .nan (canonNan true)

/-- A signed integer code times 2^e. -/
def intCode (bits x : Nat) (e : Int) : FV :=
  let v := signed bits x
  .fin (decide (v < 0)) v.natAbs e

/-- The value of an element code of a KIND that is not a lattice kind (R47, R50, R54, R55, R58). -/
def elemValue (f : FSlot) (d : Word) (k x : Nat) : FV :=
  if k = 1 then bf16.decode x
  else if k = 2 then fp16.decode x
  else if k = 3 || k = 0xC then e4m3.decode x
  else if k = 4 || k = 0xD then e5m2.decode x
  else if k = 5 || k = 0xE then intCode 8 x 0
  else if k = 6 then (if descNz d && x == 8 then reservedFV else e2m1.decode x)
  else if k = 7 then intCode 4 x 0
  else if k = 8 then
    let v := bf16.decode (f.cbk.getD x 0).toNat
    if v.isNan then reservedFV else v
  else intCode 8 x (-6)

/-- A block scale (R52): none for a UE5M3 zero, whose block contributes +0. -/
def scaleValue (scf x : Nat) : Option FV :=
  if scf = 1 then some (if x = 255 then reservedFV else .fin false 1 ((x : Int) - 127))
  else if scf = 2 then
    if x = 255 then some reservedFV
    else if x = 0 then none
    else if x < 8 then some (.fin false x (-17))
    else some (.fin false (8 + x % 8) (((x / 8 : Nat) : Int) - 18))
  else some (fp32.decode x)

/-- Coordinates y0 to y7 and the coset of a lattice word of width `w` (R56). -/
def latticeCoords (w x : Nat) : List Int × Bool :=
  let low := (List.range 7).map fun j => signed w (field x (w * j + 1) w)
  let par := (low.foldl (fun a y => a + y) 0) % 2
  let y7 := 2 * signed (w - 1) (field x (7 * w + 1) (w - 1)) + par
  (low ++ [y7], bitOf x 0)

/-- The all-ones word of a width (R58). -/
def allOnes (w : Nat) : Nat := 2 ^ (8 * w) - 1

/-- The eight values of a lattice word: halves of 2y + C; NaN for the reserved word (R56, R58). -/
def latticeValues (w x : Nat) (lpol : Bool) : List FV :=
  if lpol && x == allOnes w then List.replicate 8 reservedFV
  else
    let (ys, c) := latticeCoords w x
    ys.map fun y => let v := 2 * y + (if c then 1 else 0); FV.fin (decide (v < 0)) v.natAbs (-1)

/-- Bits `lo` to `lo + n - 1` of a byte string. -/
def bitsAt (bs : List Byte) (lo n : Nat) : Nat :=
  numAt bs (lo / 8) ((lo % 8 + n + 7) / 8) / 2 ^ (lo % 8) % 2 ^ n

/-- Element `i` of packed elements of a KIND (R45, R57). -/
def packedElem (f : FSlot) (d : Word) (bs : List Byte) (i : Nat) : FV :=
  let k := descKind d
  let w := pointWidth k
  if w = 0 then elemValue f d k (bitsAt bs (i * kindBits k) (kindBits k))
  else (latticeValues w (numAt bs (i / 8 * w) w) (descLpol d)).getD (i % 8) (.fin false 0 0)

/-- Element `j` of a BM128 line (R59): absent elements are +0. -/
def sparseElem (f : FSlot) (d : Word) (line : List Byte) (j : Nat) : Option FV :=
  let map := numAt line 0 16
  if bitOf map j then
    let below := ((List.range j).filter fun i => bitOf map i).length
    some (elemValue f d (descKind d) (numAt line (16 + below) 1))
  else none

/-- A malformed BM128 line (R60). -/
def sparseMalformed (line : List Byte) : Bool :=
  let p := ((List.range 128).filter fun i => bitOf (numAt line 0 16) i).length
  112 < p || (line.drop (16 + p)).any (· != 0)

/-- An element with its block scale and its per-tensor scale as factors (R53, R79): none is +0 with no flag. -/
def scaledFactors (v : FV) (scale : Option FV) (tsc : Word) : Option (List FV) :=
  scale.map fun s => [v, s, fp32.decode tsc.toNat]

/-- A NaN as it enters a matrix sum: FP8 NaNs and reserved codes as the canonical FP32 NaN (R79). -/
def product : List FV → Option FV
  | [] => some oneFV
  | v :: vs =>
    match product vs with
    | none => if v.isNan then some v else none
    | some p => if v.isNan then some v else if p.isNan then some p else FV.mul v p

/-- A term of a matrix sum (R79, R80) and the flags it raises: NaN operands propagate in order, ∞ x 0 is
invalid. -/
def termOf (fs : List FV) : FV × Nat :=
  match fs.find? FV.isNan with
  | some v => (v, nanFlags fs)
  | none =>
    match product fs with
    | some p => (p, 0)
    | none => (.nan (canonNan false), fxNV)

/-- ChunkSum (R80): the accumulator pattern after one chunk, and its flags. -/
def chunkSum (acc : Nat) (prods : List (FV × Nat)) : Rounded :=
  let a := fp32.decode acc
  let fx0 := prods.foldl (fun f p => f ||| p.2) 0
  let terms := prods.map (·.1) ++ [a]
  if terms.any FV.isNan then let r := propagate fp32 terms; ⟨r.pat, r.fx ||| fx0⟩
  else if terms.any (fun t => t == .inf false) && terms.any (fun t => t == .inf true) then ⟨0x7FC00000, fxNV ||| fx0⟩
  else
    match terms.find? FV.isInf with
    | some (.inf s) => ⟨fp32.inf s, fx0⟩
    | _ =>
      let mags := terms.filterMap fun t => match t with
        | .fin _ m e => if m = 0 then none else some (expOf m e)
        | _ => none
      match mags with
      | [] => ⟨if terms.all FV.sign then fp32.signBit else 0, fx0⟩
      | x :: xs =>
        let emax := xs.foldl (fun a b => if a < b then b else a) x
        let q := emax - 48
        let parts := terms.filterMap fun t => match t with
          | .fin s m e =>
            if q ≤ e then some (alignTo s m e q, false)
            else
              let sh := (q - e).toNat
              let k : Int := (m / 2 ^ sh : Nat)
              some (if s then -k else k, m % 2 ^ sh != 0)
          | _ => none
        let sum : Int := parts.foldl (fun (a : Int) (p : Int × Bool) => a + p.1) 0
        let nx := if parts.any (·.2) then fxNX else 0
        if sum = 0 then ⟨0, nx ||| fx0⟩
        else
          let r := roundFin fp32 .rne (decide (sum < 0)) sum.natAbs q false
          ⟨r.pat, r.fx ||| nx ||| fx0⟩

/-- Split a list into chunks of `n`. -/
def chunksGo {α : Type} (n : Nat) : Nat → List α → List (List α)
  | 0, _ => []
  | k + 1, xs => if xs.isEmpty then [] else xs.take n :: chunksGo n k (xs.drop n)

/-- The chunked sum of terms onto an accumulator (R79), with all flags. -/
def sumChunks (chunk : Nat) (acc : Nat) (terms : List (FV × Nat)) : Rounded :=
  (chunksGo chunk (terms.length + 1) terms).foldl
    (fun r c => let x := chunkSum r.pat c; ⟨x.pat, x.fx ||| r.fx⟩) ⟨acc, 0⟩

/-! ### Matrix operands (R197 to R200, R209) -/

/-- K of MMA and MMAH for the class of a pair (R197). -/
def classK (c : Nat) : Nat := if c = 0 then 32 else if c = 1 then 64 else 256

/-- The chunk of R79 for a class. -/
def classChunk (c : Nat) : Nat := if c = 0 then 16 else if c = 1 then 32 else 64

/-- Class of a pair: that of the wider operand (R63). -/
def pairClass (f : FSlot) : Nat := min (kindClass (descKind f.adesc)) (kindClass (descKind f.bdesc))

/-- K of a matrix operation (R197, R209). -/
def mmaK (sparse : Bool) (f : FSlot) : Nat := if sparse then 128 else classK (pairClass f)

/-- Chunk of a matrix operation (R197, R209). -/
def mmaChunk (sparse : Bool) (f : FSlot) : Nat := if sparse then 32 else classChunk (pairClass f)

/-- Blocks of a row of K elements; 0 without block scales. -/
def blocksOf (d : Word) (k : Nat) : Nat := if descScf d = 0 then 0 else k / blockSize d

/-- Registers of an A row (R198); where BDESC has KIND 0x00 the K of ADESC's class gives them (log 135). -/
def mmaNA (sparse : Bool) (f : FSlot) : Nat :=
  let k := mmaK sparse f
  k * kindBits (descKind f.adesc) / 32 + (blocksOf f.adesc k * scaleBytes f.adesc + 3) / 4

/-- Bytes of one B column (R200, R209). -/
def mmaCB (sparse : Bool) (f : FSlot) : Nat :=
  if sparse then 128
  else
    let k := mmaK sparse f
    let w := pointWidth (descKind f.bdesc)
    if w = 0 then k * kindBits (descKind f.bdesc) / 8 else k / 8 * w

/-- Bytes of the B tile (R200). -/
def mmaTB (sparse : Bool) (f : FSlot) : Nat :=
  64 * (mmaCB sparse f + blocksOf f.bdesc (mmaK sparse f) * scaleBytes f.bdesc)

/-- ADESC kinds of the dense operations (R197), and of MMAS (R209). -/
def mmaAKind (sparse : Bool) (k : Nat) : Bool :=
  if sparse then k == 3 || k == 4 || k == 5 || k == 0xF else (1 ≤ k && k ≤ 8) || k == 0xF

/-- BDESC kinds of the dense operations (R197), and of MMAS. -/
def mmaBKind (sparse : Bool) (k : Nat) : Bool :=
  if sparse then 0xC ≤ k && k ≤ 0xE else (1 ≤ k && k ≤ 0xB) || k == 0xF

/-- The slot is accepted by a matrix operation (R62, R197, R209). -/
def mmaSlotOk (sparse : Bool) (f : FSlot) : Bool :=
  mmaAKind sparse (descKind f.adesc) && mmaBKind sparse (descKind f.bdesc) && descSpl f.adesc == 0 && descSpl f.bdesc == 0

/-- Block scale `b` in trailing scale bytes that start at `off` (R198, R200). -/
def trailingScale (d : Word) (bs : List Byte) (off b : Nat) : Option FV :=
  if descScf d = 0 then some oneFV else scaleValue (descScf d) (numAt bs (off + b * scaleBytes d) (scaleBytes d))

/-- Element k of an A row of registers, as factors (R198). -/
def aFactors (sparse : Bool) (f : FSlot) (row : List Byte) (k : Nat) : Option (List FV) :=
  let d := f.adesc
  let ne := mmaK sparse f * kindBits (descKind d) / 8
  let sc := if descScf d = 0 then some oneFV else trailingScale d row ne (k / blockSize d)
  scaledFactors (packedElem f d row k) sc f.atsc

/-- Element k of column n of a B tile, as factors (R200): an absent element of a sparse tile enters as +0, as on the dense
tile (R209); none where the block's scale byte is zero (R52). -/
def bFactors (sparse : Bool) (f : FSlot) (tile : List Byte) (n k : Nat) : Option (List FV) :=
  let d := f.bdesc
  let cb := mmaCB sparse f
  let nb := blocksOf d (mmaK sparse f)
  let col := (tile.drop (n * cb)).take cb
  let sc := if descScf d = 0 then some oneFV else trailingScale d tile (64 * cb) (n * nb + k / blockSize d)
  if sparse then scaledFactors ((sparseElem f d col k).getD (.fin false 0 0)) sc f.btsc
  else scaledFactors (packedElem f d col k) sc f.btsc

/-- Term (i, n, k) of R79; +0 where either side contributes none. -/
def mmaTerm (a b : Option (List FV)) : FV × Nat :=
  match a, b with
  | some x, some y => termOf (x ++ y)
  | _, _ => (.fin false 0 0, 0)

/-- The 64 results of one row, and the row's flags (R202). -/
def mmaRow (sparse : Bool) (f : FSlot) (row acc : List Word) (tile : List Byte) : List Word × Nat :=
  let k := mmaK sparse f
  let bytes := regBytes row
  let as := (List.range k).map fun i => aFactors sparse f bytes i
  let outs := (List.range 64).map fun n =>
    sumChunks (mmaChunk sparse f) (acc.getD n 0).toNat
      (as.zipIdx.map fun (a, i) => mmaTerm a (bFactors sparse f tile n i))
  (outs.map fun r => BitVec.ofNat 32 r.pat, outs.foldl (fun x r => x ||| r.fx) 0)

/-! ### Drain and update (R216) -/

/-- A value after rounding, with the flags so far. -/
def fv32 (r : Rounded) : FV := fp32.decode r.pat

/-- 1 - β as a value; NaN and infinities pass as they are. -/
def oneMinus (b : FV) : FV := ((FV.add .rne oneFV (b.flip true)).getD b)

/-- √v + ε rounded once (R216): both in units of 2^-320. -/
def sqrtPlus (v : FV) (eps : Nat) : Rounded :=
  match v with
  | .nan _ => propagate fp32 [v]
  | .inf neg => if neg then invalid fp32 else ⟨fp32.inf false, 0⟩
  | .fin neg m e =>
    let k := 2 ^ (eps + 193)
    if m = 0 then roundFin fp32 .rne false k (-320) false
    else if neg then invalid fp32
    else
      let n := m * 2 ^ (e + 640).toNat
      let r := isqrt n
      roundFin fp32 .rne false (r + k) (-320) (r * r != n)

/-- w - a x t ÷ q of R216, rounded once; NaN order w, a, t, q; an invalid part decides before a NaN of
another part (R72). -/
def stepDiv (w a t q : FV) : Rounded :=
  match FV.mul a t with
  | none => invalid fp32
  | some p =>
    match divFV p q with
    | .bad => invalid fp32
    | .val v fx =>
      if w.isNan || a.isNan || t.isNan || q.isNan then propagate fp32 [w, a, t, q]
      else (match FV.add .rne w (v.flip true) with
        | none => let r := invalid fp32; ⟨r.pat, r.fx ||| fx⟩
        | some x => let r := roundFV fp32 .rne x; ⟨r.pat, r.fx ||| fx⟩)
    | .mag _ _ _ _ =>
      match w, q, FV.mul w q with
      | .nan _, _, _ => propagate fp32 [w]
      | .fin _ _ _, .fin sq mq eq, some wq =>
        (match FV.add .rne wq (p.flip true) with
        | some (.fin s m e) =>
          if m = 0 then ⟨0, 0⟩
          else let (k, x, st) := quotMag m e mq eq; roundFin fp32 .rne (s != sq) k x st
        | _ => invalid fp32)
      | _, _, _ => roundFV fp32 .rne w

/-- w - a x t of R216, rounded once; NaN order w, a, t. -/
def stepMul (w a t : FV) : Rounded :=
  match FV.mul a t with
  | none => invalid fp32
  | some p =>
    if w.isNan || a.isNan || t.isNan then propagate fp32 [w, a, t]
    else match FV.add .rne w (p.flip true) with
      | none => invalid fp32
      | some x => roundFV fp32 .rne x

/-- (1 - β) x t x t + β x S of R216; NaN order β, S, t. -/
def secondMoment (beta st t : FV) : Rounded :=
  match FV.mul beta st, product [oneMinus beta, t, t] with
  | some x, some y =>
    if beta.isNan || st.isNan || t.isNan then propagate fp32 [beta, st, t]
    else (match FV.add .rne x y with
      | none => invalid fp32
      | some v => roundFV fp32 .rne v)
  | _, _ => invalid fp32

/-- One element of HDRN (R216): gradient, state and weight patterns in, state and weight out, flags. -/
def hdrnElem (h : HdrnOp) (g st w : Nat) : Nat × Nat × Nat :=
  let clip := fp32.decode h.clip.toNat
  let scale := fp32.decode h.lossScale.toNat
  let al := fp32.decode h.alpha.toNat
  let be := fp32.decode h.beta.toNat
  let sv := fp32.decode st
  let wv := fp32.decode w
  let t1 := mulFP fp32 .rne (fp32.decode g) clip
  let t2 := divFP fp32 .rne (fv32 t1) scale
  let t := fv32 t2
  let fx := t1.fx ||| t2.fx
  if h.fn = 0 then
    let r := stepMul wv al t
    (st, r.pat, fx ||| r.fx)
  else if h.fn = 1 then
    let m := fmaFP fp32 .rne be sv t
    let r := stepMul wv al (fv32 m)
    (m.pat, r.pat, fx ||| m.fx ||| r.fx)
  else
    let v := secondMoment be sv t
    let q := sqrtPlus (fv32 v) h.eps
    let r := stepDiv wv al t (fv32 q)
    (v.pat, r.pat, fx ||| v.fx ||| q.fx ||| r.fx)

/-! ### Pilot (R218 to R223) -/

/-- Bytes of `cols` columns of `k` elements under a descriptor (R62, R200, R218). -/
def columnsBytes (d : Word) (cols k : Nat) : Nat :=
  let w := pointWidth (descKind d)
  let eb := if w = 0 then k * kindBits (descKind d) / 8 else k / 8 * w
  cols * (eb + blocksOf d k * scaleBytes d)

/-- Element k of column `c` of `cols` columns of `len` elements (R62, R200, R218), as factors. -/
def columnFactors (f : FSlot) (d : Word) (tsc : Word) (bs : List Byte) (cols len c k : Nat) : Option (List FV) :=
  let w := pointWidth (descKind d)
  let eb := if w = 0 then len * kindBits (descKind d) / 8 else len / 8 * w
  let nb := blocksOf d len
  let ss := scaleBytes d
  if descScf d = 0 then scaledFactors (packedElem f d ((bs.drop (c * eb)).take eb) k) (some oneFV) tsc
  else
    let bl := blockSize d
    if descSpl d = 0 then
      scaledFactors (packedElem f d ((bs.drop (c * eb)).take eb) k)
        (scaleValue (descScf d) (numAt bs (cols * eb + (c * nb + k / bl) * ss) ss)) tsc
    else
      let blockLen := eb / nb
      let at_ := c * (nb * (ss + blockLen)) + k / bl * (ss + blockLen)
      scaledFactors (packedElem f d ((bs.drop (at_ + ss)).take blockLen) (k % bl))
        (scaleValue (descScf d) (numAt bs at_ ss)) tsc

/-- Accepted kinds of P1, and of P2 and the shadow weights (R218, R222). -/
def pilotKind (isB : Bool) (k : Nat) : Bool :=
  (1 ≤ k && k ≤ 8) || k == 0xF || (isB && 9 ≤ k && k ≤ 0xB)

/-- One column's score: x against the column, in chunks of 16 (R219, R223). -/
def dotColumn (x : List FV) (col : Nat → Option (List FV)) : Rounded :=
  sumChunks 16 0 (x.zipIdx.map fun (v, k) => mmaTerm (some [v]) (col k))

/-- Rank key order of R219: greater first, NaN below -∞, ties to the lower index. -/
def rankBefore (a b : Nat × FV) : Bool :=
  if a.2.isNan then (b.2.isNan && a.1 < b.1)
  else if b.2.isNan then true
  else match FV.cmp a.2 b.2 with
    | .gt => true
    | .lt => false
    | .eq => a.1 < b.1

/-- a > b as FP32 patterns, false for NaN, no flag (R219, R223). -/
def gtFP (a b : FV) : Bool := !a.isNan && !b.isNan && FV.cmp a b == .gt

/-- a ≤ b, false for NaN. -/
def leFP (a b : FV) : Bool := !a.isNan && !b.isNan && FV.cmp a b != .gt

/-- BF16 values of x (R218). -/
def bf16List (bs : List Byte) (n : Nat) : List FV := (List.range n).map fun i => bf16.decode (numAt bs (2 * i) 2)

/-- The rows that PILOT selects, ascending, and its flags (R219). -/
def pilotSelect (p : PilotOp) (x p1 p2 : List Byte) : List Nat × Nat :=
  let xs := bf16List x p.dm
  let us := (List.range p.rk).map fun r => dotColumn xs (columnFactors p.slot p.slot.adesc p.slot.atsc p1 p.rk p.dm r)
  let uv := us.map fv32
  let ss := (List.range p.n).map fun j => dotColumn uv (columnFactors p.slot p.slot.bdesc p.slot.btsc p2 p.n p.rk j)
  let fx := (us ++ ss).foldl (fun a r => a ||| r.fx) 0
  let scored := ss.zipIdx.map fun (r, j) => (j, fv32 r)
  let sel :=
    if p.top then ((sortBy (fun a b => rankBefore a b) scored).take p.topk).map (·.1)
    else (scored.filter fun v => gtFP v.2 (fp32.decode p.tau.toNat)).map (·.1)
  ((List.range p.n).filter fun j => sel.contains j, fx)

/-- Bytes of a manifest of n rows: bitmap, index list, span (R220). -/
def manMB (n : Nat) : Nat := 16 * ((n + 127) / 128)
def manIL (n : Nat) : Nat := 16 * ((2 * n + 15) / 16)
def manMS (n : Nat) : Nat := manMB n + manIL n + 16

/-- The manifest that lists these rows (R220). -/
def manifestBytes (n : Nat) (rows : List Nat) : List Byte :=
  let map := rows.foldl (fun m j => m + 2 ^ j) 0
  leBytes (manMB n) map ++
  ((rows.flatMap fun j => leBytes 2 j) ++ List.replicate (manIL n - 2 * rows.length) 0) ++
  leBytes 4 rows.length ++ List.replicate 12 0

/-- Σ in ascending order with RNE (R223), and its flags. -/
def sumRows (vs : List FV) : Rounded :=
  vs.foldl (fun r v => let x := addFP fp32 .rne (fv32 r) v; ⟨x.pat, x.fx ||| r.fx⟩) ⟨0, 0⟩

/-- The cut of R223: the least q whose rest is within the bound, and the flags of the sums formed. -/
def cutGo (act : List (Nat × FV)) (ord : List Nat) (bound : FV) : Nat → Nat → Nat → Nat × Nat
  | 0, q, fx => (q, fx)
  | n + 1, q, fx =>
    let rest := sumRows ((act.filter fun a => !((ord.take q).contains a.1)).map (·.2))
    if leFP (fv32 rest) bound || ord.length ≤ q then (q, fx ||| rest.fx)
    else cutGo act ord bound n (q + 1) (fx ||| rest.fx)

/-- The replay list of MCHK, the replay flag, and its flags (R223). -/
def mchkSelect (m : MchkOp) (x map w : List Byte) : List Nat × Bool × Nat :=
  let xs := bf16List x m.dm
  let missed := (List.range m.n).filter fun j => !bitOf (numAt map (j / 8) 1) (j % 8)
  let gs := missed.map fun j => (j, dotColumn xs (columnFactors m.slot m.slot.bdesc m.slot.btsc w m.n m.dm j))
  let fx0 := gs.foldl (fun a g => a ||| g.2.fx) 0
  let act := (gs.map fun g => (g.1, fv32 g.2)).filter fun g => gtFP g.2 (fp32.decode m.theta.toNat)
  let tot := sumRows (act.map (·.2))
  let bound := mulFP fp32 .rne (fp32.decode m.eps.toNat) (fp32.decode m.h.toNat)
  let fx1 := fx0 ||| tot.fx ||| bound.fx
  if gtFP (fv32 tot) (fv32 bound) then
    let ord := (sortBy (fun a b => rankBefore a b) act).map (·.1)
    let (q, fx2) := cutGo act ord (fv32 bound) (ord.length + 1) 1 fx1
    ((List.range m.n).filter fun j => (ord.take q).contains j, true, fx2)
  else ([], false, fx1)

/-! ### Nearest lattice point (R82 to R84), over a common denominator -/

/-- Nearest integer to n ÷ d, ties away from zero (R67). -/
def roundHalfAway (n : Int) (d : Nat) : Int :=
  let a := (2 * n.natAbs + d) / (2 * d)
  if n < 0 then -(a : Int) else a

/-- Limits of a box, where one applies. -/
def clampBox (box : Option (Int × Int)) (x : Int) : Int :=
  match box with
  | none => x
  | some (lo, hi) => if x < lo then lo else if hi < x then hi else x

/-- The alternative of R83 for a coordinate z ÷ d rounded to f. -/
def altCoord (box : Option (Int × Int)) (z : Int) (d : Nat) (f : Int) : Int :=
  let fd := f * (d : Int)
  let a := if fd < z then f + 1 else if z < fd then f - 1 else if f = 0 then 1 else if 0 < f then f - 1 else f + 1
  match box with
  | none => a
  | some (lo, hi) =>
    let a' := if hi < a then f - 1 else a
    if a' < lo then f + 1 else a'

/-- Square of z - f x d. -/
def sqDiff (z : Int) (d : Nat) (f : Int) : Int := (z - f * (d : Int)) * (z - f * (d : Int))

/-- The least cost, lowest index first: index and cost. -/
def leastCost : List (Nat × Int) → Option (Nat × Int)
  | [] => none
  | c :: cs =>
    match leastCost cs with
    | none => some c
    | some b => if b.2 < c.2 then some b else some c

/-- CosetRound (R83) of coordinates z ÷ d. -/
def cosetRound (box : Option (Int × Int)) (zs : List Int) (d : Nat) : List Int :=
  let fs := zs.map fun z => clampBox box (roundHalfAway z d)
  if (fs.foldl (· + ·) 0) % 2 = 0 then fs
  else
    let alts := (zs.zip fs).map fun (z, f) => altCoord box z d f
    let costs := ((zs.zip fs).zip alts).zipIdx.map fun (((z, f), a), i) => (i, sqDiff z d a - sqDiff z d f)
    match leastCost costs with
    | none => fs
    | some (j, _) => fs.set j (alts.getD j 0)

/-- Search (R84): the point's y and its coset; coordinates are t ÷ d with d even. -/
def latticeSearch (box : Option (Int × Int)) (ts : List Int) (d : Nat) : List Int × Bool :=
  let half : Int := ((d / 2 : Nat) : Int)
  let zs := ts.map (· - half)
  let ya := cosetRound box ts d
  let yb := cosetRound box zs d
  let da := (ts.zip ya).foldl (fun s p => s + sqDiff p.1 d p.2) 0
  let db := (zs.zip yb).foldl (fun s p => s + sqDiff p.1 d p.2) 0
  if db < da then (yb, true) else (ya, false)

/-- Pack (R56). -/
def packLattice (w : Nat) (ys : List Int) (c : Bool) : Nat :=
  let low := (List.range 7).foldl (fun a j => a + wrap w (ys.getD j 0) * 2 ^ (w * j + 1)) (if c then 1 else 0)
  low + wrap (w - 1) (ys.getD 7 0 / 2) * 2 ^ (7 * w + 1)

/-- A coordinate of NearestE8: a fraction over the common denominator, an infinity, or NaN. -/
inductive Coord where
  | frac (n : Int)
  | inf (neg : Bool)
  | nan
  deriving DecidableEq, Repr

/-- NearestE8 (R84) over the common even denominator `d`: the word and its flags. -/
def nearestE8 (ts : List Coord) (d w : Nat) (pol : Bool) : Nat × Nat :=
  let nv := if ts.any (· == .nan) then fxNV else 0
  if nv ≠ 0 ∧ pol then (allOnes w, fxNV + fxLO)
  else
    let clean := ts.map fun t => if t = .nan then Coord.frac 0 else t
    let lo : Int := -(2 : Int) ^ (w - 1)
    let hi : Int := (2 : Int) ^ (w - 1) - 1
    let far := clean.any fun t => match t with
      | .inf _ => true
      | _ => false
    let ints := clean.map fun t => match t with
      | .frac n => n
      | _ => 0
    let (y, c) := latticeSearch none ints d
    let outside := far || y.any (fun v => v < lo || hi < v) || (pol && c && y.all (· == -1))
    if !outside then (packLattice w y c, nv)
    else if pol then (allOnes w, fxNV + fxLO)
    else
      let loD := lo * (d : Int)
      let hiD := hi * (d : Int) + ((d / 2 : Nat) : Int)
      let clamped := clean.map fun t => match t with
        | .inf neg => if neg then loD else hiD
        | .frac n => if n < loD then loD else if hiD < n then hiD else n
        | .nan => 0
      let (y2, c2) := latticeSearch (some (lo, hi)) clamped d
      (packLattice w y2 c2, nv ||| fxLO)

/-- QL8 (R157) on up to eight inputs: each x ÷ (σ x BTSC), missing inputs +0. -/
def ql8Word (xs : List FV) (sigma btsc : FV) (w : Nat) (pol : Bool) : Nat × Nat :=
  let den := FV.mul sigma btsc
  let quot := xs.map fun x =>
    match den with
    | none => (Coord.nan, x, fxNV)
    | some s =>
      if x.isNan || s.isNan then (Coord.nan, x, nanFlags [x, sigma])
      else match divFV x s with
        | .bad => (.nan, x, fxNV)
        | .val (.inf g) fx => (.inf g, x, fx)
        | .val _ fx => (.frac 0, x, fx)
        | .mag _ _ _ _ => (.frac 1, x, 0)
  -- common denominator: x = n x 2^q, s = k x 2^f, so x ÷ s = n x 2^(q - f) ÷ k
  let (k, f) := match den with
    | some (.fin _ m e) => if m = 0 then (1, 0) else (m, e)
    | _ => (1, 0)
  let neg := match den with
    | some v => v.sign
    | none => false
  let emin := xs.foldl (fun a x => match x with
    | .fin _ m e => if m != 0 && e - f < a then e - f else a
    | _ => a) 0
  let d := 2 * k * 2 ^ (-emin).toNat
  let ts := quot.map fun (c, x, _) =>
    match c, x with
    | .frac 1, .fin s m e => Coord.frac (let v : Int := (2 * m * 2 ^ (e - f - emin).toNat : Nat); if s != neg then -v else v)
    | c, _ => c
  let fx := quot.foldl (fun a q => a ||| q.2.2) 0
  let (word, fl) := nearestE8 (ts ++ List.replicate (8 - ts.length) (.frac 0)) d w pol
  (word, fx ||| fl)

end Sys2Proof.Machine
end

