-- ==== Sys2Proof/Config.lean ====
section
/-!
DEFINITION. The free values of the Kloalper: what the manual leaves without a value while the machine
goes on. Each is an opaque function without a body, applied to a counter that a step reads and
advances, so that nothing can be proved about the number it answers (assumption log 3, 8, 15, 16, 18, 107, 108, 117 and 128).
-/
namespace Sys2Proof.Config

/-- A v-register of a newly placed thread (R19, R21): unspecified. Log 3. -/
opaque freeReg : Nat → Word

/-- The module time counter as RDCLK reads it and as records carry it (R250): it depends on timing. Log 8. -/
opaque freeClock : Nat → Word64

/-- Cycles that PERFCNT counted while the group waited on the scoreboard (R249, R250). Log 8. -/
opaque freeWaited : Nat → Word64

/-- The temperatures, the power and the clock that TELEM replies (R449), byte by byte. Log 16. -/
opaque freeTelemetry : Nat → Byte

/-- Whether a spare row is left for a post-package repair (R449). Log 16. -/
opaque freeSpareRow : Nat → Bool

/-- Whether a byte of the destination of a failed collective is another than it was (R246). Log 15. -/
opaque freeMix : Nat → Bool

/-- The byte that a failed collective left in its destination (R246), that a save left in its slot (R379), or that a shadow page holds
afterwards (R443). Log 15, 108. -/
opaque freeByte : Nat → Byte

/-- Which of several statuses a record that fails in several ways is refused with (R374). Log 18. -/
opaque freeRefusal : Nat → Nat

/-- The ECC syndrome, or the pair of residues, in STAT of an error record (R429, R442), and which line of a tile a disturbance hit (R210). Log 107, 117. -/
opaque freeStat : Nat → Word64

/-- The physical address in ADDR of a link event whose packet belongs to no operation of the model (R429). Log 128. -/
opaque freeAddr : Nat → Word64

end Sys2Proof.Config
end

