-- ==== Sys2Proof/WellFormed.lean ====
section
/-!
DEFINITION. Which instructions are well formed: the fates of R97 that one word decides without its
hints, its slot and its launch (a destination code 96 to 127, a misaligned direct name, an illegal carry
predicate, an operand code outside the range of its layout). An instruction that is not well formed
still decodes; when it issues it raises the illegal-instruction trap (R97), or the illegal-hint trap
where the word is a hint (R101).
-/
namespace Sys2Proof

/-- Why an instruction is not well formed (R97, R101). -/
inductive IllFormed where
  /-- A destination code 96 to 127 (R26). -/
  | destCode
  /-- A direct name that breaks the alignment of its width, or a 128-bit s-register operand (R24, R26). -/
  | misaligned
  /-- IADC or ISBB with G = 0 (R90). -/
  | carryPredicate
  /-- An operand code or a register number outside the range of its layout (R90, R93, R94, R97). -/
  | layoutRange
  /-- BAR, BARA or BARW with a number above 15 (R235). -/
  | barrierNumber
  /-- An unassigned special register, or a write to one that is read-only (R248). -/
  | specialRegister
  /-- MOD ARITH with SAT = 3 (R99); it raises the illegal-hint trap (R101). -/
  | hintPayload
  deriving DecidableEq, Repr

/-- Registers that an operand of this size spans (R167, R170). -/
def Size.regs : Size → Nat
  | .b => 1
  | .h => 1
  | .w => 1
  | .d => 2
  | .q => 4

/-- Registers that the DATA operand of an atomic spans: CAS holds the compare value and the new value (R92, R176). -/
def atomRegs (o : AtomOp) (wide : Bool) : Nat :=
  (if o = .cas then 2 else 1) * (if wide then 2 else 1)

/-- As `atomRegs`, for ATOML (R180). -/
def LAtomOp.regs : LAtomOp → Nat
  | .op o => atomRegs o false
  | .fadd => 1

/-- A direct name of `w` registers is a multiple of `w`; an index code is checked when it is used (R24, R28). -/
def alignOk (w : Nat) (c : BitVec 7) : Bool :=
  92 ≤ c.toNat || c.toNat % w == 0

/-- A destination of `w` registers: no s-register code, and aligned (R24, R26). -/
def destOk (w : Nat) (c : BitVec 7) : Bool :=
  c.toNat < 96 && alignOk w c

/-- A source of `w` registers: aligned, and no s-register code where it is 128 bits wide (R24, R26). -/
def srcOk (w : Nat) (c : BitVec 7) : Bool :=
  if c.toNat < 96 then alignOk w c else w ≤ 2

/-- A carry predicate is one of p1 to p7 (R90). -/
def carryOk (p : BitVec 3) : Bool :=
  p.toNat != 0

/-- A payload base or an eight-register destination: 0, 8, up to 80 (R94, R158, R228). -/
def payloadOk (c : BitVec 7) : Bool :=
  c.toNat % 8 == 0 && c.toNat ≤ 80

/-- The special registers of R249. -/
def readableSr (r : BitVec 12) : Bool :=
  [0x000, 0x001, 0x002, 0x003, 0x004, 0x005, 0x006, 0x007, 0x010, 0x011, 0x012, 0x013, 0x014, 0x015,
   0x020, 0x021, 0x022, 0x030].contains r.toNat

/-- The special registers that WRSR may write (R249). -/
def writableSr (r : BitVec 12) : Bool :=
  [0x020, 0x021, 0x022].contains r.toNat

/-- The first check of the list that fails. -/
def firstFailing : List (Bool × IllFormed) → Option IllFormed
  | [] => none
  | (ok, e) :: rest => if ok then firstFailing rest else some e

/-- The first check of R97 or R101 that the instruction fails, if any. -/
def Instr.illFormed : Instr → Option IllFormed
  | .iadd d _ _ _ _ => firstFailing [(decide (destOk 1 d), .destCode)]
  | .isub d _ _ _ _ => firstFailing [(decide (destOk 1 d), .destCode)]
  | .iadc d _ _ _ c => firstFailing [(decide (destOk 1 d), .destCode), (decide (carryOk c), .carryPredicate)]
  | .isbb d _ _ _ c => firstFailing [(decide (destOk 1 d), .destCode), (decide (carryOk c), .carryPredicate)]
  | .imul d _ _ _ _ => firstFailing [(decide (destOk 1 d), .destCode)]
  | .imulhS d _ _ _ _ => firstFailing [(decide (destOk 1 d), .destCode)]
  | .imulhU d _ _ _ _ => firstFailing [(decide (destOk 1 d), .destCode)]
  | .imad d _ _ _ _ => firstFailing [(decide (destOk 1 d), .destCode)]
  | .and d _ _ _ _ => firstFailing [(decide (destOk 1 d), .destCode)]
  | .or d _ _ _ _ => firstFailing [(decide (destOk 1 d), .destCode)]
  | .xor d _ _ _ _ => firstFailing [(decide (destOk 1 d), .destCode)]
  | .shl d _ _ _ _ => firstFailing [(decide (destOk 1 d), .destCode)]
  | .shr d _ _ _ _ => firstFailing [(decide (destOk 1 d), .destCode)]
  | .sar d _ _ _ _ => firstFailing [(decide (destOk 1 d), .destCode)]
  | .rotl d _ _ _ _ => firstFailing [(decide (destOk 1 d), .destCode)]
  | .bfeS d _ _ _ _ => firstFailing [(decide (destOk 1 d), .destCode)]
  | .bfeU d _ _ _ _ => firstFailing [(decide (destOk 1 d), .destCode)]
  | .bfi d _ _ _ _ => firstFailing [(decide (destOk 1 d), .destCode)]
  | .icmp _ _ _ _ _ _ => none
  | .sel d _ _ _ _ => firstFailing [(decide (destOk 1 d), .destCode)]
  | .bysel d _ _ _ _ => firstFailing [(decide (destOk 1 d), .destCode)]
  | .iaddImm d _ _ => firstFailing [(decide (destOk 1 d), .destCode)]
  | .imulImm d _ _ => firstFailing [(decide (destOk 1 d), .destCode)]
  | .andImm d _ _ => firstFailing [(decide (destOk 1 d), .destCode)]
  | .orImm d _ _ => firstFailing [(decide (destOk 1 d), .destCode)]
  | .xorImm d _ _ => firstFailing [(decide (destOk 1 d), .destCode)]
  | .shlImm d _ _ => firstFailing [(decide (destOk 1 d), .destCode)]
  | .shrImm d _ _ => firstFailing [(decide (destOk 1 d), .destCode)]
  | .sarImm d _ _ => firstFailing [(decide (destOk 1 d), .destCode)]
  | .rotlImm d _ _ => firstFailing [(decide (destOk 1 d), .destCode)]
  | .movi d _ => firstFailing [(decide (destOk 1 d), .destCode)]
  | .seta _ _ => none
  | .aadd _ _ => none
  | .mov d _ _ _ => firstFailing [(decide (destOk 1 d), .destCode)]
  | .not d _ _ _ => firstFailing [(decide (destOk 1 d), .destCode)]
  | .iabs d _ _ _ => firstFailing [(decide (destOk 1 d), .destCode)]
  | .popc d _ _ _ => firstFailing [(decide (destOk 1 d), .destCode)]
  | .clz d _ _ _ => firstFailing [(decide (destOk 1 d), .destCode)]
  | .brev d _ _ _ => firstFailing [(decide (destOk 1 d), .destCode)]
  | .fdiv d _ _ _ _ => firstFailing [(decide (destOk 1 d), .destCode)]
  | .idivS d _ _ _ _ => firstFailing [(decide (destOk 1 d), .destCode)]
  | .idivU d _ _ _ _ => firstFailing [(decide (destOk 1 d), .destCode)]
  | .iremS d _ _ _ _ => firstFailing [(decide (destOk 1 d), .destCode)]
  | .iremU d _ _ _ _ => firstFailing [(decide (destOk 1 d), .destCode)]
  | .iminS d _ _ _ => firstFailing [(decide (destOk 1 d), .destCode)]
  | .iminU d _ _ _ => firstFailing [(decide (destOk 1 d), .destCode)]
  | .imaxS d _ _ _ => firstFailing [(decide (destOk 1 d), .destCode)]
  | .imaxU d _ _ _ => firstFailing [(decide (destOk 1 d), .destCode)]
  | .fadd d _ _ _ _ => firstFailing [(decide (destOk 1 d), .destCode)]
  | .fsub d _ _ _ _ => firstFailing [(decide (destOk 1 d), .destCode)]
  | .fmul d _ _ _ _ => firstFailing [(decide (destOk 1 d), .destCode)]
  | .ffma d _ _ _ _ => firstFailing [(decide (destOk 1 d), .destCode)]
  | .ffms d _ _ _ _ => firstFailing [(decide (destOk 1 d), .destCode)]
  | .fcmp _ _ _ _ _ _ => none
  | .faddImm d _ _ => firstFailing [(decide (destOk 1 d), .destCode)]
  | .fmulImm d _ _ => firstFailing [(decide (destOk 1 d), .destCode)]
  | .ffmaImm d _ _ => firstFailing [(decide (destOk 1 d), .destCode)]
  | .fabs d _ _ _ => firstFailing [(decide (destOk 1 d), .destCode)]
  | .fneg d _ _ _ => firstFailing [(decide (destOk 1 d), .destCode)]
  | .fclass d _ _ _ => firstFailing [(decide (destOk 1 d), .destCode)]
  | .fmin d _ _ _ => firstFailing [(decide (destOk 1 d), .destCode)]
  | .fmax d _ _ _ => firstFailing [(decide (destOk 1 d), .destCode)]
  | .fsqrt d _ _ _ _ => firstFailing [(decide (destOk 1 d), .destCode)]
  | .frcp d _ _ _ _ => firstFailing [(decide (destOk 1 d), .destCode)]
  | .frsq d _ _ _ _ => firstFailing [(decide (destOk 1 d), .destCode)]
  | .fexp2 d _ _ _ _ => firstFailing [(decide (destOk 1 d), .destCode)]
  | .flog2 d _ _ _ _ => firstFailing [(decide (destOk 1 d), .destCode)]
  | .fsin d _ _ _ _ => firstFailing [(decide (destOk 1 d), .destCode)]
  | .fcos d _ _ _ _ => firstFailing [(decide (destOk 1 d), .destCode)]
  | .ftanh d _ _ _ _ => firstFailing [(decide (destOk 1 d), .destCode)]
  | .pkfmaH d _ _ _ _ => firstFailing [(decide (destOk 1 d), .destCode)]
  | .pkfmaB d _ _ _ _ => firstFailing [(decide (destOk 1 d), .destCode)]
  | .pkaddH d _ _ _ => firstFailing [(decide (destOk 1 d), .destCode)]
  | .pkmulH d _ _ _ => firstFailing [(decide (destOk 1 d), .destCode)]
  | .pkminH d _ _ _ => firstFailing [(decide (destOk 1 d), .destCode)]
  | .pkmaxH d _ _ _ => firstFailing [(decide (destOk 1 d), .destCode)]
  | .pksubH d _ _ _ => firstFailing [(decide (destOk 1 d), .destCode)]
  | .pkaddB d _ _ _ => firstFailing [(decide (destOk 1 d), .destCode)]
  | .pkmulB d _ _ _ => firstFailing [(decide (destOk 1 d), .destCode)]
  | .pkminB d _ _ _ => firstFailing [(decide (destOk 1 d), .destCode)]
  | .pkmaxB d _ _ _ => firstFailing [(decide (destOk 1 d), .destCode)]
  | .pksubB d _ _ _ => firstFailing [(decide (destOk 1 d), .destCode)]
  | .cvtS32F32 d _ _ _ => firstFailing [(decide (destOk 1 d), .destCode)]
  | .cvtU32F32 d _ _ _ => firstFailing [(decide (destOk 1 d), .destCode)]
  | .cvtF32S32 d _ _ _ => firstFailing [(decide (destOk 1 d), .destCode)]
  | .cvtF32U32 d _ _ _ => firstFailing [(decide (destOk 1 d), .destCode)]
  | .cvtF16F32 d _ _ _ => firstFailing [(decide (destOk 1 d), .destCode)]
  | .cvtF32F16 d _ _ _ => firstFailing [(decide (destOk 1 d), .destCode)]
  | .cvtBf16F32 d _ _ _ => firstFailing [(decide (destOk 1 d), .destCode)]
  | .cvtF32Bf16 d _ _ _ => firstFailing [(decide (destOk 1 d), .destCode)]
  | .cvtF32F64 d a _ _ => firstFailing [(decide (destOk 1 d), .destCode), (decide (srcOk 2 a), .misaligned)]
  | .cvtF64F32 d _ _ _ => firstFailing [(decide (destOk 1 d), .destCode), (decide (alignOk 2 d), .misaligned)]
  | .unpk d _ _ _ => firstFailing [(decide (destOk 1 d), .destCode), (decide (alignOk 2 d), .misaligned)]
  | .cvtn d a _ _ _ _ => firstFailing [(decide (destOk 1 d), .destCode), (decide (destOk 1 a), .layoutRange)]
  | .cvtw d _ _ _ _ _ => firstFailing [(decide (destOk 1 d), .destCode)]
  | .ql8 d r _ _ _ _ _ => firstFailing [(decide (destOk 1 d), .destCode), (decide (r.toNat ≤ 10), .layoutRange)]
  | .dl8 d _ _ _ _ _ => firstFailing [(decide (payloadOk d), .layoutRange)]
  | .xl8 d _ _ _ _ _ => firstFailing [(decide (destOk 1 d), .destCode)]
  | .lxi d _ _ _ _ => firstFailing [(decide (destOk 1 d), .destCode)]
  | .lxm d _ _ _ _ => firstFailing [(decide (destOk 1 d), .destCode)]
  | .lxr d _ _ _ _ => firstFailing [(decide (destOk 1 d), .destCode)]
  | .lxs d _ _ _ _ => firstFailing [(decide (destOk 1 d), .destCode)]
  | .lmask d _ _ _ => firstFailing [(decide (destOk 1 d), .destCode)]
  | .lpeer d _ _ _ => firstFailing [(decide (destOk 1 d), .destCode)]
  | .compact d _ _ _ => firstFailing [(decide (destOk 1 d), .destCode)]
  | .lfirst d _ _ _ => firstFailing [(decide (destOk 1 d), .destCode)]
  | .lfoldIadd d _ _ _ => firstFailing [(decide (destOk 1 d), .destCode)]
  | .lfoldIminS d _ _ _ => firstFailing [(decide (destOk 1 d), .destCode)]
  | .lfoldImaxS d _ _ _ => firstFailing [(decide (destOk 1 d), .destCode)]
  | .lfoldAnd d _ _ _ => firstFailing [(decide (destOk 1 d), .destCode)]
  | .lfoldOr d _ _ _ => firstFailing [(decide (destOk 1 d), .destCode)]
  | .lfoldXor d _ _ _ => firstFailing [(decide (destOk 1 d), .destCode)]
  | .lfoldFadd d _ _ _ => firstFailing [(decide (destOk 1 d), .destCode)]
  | .lfoldFmax d _ _ _ => firstFailing [(decide (destOk 1 d), .destCode)]
  | .pand _ _ _ _ => none
  | .por _ _ _ _ => none
  | .pxor _ _ _ _ => none
  | .pnot _ _ _ => none
  | .pmov _ _ _ => none
  | .lany _ _ _ => none
  | .lall _ _ _ => none
  | .lagree _ _ _ => none
  | .lodd _ _ _ => none
  | .rdfx d _ _ => firstFailing [(decide (destOk 1 d), .destCode)]
  | .wrfx _ _ => none
  | .clrfx _ _ => none
  | .sadd _ _ _ => none
  | .ssub _ _ _ => none
  | .smul _ _ _ => none
  | .sand _ _ _ => none
  | .sor _ _ _ => none
  | .sxor _ _ _ => none
  | .sshl _ _ _ => none
  | .sshr _ _ _ => none
  | .ssar _ _ _ => none
  | .smov _ _ => none
  | .scmp _ _ _ _ => none
  | .ssel _ _ _ => none
  | .saddImm _ _ _ => none
  | .sandImm _ _ _ => none
  | .sorImm _ _ _ => none
  | .sxorImm _ _ _ => none
  | .sshlImm _ _ _ => none
  | .sshrImm _ _ _ => none
  | .ssarImm _ _ _ => none
  | .smovi _ _ => none
  | .sldc _ _ => none
  | .sld _ _ _ => none
  | .sst _ _ _ => none
  | .ldB d _ _ _ _ _ => firstFailing [(decide (destOk 1 d), .destCode)]
  | .ldH d _ _ _ _ _ => firstFailing [(decide (destOk 1 d), .destCode)]
  | .ldW d _ _ _ _ _ => firstFailing [(decide (destOk 1 d), .destCode)]
  | .ldD d _ _ _ _ _ => firstFailing [(decide (destOk 1 d), .destCode), (decide (alignOk 2 d), .misaligned)]
  | .ldQ d _ _ _ _ _ => firstFailing [(decide (destOk 1 d), .destCode), (decide (alignOk 4 d), .misaligned)]
  | .stB _ _ _ _ _ _ => none
  | .stH _ _ _ _ _ _ => none
  | .stW _ _ _ _ _ _ => none
  | .stD d _ _ _ _ _ => firstFailing [(decide (srcOk 2 d), .misaligned)]
  | .stQ d _ _ _ _ _ => firstFailing [(decide (srcOk 4 d), .misaligned)]
  | .ldl d _ _ _ z => firstFailing [(decide (destOk 1 d), .destCode), (decide (alignOk z.regs d), .misaligned)]
  | .ldt d _ _ _ => firstFailing [(decide (destOk 1 d), .destCode), (decide (alignOk 4 d), .misaligned)]
  | .stl d _ _ _ z => firstFailing [(decide (srcOk z.regs d), .misaligned)]
  | .atom d c _ _ _ _ _ => firstFailing [(decide (destOk 1 d), .destCode), (decide (alignOk (atomRegs c false) d), .misaligned)]
  | .atomFadd d _ _ _ _ _ => firstFailing [(decide (destOk 1 d), .destCode)]
  | .atomD d c _ _ _ _ _ => firstFailing [(decide (destOk 1 d), .destCode), (decide (alignOk (atomRegs c true) d), .misaligned)]
  | .fxadd d _ _ _ _ _ => firstFailing [(decide (destOk 1 d), .destCode), (decide (alignOk 2 d), .misaligned)]
  | .atoml d _ _ _ c => firstFailing [(decide (destOk 1 d), .destCode), (decide (alignOk c.regs d), .misaligned)]
  | .pref _ _ _ => none
  | .zfill _ _ _ _ _ => none
  | .mma c _ _ _ _ _ => firstFailing [(decide (c.toNat % 4 = 0), .layoutRange)]
  | .mmah _ _ _ _ _ _ => none
  | .mmas c _ _ _ _ _ => firstFailing [(decide (c.toNat % 4 = 0), .layoutRange)]
  | .hldReg _ a _ => firstFailing [(decide (a.toNat % 4 = 0), .layoutRange)]
  | .hstReg _ a _ => firstFailing [(decide (a.toNat % 4 = 0), .layoutRange)]
  | .hldScratch _ _ _ => none
  | .hstScratch _ _ _ => none
  | .hzero _ _ => none
  | .hdrn _ _ _ _ => none
  | .hdrnMom _ _ _ _ => none
  | .hdrnSq _ _ _ _ => none
  | .pilotGt a _ _ _ => firstFailing [(decide (a.toNat % 2 = 0), .layoutRange)]
  | .pilotTop a _ _ _ => firstFailing [(decide (a.toNat % 2 = 0), .layoutRange)]
  | .mchk a _ _ _ => firstFailing [(decide (a.toNat % 4 = 0), .layoutRange)]
  | .vset _ _ _ _ => none
  | .vbase _ _ _ _ => none
  | .vinv _ _ => none
  | .vqry _ _ _ _ => none
  | .cpy _ _ _ _ _ => none
  | .cpym _ _ _ _ => none
  | .cpyo _ _ _ => none
  | .cpyrw _ _ _ _ => none
  | .csig _ _ _ => none
  | .spawn d _ b _ => firstFailing [(decide (payloadOk d), .layoutRange), (decide (97 ≤ b.toNat), .layoutRange)]
  | .park d _ b _ => firstFailing [(decide (payloadOk d), .layoutRange), (decide (97 ≤ b.toNat), .layoutRange)]
  | .bflush _ _ => none
  | .cvoy a _ _ _ => firstFailing [(decide (a.toNat % 4 = 0), .layoutRange)]
  | .cvqry _ _ _ => none
  | .bra _ _ _ => none
  | .call _ _ _ => none
  | .jmp _ => none
  | .callr _ => none
  | .nop => none
  | .ret => none
  | .exit => none
  | .yield => none
  | .bkpt _ => none
  | .trap _ => none
  | .meld _ _ => none
  | .mset _ _ => none
  | .mend => none
  | .bar n _ => firstFailing [(decide (n.toNat < 16), .barrierNumber)]
  | .bara n _ => firstFailing [(decide (n.toNat < 16), .barrierNumber)]
  | .barw n _ => firstFailing [(decide (n.toNat < 16), .barrierNumber)]
  | .gbar => none
  | .fence _ _ => none
  | .cinv _ => none
  | .waitc _ => none
  | .shw d _ _ => firstFailing [(decide (destOk 1 d), .destCode)]
  | .shrWindow d _ _ => firstFailing [(decide (destOk 1 d), .destCode)]
  | .shp d _ _ => firstFailing [(decide (destOk 1 d), .destCode)]
  | .rdsr _ r => firstFailing [(decide (readableSr r), .specialRegister)]
  | .wrsr _ r => firstFailing [(decide (writableSr r), .specialRegister)]
  | .rdclk _ => none
  | .errq s => firstFailing [(decide (s.toNat % 2 = 0 ∧ s.toNat ≠ 0), .layoutRange)]
  | .imml _ => none
  | .immh _ => none
  | .modArith _ s _ _ => firstFailing [(decide (s.toNat ≠ 3), .hintPayload)]
  | .modOffset _ => none
  | .modCounter _ _ => none
  | .modLane _ _ _ => none
  | .sched _ _ => none
  | .loadDataReturn _ => none
  | .atomicReturn _ => none
  | .parkedLaneResume _ _ _ _ => none
  | .mmaComplete _ => none
  | .lineLands _ _ _ => none
  | .copyCommandComplete _ => none
  | .hdrnComplete _ => none
  | .pilotComplete _ => none
  | .mchkComplete _ => none
  | .collectiveComplete _ => none
  | .convoyFlitReceive _ => none
  | .berthTimerExpiry _ _ => none
  | .berthIdleLaunch _ _ => none
  | .berthGroupLaunch _ _ => none
  | .ringDrain _ _ => none
  | .groupAged _ _ _ => none
  | .groupRelease _ _ _ => none
  | .teamRelease _ => none
  | .compaction _ => none
  | .faultReport _ _ => none
  | .teamPlace _ => none
  | .reservationClaim _ => none
  | .preemptSave _ => none
  | .teamRestore _ => none
  | .launchComplete _ => none
  | .launchReplay _ => none
  | .queueSubmit _ _ => none
  | .launchNode _ _ => none
  | .copyNode _ _ => none
  | .cvoyNode _ _ => none
  | .condNode _ _ => none
  | .whileNode _ _ => none
  | .signalSubtract _ _ => none
  | .signalSet _ _ => none
  | .waitNode _ _ => none
  | .snapshotTake _ _ => none
  | .snapshotRestore _ _ => none
  | .snapshotDiscard _ _ => none
  | .invpt _ => none
  | .fresumeRetry _ => none
  | .fresumeAbandon _ => none
  | .qresume _ => none
  | .qabort _ => none
  | .gresumeRetry _ => none
  | .gresumeSkip _ => none
  | .gresumeAbort _ => none
  | .vinvall _ => none
  | .contextCreate _ => none
  | .contextDestroy _ => none
  | .ctxerrClear _ => none
  | .nodeidWrite _ => none
  | .portstatRead _ => none
  | .go2 _ => none
  | .registerWrite _ _ => none
  | .telem => none
  | .ppr => none
  | .retire => none
  | .fwstore => none
  | .powerGood => none
  | .powerOff => none
  | .stage1TrainingDone _ _ => none
  | .cuSelfTestDone _ _ => none
  | .portTrainingDone _ _ => none
  | .groupWatchdogExpiry _ _ _ => none
  | .cuWatchdogExpiry _ => none
  | .harbourmasterWatchdogExpiry _ => none
  | .eccCorrected _ => none
  | .eccUncorrectableDetected _ => none
  | .flitCheckFail _ _ => none
  | .refetch _ _ => none
  | .errorWindowClose _ _ => none
  | .errorRecordWrite _ => none
  | .powerLimitChange _ _ => none
  | .thermalShutdown => none
  | .hostMemRead _ _ => none
  | .hostMemWrite _ _ => none
  | .hostSnoop _ => none
  | .remoteRequest _ => none
  | .packetForward _ _ => none
  | .undefinedEncoding _ => none
  | .instructionFetchFault => none
  | .viewCommandComplete _ => none
  | .lastSourceRead _ => none
  | .malformedNode _ _ => none
  | .malformedCommand _ => none
  | .malformedMailboxCommand => none

/-- The instruction passes every check that its word decides (R97, R101). -/
def Instr.WellFormed (i : Instr) : Bool :=
  i.illFormed.isNone

end Sys2Proof
end

