-- ==== Sys2Proof/Decode.lean ====
section
/-!
DEFINITION. Decoding and encoding of instruction words (R85 to R97): `decode` reads any 32 bits and
answers an instruction or the name of what is wrong with them; `Instr.encode` writes the word of an
instruction from the same tables. `decodeTableWord` is the decoder in the bit numbering of the opcode
table, which is that of R85 (bit 0 of the word is the least significant bit).
-/
namespace Sys2Proof

/-- Why a word is no instruction (R97). -/
inductive DecodeError where
  /-- The major opcode is not assigned (R89, R91, R93 to R95). -/
  | unassignedMajor (maj : Nat)
  /-- A minor opcode or a reserved field of this major is not one of its instructions (R97). -/
  | reservedField (maj : Nat)
  /-- A condition, an operation, a size or an order with a reserved code (R97). -/
  | reservedCode (maj : Nat)
  deriving DecidableEq, Repr

/-- Field of `n` bits from bit `lo` upwards. -/
def fld (w lo n : Nat) : Nat := w / 2 ^ lo % 2 ^ n

/-- The same field as a bit vector. -/
def bits (w lo n : Nat) : BitVec n := BitVec.ofNat n (w / 2 ^ lo)

/-- Bit `lo` as a flag. -/
def flag (w lo : Nat) : Bool := w / 2 ^ lo % 2 == 1

/-- Code of an ICMP condition (R90). -/
def ICmp.code : ICmp → Nat
  | .eq => 0 | .ne => 1 | .ltS => 2 | .leS => 3 | .gtS => 4 | .geS => 5 | .ltU => 6 | .leU => 7 | .gtU => 8 | .geU => 9

/-- ICMP condition of a code (R90). -/
def ICmp.ofCode : Nat → Option ICmp
  | 0 => some .eq | 1 => some .ne | 2 => some .ltS | 3 => some .leS | 4 => some .gtS | 5 => some .geS
  | 6 => some .ltU | 7 => some .leU | 8 => some .gtU | 9 => some .geU | _ => none

/-- Code of an FCMP condition (R90). -/
def FCmp.code : FCmp → Nat
  | .eq => 0 | .ne => 1 | .lt => 2 | .le => 3 | .gt => 4 | .ge => 5 | .un => 6 | .ord => 7

/-- FCMP condition of a code (R90). -/
def FCmp.ofCode : Nat → Option FCmp
  | 0 => some .eq | 1 => some .ne | 2 => some .lt | 3 => some .le | 4 => some .gt | 5 => some .ge
  | 6 => some .un | 7 => some .ord | _ => none

/-- Code of a scope (R87). -/
def Scope.code : Scope → Nat
  | .thread => 0 | .group => 1 | .team => 2 | .unit => 3 | .die => 4 | .module => 5 | .pod => 6 | .system => 7

/-- Scope of a three-bit code (R87). -/
def Scope.ofCode : Nat → Scope
  | 0 => .thread | 1 => .group | 2 => .team | 3 => .unit | 4 => .die | 5 => .module | 6 => .pod | _ => .system

/-- Code of a fence order (R181). -/
def FenceOrd.code : FenceOrd → Nat
  | .acqRel => 0 | .acquire => 1 | .release => 2

/-- Fence order of a code (R181). -/
def FenceOrd.ofCode : Nat → Option FenceOrd
  | 0 => some .acqRel | 1 => some .acquire | 2 => some .release | _ => none

/-- AOP code (R92). -/
def AtomOp.code : AtomOp → Nat
  | .add => 0 | .minS => 1 | .maxS => 2 | .minU => 3 | .maxU => 4 | .and => 5 | .or => 6 | .xor => 7 | .xchg => 8 | .cas => 9

/-- Atomic operation of an AOP code (R92). -/
def AtomOp.ofCode : Nat → Option AtomOp
  | 0 => some .add | 1 => some .minS | 2 => some .maxS | 3 => some .minU | 4 => some .maxU
  | 5 => some .and | 6 => some .or | 7 => some .xor | 8 => some .xchg | 9 => some .cas | _ => none

/-- AOP code of ATOML (R180). -/
def LAtomOp.code : LAtomOp → Nat
  | .op o => o.code
  | .fadd => 10

/-- ATOML operation of an AOP code (R180). -/
def LAtomOp.ofCode (n : Nat) : Option LAtomOp :=
  if n = 10 then some .fadd else (AtomOp.ofCode n).map .op

/-- SZ code (R92). -/
def Size.code : Size → Nat
  | .b => 0 | .h => 1 | .w => 2 | .d => 3 | .q => 4

/-- Size of an SZ code (R92). -/
def Size.ofCode : Nat → Option Size
  | 0 => some .b | 1 => some .h | 2 => some .w | 3 => some .d | 4 => some .q | _ => none

/-- Size code of CPY (R94). -/
def CopySize.code : CopySize → Nat
  | .four => 2 | .eight => 3 | .sixteen => 4

/-- CPY size of a code (R191). -/
def CopySize.ofCode : Nat → Option CopySize
  | 2 => some .four | 3 => some .eight | 4 => some .sixteen | _ => none

/-- Major 0x01: IADD. -/
def decMaj01 (w : Nat) : Except DecodeError Instr :=
  .ok (.iadd (bits w 18 7) (bits w 11 7) (bits w 4 7) (flag w 3) (bits w 0 3))

/-- Major 0x02: ISUB. -/
def decMaj02 (w : Nat) : Except DecodeError Instr :=
  .ok (.isub (bits w 18 7) (bits w 11 7) (bits w 4 7) (flag w 3) (bits w 0 3))

/-- Major 0x03: IADC. -/
def decMaj03 (w : Nat) : Except DecodeError Instr :=
  .ok (.iadc (bits w 18 7) (bits w 11 7) (bits w 4 7) (flag w 3) (bits w 0 3))

/-- Major 0x04: ISBB. -/
def decMaj04 (w : Nat) : Except DecodeError Instr :=
  .ok (.isbb (bits w 18 7) (bits w 11 7) (bits w 4 7) (flag w 3) (bits w 0 3))

/-- Major 0x05: IMUL. -/
def decMaj05 (w : Nat) : Except DecodeError Instr :=
  .ok (.imul (bits w 18 7) (bits w 11 7) (bits w 4 7) (flag w 3) (bits w 0 3))

/-- Major 0x06: IMULH_S. -/
def decMaj06 (w : Nat) : Except DecodeError Instr :=
  .ok (.imulhS (bits w 18 7) (bits w 11 7) (bits w 4 7) (flag w 3) (bits w 0 3))

/-- Major 0x07: IMULH_U. -/
def decMaj07 (w : Nat) : Except DecodeError Instr :=
  .ok (.imulhU (bits w 18 7) (bits w 11 7) (bits w 4 7) (flag w 3) (bits w 0 3))

/-- Major 0x08: IMAD. -/
def decMaj08 (w : Nat) : Except DecodeError Instr :=
  .ok (.imad (bits w 18 7) (bits w 11 7) (bits w 4 7) (flag w 3) (bits w 0 3))

/-- Major 0x09: AND. -/
def decMaj09 (w : Nat) : Except DecodeError Instr :=
  .ok (.and (bits w 18 7) (bits w 11 7) (bits w 4 7) (flag w 3) (bits w 0 3))

/-- Major 0x0A: OR. -/
def decMaj0A (w : Nat) : Except DecodeError Instr :=
  .ok (.or (bits w 18 7) (bits w 11 7) (bits w 4 7) (flag w 3) (bits w 0 3))

/-- Major 0x0B: XOR. -/
def decMaj0B (w : Nat) : Except DecodeError Instr :=
  .ok (.xor (bits w 18 7) (bits w 11 7) (bits w 4 7) (flag w 3) (bits w 0 3))

/-- Major 0x0C: SHL. -/
def decMaj0C (w : Nat) : Except DecodeError Instr :=
  .ok (.shl (bits w 18 7) (bits w 11 7) (bits w 4 7) (flag w 3) (bits w 0 3))

/-- Major 0x0D: SHR. -/
def decMaj0D (w : Nat) : Except DecodeError Instr :=
  .ok (.shr (bits w 18 7) (bits w 11 7) (bits w 4 7) (flag w 3) (bits w 0 3))

/-- Major 0x0E: SAR. -/
def decMaj0E (w : Nat) : Except DecodeError Instr :=
  .ok (.sar (bits w 18 7) (bits w 11 7) (bits w 4 7) (flag w 3) (bits w 0 3))

/-- Major 0x0F: ROTL. -/
def decMaj0F (w : Nat) : Except DecodeError Instr :=
  .ok (.rotl (bits w 18 7) (bits w 11 7) (bits w 4 7) (flag w 3) (bits w 0 3))

/-- Major 0x10: BFE_S. -/
def decMaj10 (w : Nat) : Except DecodeError Instr :=
  .ok (.bfeS (bits w 18 7) (bits w 11 7) (bits w 4 7) (flag w 3) (bits w 0 3))

/-- Major 0x11: BFE_U. -/
def decMaj11 (w : Nat) : Except DecodeError Instr :=
  .ok (.bfeU (bits w 18 7) (bits w 11 7) (bits w 4 7) (flag w 3) (bits w 0 3))

/-- Major 0x12: BFI. -/
def decMaj12 (w : Nat) : Except DecodeError Instr :=
  .ok (.bfi (bits w 18 7) (bits w 11 7) (bits w 4 7) (flag w 3) (bits w 0 3))

/-- Major 0x13: ICMP. -/
def decMaj13 (w : Nat) : Except DecodeError Instr :=
  (ICmp.ofCode (fld w 21 4)).elim (.error (.reservedCode 0x13)) fun x => .ok (.icmp x (bits w 18 3) (bits w 11 7) (bits w 4 7) (flag w 3) (bits w 0 3))

/-- Major 0x14: SEL. -/
def decMaj14 (w : Nat) : Except DecodeError Instr :=
  .ok (.sel (bits w 18 7) (bits w 11 7) (bits w 4 7) (flag w 3) (bits w 0 3))

/-- Major 0x15: BYSEL. -/
def decMaj15 (w : Nat) : Except DecodeError Instr :=
  .ok (.bysel (bits w 18 7) (bits w 11 7) (bits w 4 7) (flag w 3) (bits w 0 3))

/-- Major 0x16: IADD_IMM. -/
def decMaj16 (w : Nat) : Except DecodeError Instr :=
  .ok (.iaddImm (bits w 18 7) (bits w 11 7) (bits w 0 11))

/-- Major 0x17: IMUL_IMM. -/
def decMaj17 (w : Nat) : Except DecodeError Instr :=
  .ok (.imulImm (bits w 18 7) (bits w 11 7) (bits w 0 11))

/-- Major 0x18: AND_IMM. -/
def decMaj18 (w : Nat) : Except DecodeError Instr :=
  .ok (.andImm (bits w 18 7) (bits w 11 7) (bits w 0 11))

/-- Major 0x19: OR_IMM. -/
def decMaj19 (w : Nat) : Except DecodeError Instr :=
  .ok (.orImm (bits w 18 7) (bits w 11 7) (bits w 0 11))

/-- Major 0x1A: XOR_IMM. -/
def decMaj1A (w : Nat) : Except DecodeError Instr :=
  .ok (.xorImm (bits w 18 7) (bits w 11 7) (bits w 0 11))

/-- Major 0x1B: SHL_IMM, SHR_IMM, SAR_IMM, ROTL_IMM. -/
def decMaj1B (w : Nat) : Except DecodeError Instr :=
  if fld w 5 6 == 0 then .ok (.shlImm (bits w 18 7) (bits w 11 7) (bits w 0 5))
  else
  if fld w 5 6 == 1 then .ok (.shrImm (bits w 18 7) (bits w 11 7) (bits w 0 5))
  else
  if fld w 5 6 == 2 then .ok (.sarImm (bits w 18 7) (bits w 11 7) (bits w 0 5))
  else
  if fld w 5 6 == 3 then .ok (.rotlImm (bits w 18 7) (bits w 11 7) (bits w 0 5))
  else
  .error (.reservedField 0x1B)

/-- Major 0x1C: MOVI. -/
def decMaj1C (w : Nat) : Except DecodeError Instr :=
  if fld w 11 7 == 0 then .ok (.movi (bits w 18 7) (bits w 0 11))
  else
  .error (.reservedField 0x1C)

/-- Major 0x1D: SETA, AADD. -/
def decMaj1D (w : Nat) : Except DecodeError Instr :=
  if fld w 0 11 == 0 && fld w 20 5 == 0 then .ok (.seta (bits w 18 2) (bits w 11 7))
  else
  if fld w 11 7 == 0 && fld w 20 5 == 1 then .ok (.aadd (bits w 18 2) (bits w 0 11))
  else
  .error (.reservedField 0x1D)

/-- Major 0x1E: MOV, NOT, IABS, POPC, CLZ, BREV. -/
def decMaj1E (w : Nat) : Except DecodeError Instr :=
  if fld w 4 7 == 0 then .ok (.mov (bits w 18 7) (bits w 11 7) (flag w 3) (bits w 0 3))
  else
  if fld w 4 7 == 1 then .ok (.not (bits w 18 7) (bits w 11 7) (flag w 3) (bits w 0 3))
  else
  if fld w 4 7 == 2 then .ok (.iabs (bits w 18 7) (bits w 11 7) (flag w 3) (bits w 0 3))
  else
  if fld w 4 7 == 3 then .ok (.popc (bits w 18 7) (bits w 11 7) (flag w 3) (bits w 0 3))
  else
  if fld w 4 7 == 4 then .ok (.clz (bits w 18 7) (bits w 11 7) (flag w 3) (bits w 0 3))
  else
  if fld w 4 7 == 5 then .ok (.brev (bits w 18 7) (bits w 11 7) (flag w 3) (bits w 0 3))
  else
  .error (.reservedField 0x1E)

/-- Major 0x1F: FDIV, IDIV_S, IDIV_U, IREM_S, IREM_U. -/
def decMaj1F (w : Nat) : Except DecodeError Instr :=
  if fld w 4 3 == 0 then .ok (.fdiv (bits w 18 7) (bits w 11 7) (bits w 7 4) (flag w 3) (bits w 0 3))
  else
  if fld w 4 3 == 1 then .ok (.idivS (bits w 18 7) (bits w 11 7) (bits w 7 4) (flag w 3) (bits w 0 3))
  else
  if fld w 4 3 == 2 then .ok (.idivU (bits w 18 7) (bits w 11 7) (bits w 7 4) (flag w 3) (bits w 0 3))
  else
  if fld w 4 3 == 3 then .ok (.iremS (bits w 18 7) (bits w 11 7) (bits w 7 4) (flag w 3) (bits w 0 3))
  else
  if fld w 4 3 == 4 then .ok (.iremU (bits w 18 7) (bits w 11 7) (bits w 7 4) (flag w 3) (bits w 0 3))
  else
  .error (.reservedField 0x1F)

/-- Major 0x20: IMIN_S, IMIN_U, IMAX_S, IMAX_U. -/
def decMaj20 (w : Nat) : Except DecodeError Instr :=
  if fld w 4 7 == 0 then .ok (.iminS (bits w 18 7) (bits w 11 7) (flag w 3) (bits w 0 3))
  else
  if fld w 4 7 == 1 then .ok (.iminU (bits w 18 7) (bits w 11 7) (flag w 3) (bits w 0 3))
  else
  if fld w 4 7 == 2 then .ok (.imaxS (bits w 18 7) (bits w 11 7) (flag w 3) (bits w 0 3))
  else
  if fld w 4 7 == 3 then .ok (.imaxU (bits w 18 7) (bits w 11 7) (flag w 3) (bits w 0 3))
  else
  .error (.reservedField 0x20)

/-- Major 0x21: FADD. -/
def decMaj21 (w : Nat) : Except DecodeError Instr :=
  .ok (.fadd (bits w 18 7) (bits w 11 7) (bits w 4 7) (flag w 3) (bits w 0 3))

/-- Major 0x22: FSUB. -/
def decMaj22 (w : Nat) : Except DecodeError Instr :=
  .ok (.fsub (bits w 18 7) (bits w 11 7) (bits w 4 7) (flag w 3) (bits w 0 3))

/-- Major 0x23: FMUL. -/
def decMaj23 (w : Nat) : Except DecodeError Instr :=
  .ok (.fmul (bits w 18 7) (bits w 11 7) (bits w 4 7) (flag w 3) (bits w 0 3))

/-- Major 0x24: FFMA. -/
def decMaj24 (w : Nat) : Except DecodeError Instr :=
  .ok (.ffma (bits w 18 7) (bits w 11 7) (bits w 4 7) (flag w 3) (bits w 0 3))

/-- Major 0x25: FFMS. -/
def decMaj25 (w : Nat) : Except DecodeError Instr :=
  .ok (.ffms (bits w 18 7) (bits w 11 7) (bits w 4 7) (flag w 3) (bits w 0 3))

/-- Major 0x26: FCMP. -/
def decMaj26 (w : Nat) : Except DecodeError Instr :=
  (FCmp.ofCode (fld w 21 4)).elim (.error (.reservedCode 0x26)) fun x => .ok (.fcmp x (bits w 18 3) (bits w 11 7) (bits w 4 7) (flag w 3) (bits w 0 3))

/-- Major 0x27: FADD_IMM. -/
def decMaj27 (w : Nat) : Except DecodeError Instr :=
  .ok (.faddImm (bits w 18 7) (bits w 11 7) (bits w 0 11))

/-- Major 0x28: FMUL_IMM. -/
def decMaj28 (w : Nat) : Except DecodeError Instr :=
  .ok (.fmulImm (bits w 18 7) (bits w 11 7) (bits w 0 11))

/-- Major 0x29: FFMA_IMM. -/
def decMaj29 (w : Nat) : Except DecodeError Instr :=
  .ok (.ffmaImm (bits w 18 7) (bits w 11 7) (bits w 0 11))

/-- Major 0x2A: FABS, FNEG, FCLASS, FMIN, FMAX. -/
def decMaj2A (w : Nat) : Except DecodeError Instr :=
  if fld w 4 7 == 0 then .ok (.fabs (bits w 18 7) (bits w 11 7) (flag w 3) (bits w 0 3))
  else
  if fld w 4 7 == 1 then .ok (.fneg (bits w 18 7) (bits w 11 7) (flag w 3) (bits w 0 3))
  else
  if fld w 4 7 == 2 then .ok (.fclass (bits w 18 7) (bits w 11 7) (flag w 3) (bits w 0 3))
  else
  if fld w 4 7 == 3 then .ok (.fmin (bits w 18 7) (bits w 11 7) (flag w 3) (bits w 0 3))
  else
  if fld w 4 7 == 4 then .ok (.fmax (bits w 18 7) (bits w 11 7) (flag w 3) (bits w 0 3))
  else
  .error (.reservedField 0x2A)

/-- Major 0x2B: FSQRT, FRCP, FRSQ, FEXP2, FLOG2, FSIN, FCOS, FTANH. -/
def decMaj2B (w : Nat) : Except DecodeError Instr :=
  if fld w 4 3 == 0 then .ok (.fsqrt (bits w 18 7) (bits w 11 7) (bits w 7 4) (flag w 3) (bits w 0 3))
  else
  if fld w 4 3 == 1 then .ok (.frcp (bits w 18 7) (bits w 11 7) (bits w 7 4) (flag w 3) (bits w 0 3))
  else
  if fld w 4 3 == 2 then .ok (.frsq (bits w 18 7) (bits w 11 7) (bits w 7 4) (flag w 3) (bits w 0 3))
  else
  if fld w 4 3 == 3 then .ok (.fexp2 (bits w 18 7) (bits w 11 7) (bits w 7 4) (flag w 3) (bits w 0 3))
  else
  if fld w 4 3 == 4 then .ok (.flog2 (bits w 18 7) (bits w 11 7) (bits w 7 4) (flag w 3) (bits w 0 3))
  else
  if fld w 4 3 == 5 then .ok (.fsin (bits w 18 7) (bits w 11 7) (bits w 7 4) (flag w 3) (bits w 0 3))
  else
  if fld w 4 3 == 6 then .ok (.fcos (bits w 18 7) (bits w 11 7) (bits w 7 4) (flag w 3) (bits w 0 3))
  else
  if fld w 4 3 == 7 then .ok (.ftanh (bits w 18 7) (bits w 11 7) (bits w 7 4) (flag w 3) (bits w 0 3))
  else
  .error (.reservedField 0x2B)

/-- Major 0x2C: PKFMA_H. -/
def decMaj2C (w : Nat) : Except DecodeError Instr :=
  .ok (.pkfmaH (bits w 18 7) (bits w 11 7) (bits w 4 7) (flag w 3) (bits w 0 3))

/-- Major 0x2D: PKFMA_B. -/
def decMaj2D (w : Nat) : Except DecodeError Instr :=
  .ok (.pkfmaB (bits w 18 7) (bits w 11 7) (bits w 4 7) (flag w 3) (bits w 0 3))

/-- Major 0x2E: PKADD_H, PKMUL_H, PKMIN_H, PKMAX_H, PKSUB_H. -/
def decMaj2E (w : Nat) : Except DecodeError Instr :=
  if fld w 4 7 == 0 then .ok (.pkaddH (bits w 18 7) (bits w 11 7) (flag w 3) (bits w 0 3))
  else
  if fld w 4 7 == 1 then .ok (.pkmulH (bits w 18 7) (bits w 11 7) (flag w 3) (bits w 0 3))
  else
  if fld w 4 7 == 2 then .ok (.pkminH (bits w 18 7) (bits w 11 7) (flag w 3) (bits w 0 3))
  else
  if fld w 4 7 == 3 then .ok (.pkmaxH (bits w 18 7) (bits w 11 7) (flag w 3) (bits w 0 3))
  else
  if fld w 4 7 == 4 then .ok (.pksubH (bits w 18 7) (bits w 11 7) (flag w 3) (bits w 0 3))
  else
  .error (.reservedField 0x2E)

/-- Major 0x2F: PKADD_B, PKMUL_B, PKMIN_B, PKMAX_B, PKSUB_B. -/
def decMaj2F (w : Nat) : Except DecodeError Instr :=
  if fld w 4 7 == 0 then .ok (.pkaddB (bits w 18 7) (bits w 11 7) (flag w 3) (bits w 0 3))
  else
  if fld w 4 7 == 1 then .ok (.pkmulB (bits w 18 7) (bits w 11 7) (flag w 3) (bits w 0 3))
  else
  if fld w 4 7 == 2 then .ok (.pkminB (bits w 18 7) (bits w 11 7) (flag w 3) (bits w 0 3))
  else
  if fld w 4 7 == 3 then .ok (.pkmaxB (bits w 18 7) (bits w 11 7) (flag w 3) (bits w 0 3))
  else
  if fld w 4 7 == 4 then .ok (.pksubB (bits w 18 7) (bits w 11 7) (flag w 3) (bits w 0 3))
  else
  .error (.reservedField 0x2F)

/-- Major 0x30: CVT_S32_F32, CVT_U32_F32, CVT_F32_S32, CVT_F32_U32, CVT_F16_F32, CVT_F32_F16, CVT_BF16_F32, CVT_F32_BF16. -/
def decMaj30 (w : Nat) : Except DecodeError Instr :=
  if fld w 4 7 == 0 then .ok (.cvtS32F32 (bits w 18 7) (bits w 11 7) (flag w 3) (bits w 0 3))
  else
  if fld w 4 7 == 1 then .ok (.cvtU32F32 (bits w 18 7) (bits w 11 7) (flag w 3) (bits w 0 3))
  else
  if fld w 4 7 == 2 then .ok (.cvtF32S32 (bits w 18 7) (bits w 11 7) (flag w 3) (bits w 0 3))
  else
  if fld w 4 7 == 3 then .ok (.cvtF32U32 (bits w 18 7) (bits w 11 7) (flag w 3) (bits w 0 3))
  else
  if fld w 4 7 == 4 then .ok (.cvtF16F32 (bits w 18 7) (bits w 11 7) (flag w 3) (bits w 0 3))
  else
  if fld w 4 7 == 5 then .ok (.cvtF32F16 (bits w 18 7) (bits w 11 7) (flag w 3) (bits w 0 3))
  else
  if fld w 4 7 == 6 then .ok (.cvtBf16F32 (bits w 18 7) (bits w 11 7) (flag w 3) (bits w 0 3))
  else
  if fld w 4 7 == 7 then .ok (.cvtF32Bf16 (bits w 18 7) (bits w 11 7) (flag w 3) (bits w 0 3))
  else
  .error (.reservedField 0x30)

/-- Major 0x31: CVT_F32_F64, CVT_F64_F32, UNPK. -/
def decMaj31 (w : Nat) : Except DecodeError Instr :=
  if fld w 4 7 == 0 then .ok (.cvtF32F64 (bits w 18 7) (bits w 11 7) (flag w 3) (bits w 0 3))
  else
  if fld w 4 7 == 1 then .ok (.cvtF64F32 (bits w 18 7) (bits w 11 7) (flag w 3) (bits w 0 3))
  else
  if fld w 4 7 == 2 then .ok (.unpk (bits w 18 7) (bits w 11 7) (flag w 3) (bits w 0 3))
  else
  .error (.reservedField 0x31)

/-- Major 0x32: CVTN. -/
def decMaj32 (w : Nat) : Except DecodeError Instr :=
  .ok (.cvtn (bits w 18 7) (bits w 11 7) (bits w 8 3) (bits w 4 4) (flag w 3) (bits w 0 3))

/-- Major 0x33: CVTW. -/
def decMaj33 (w : Nat) : Except DecodeError Instr :=
  .ok (.cvtw (bits w 18 7) (bits w 11 7) (bits w 8 3) (bits w 4 4) (flag w 3) (bits w 0 3))

/-- Major 0x34: QL8. -/
def decMaj34 (w : Nat) : Except DecodeError Instr :=
  .ok (.ql8 (bits w 18 7) (bits w 14 4) (bits w 11 3) (bits w 8 3) (bits w 4 4) (flag w 3) (bits w 0 3))

/-- Major 0x35: DL8. -/
def decMaj35 (w : Nat) : Except DecodeError Instr :=
  .ok (.dl8 (bits w 18 7) (bits w 11 7) (bits w 8 3) (bits w 4 4) (flag w 3) (bits w 0 3))

/-- Major 0x36: XL8. -/
def decMaj36 (w : Nat) : Except DecodeError Instr :=
  if fld w 4 1 == 0 then .ok (.xl8 (bits w 18 7) (bits w 11 7) (bits w 8 3) (bits w 5 3) (flag w 3) (bits w 0 3))
  else
  .error (.reservedField 0x36)

/-- Major 0x37: LXI. -/
def decMaj37 (w : Nat) : Except DecodeError Instr :=
  .ok (.lxi (bits w 18 7) (bits w 11 7) (bits w 4 7) (flag w 3) (bits w 0 3))

/-- Major 0x38: LXM. -/
def decMaj38 (w : Nat) : Except DecodeError Instr :=
  .ok (.lxm (bits w 18 7) (bits w 11 7) (bits w 4 7) (flag w 3) (bits w 0 3))

/-- Major 0x39: LXR. -/
def decMaj39 (w : Nat) : Except DecodeError Instr :=
  .ok (.lxr (bits w 18 7) (bits w 11 7) (bits w 4 7) (flag w 3) (bits w 0 3))

/-- Major 0x3A: LXS. -/
def decMaj3A (w : Nat) : Except DecodeError Instr :=
  .ok (.lxs (bits w 18 7) (bits w 11 7) (bits w 4 7) (flag w 3) (bits w 0 3))

/-- Major 0x3B: LMASK, LPEER, COMPACT, LFIRST. -/
def decMaj3B (w : Nat) : Except DecodeError Instr :=
  if fld w 4 7 == 0 then .ok (.lmask (bits w 18 7) (bits w 11 7) (flag w 3) (bits w 0 3))
  else
  if fld w 4 7 == 1 then .ok (.lpeer (bits w 18 7) (bits w 11 7) (flag w 3) (bits w 0 3))
  else
  if fld w 4 7 == 2 then .ok (.compact (bits w 18 7) (bits w 11 7) (flag w 3) (bits w 0 3))
  else
  if fld w 4 7 == 3 then .ok (.lfirst (bits w 18 7) (bits w 11 7) (flag w 3) (bits w 0 3))
  else
  .error (.reservedField 0x3B)

/-- Major 0x3C: LFOLD_IADD, LFOLD_IMIN_S, LFOLD_IMAX_S, LFOLD_AND, LFOLD_OR, LFOLD_XOR, LFOLD_FADD, LFOLD_FMAX. -/
def decMaj3C (w : Nat) : Except DecodeError Instr :=
  if fld w 4 7 == 0 then .ok (.lfoldIadd (bits w 18 7) (bits w 11 7) (flag w 3) (bits w 0 3))
  else
  if fld w 4 7 == 1 then .ok (.lfoldIminS (bits w 18 7) (bits w 11 7) (flag w 3) (bits w 0 3))
  else
  if fld w 4 7 == 2 then .ok (.lfoldImaxS (bits w 18 7) (bits w 11 7) (flag w 3) (bits w 0 3))
  else
  if fld w 4 7 == 3 then .ok (.lfoldAnd (bits w 18 7) (bits w 11 7) (flag w 3) (bits w 0 3))
  else
  if fld w 4 7 == 4 then .ok (.lfoldOr (bits w 18 7) (bits w 11 7) (flag w 3) (bits w 0 3))
  else
  if fld w 4 7 == 5 then .ok (.lfoldXor (bits w 18 7) (bits w 11 7) (flag w 3) (bits w 0 3))
  else
  if fld w 4 7 == 6 then .ok (.lfoldFadd (bits w 18 7) (bits w 11 7) (flag w 3) (bits w 0 3))
  else
  if fld w 4 7 == 7 then .ok (.lfoldFmax (bits w 18 7) (bits w 11 7) (flag w 3) (bits w 0 3))
  else
  .error (.reservedField 0x3C)

/-- Major 0x3D: PAND, POR, PXOR, PNOT, PMOV, LANY, LALL, LAGREE, LODD. -/
def decMaj3D (w : Nat) : Except DecodeError Instr :=
  if fld w 3 8 == 0 && fld w 14 4 == 0 && fld w 21 4 == 3 then .ok (.pnot (bits w 18 3) (bits w 11 3) (bits w 0 3))
  else
  if fld w 3 8 == 0 && fld w 14 4 == 0 && fld w 21 4 == 4 then .ok (.pmov (bits w 18 3) (bits w 11 3) (bits w 0 3))
  else
  if fld w 3 8 == 0 && fld w 14 4 == 0 && fld w 21 4 == 5 then .ok (.lany (bits w 18 3) (bits w 11 3) (bits w 0 3))
  else
  if fld w 3 8 == 0 && fld w 14 4 == 0 && fld w 21 4 == 6 then .ok (.lall (bits w 18 3) (bits w 11 3) (bits w 0 3))
  else
  if fld w 3 8 == 0 && fld w 14 4 == 0 && fld w 21 4 == 7 then .ok (.lagree (bits w 18 3) (bits w 11 3) (bits w 0 3))
  else
  if fld w 3 8 == 0 && fld w 14 4 == 0 && fld w 21 4 == 8 then .ok (.lodd (bits w 18 3) (bits w 11 3) (bits w 0 3))
  else
  if fld w 3 1 == 0 && fld w 7 4 == 0 && fld w 14 4 == 0 && fld w 21 4 == 0 then .ok (.pand (bits w 18 3) (bits w 11 3) (bits w 4 3) (bits w 0 3))
  else
  if fld w 3 1 == 0 && fld w 7 4 == 0 && fld w 14 4 == 0 && fld w 21 4 == 1 then .ok (.por (bits w 18 3) (bits w 11 3) (bits w 4 3) (bits w 0 3))
  else
  if fld w 3 1 == 0 && fld w 7 4 == 0 && fld w 14 4 == 0 && fld w 21 4 == 2 then .ok (.pxor (bits w 18 3) (bits w 11 3) (bits w 4 3) (bits w 0 3))
  else
  .error (.reservedField 0x3D)

/-- Major 0x3E: RDFX, WRFX, CLRFX. -/
def decMaj3E (w : Nat) : Except DecodeError Instr :=
  if fld w 3 8 == 2 && fld w 18 7 == 0 then .ok (.wrfx (bits w 11 7) (bits w 0 3))
  else
  if fld w 3 8 == 4 && fld w 18 7 == 0 then .ok (.clrfx (bits w 11 7) (bits w 0 3))
  else
  if fld w 4 14 == 0 then .ok (.rdfx (bits w 18 7) (flag w 3) (bits w 0 3))
  else
  .error (.reservedField 0x3E)

/-- Major 0x40: SADD, SSUB, SMUL, SAND, SOR, SXOR, SSHL, SSHR, SSAR, SMOV, SCMP, SSEL. -/
def decMaj40 (w : Nat) : Except DecodeError Instr :=
  if fld w 0 13 == 9 then .ok (.smov (bits w 19 6) (bits w 13 6))
  else
  if fld w 0 7 == 0 then .ok (.sadd (bits w 19 6) (bits w 13 6) (bits w 7 6))
  else
  if fld w 0 7 == 1 then .ok (.ssub (bits w 19 6) (bits w 13 6) (bits w 7 6))
  else
  if fld w 0 7 == 2 then .ok (.smul (bits w 19 6) (bits w 13 6) (bits w 7 6))
  else
  if fld w 0 7 == 3 then .ok (.sand (bits w 19 6) (bits w 13 6) (bits w 7 6))
  else
  if fld w 0 7 == 4 then .ok (.sor (bits w 19 6) (bits w 13 6) (bits w 7 6))
  else
  if fld w 0 7 == 5 then .ok (.sxor (bits w 19 6) (bits w 13 6) (bits w 7 6))
  else
  if fld w 0 7 == 6 then .ok (.sshl (bits w 19 6) (bits w 13 6) (bits w 7 6))
  else
  if fld w 0 7 == 7 then .ok (.sshr (bits w 19 6) (bits w 13 6) (bits w 7 6))
  else
  if fld w 0 7 == 8 then .ok (.ssar (bits w 19 6) (bits w 13 6) (bits w 7 6))
  else
  if fld w 0 7 == 32 then .ok (.ssel (bits w 19 6) (bits w 13 6) (bits w 7 6))
  else
  if fld w 4 3 == 1 then (ICmp.ofCode (fld w 0 4)).elim (.error (.reservedCode 0x40)) fun x => .ok (.scmp (bits w 19 6) (bits w 13 6) (bits w 7 6) x)
  else
  .error (.reservedField 0x40)

/-- Major 0x41: SADD_IMM. -/
def decMaj41 (w : Nat) : Except DecodeError Instr :=
  .ok (.saddImm (bits w 19 6) (bits w 13 6) (bits w 0 13))

/-- Major 0x42: SAND_IMM. -/
def decMaj42 (w : Nat) : Except DecodeError Instr :=
  .ok (.sandImm (bits w 19 6) (bits w 13 6) (bits w 0 13))

/-- Major 0x43: SOR_IMM. -/
def decMaj43 (w : Nat) : Except DecodeError Instr :=
  .ok (.sorImm (bits w 19 6) (bits w 13 6) (bits w 0 13))

/-- Major 0x44: SXOR_IMM. -/
def decMaj44 (w : Nat) : Except DecodeError Instr :=
  .ok (.sxorImm (bits w 19 6) (bits w 13 6) (bits w 0 13))

/-- Major 0x45: SSHL_IMM, SSHR_IMM, SSAR_IMM. -/
def decMaj45 (w : Nat) : Except DecodeError Instr :=
  if fld w 6 7 == 0 then .ok (.sshlImm (bits w 19 6) (bits w 13 6) (bits w 0 6))
  else
  if fld w 6 7 == 1 then .ok (.sshrImm (bits w 19 6) (bits w 13 6) (bits w 0 6))
  else
  if fld w 6 7 == 2 then .ok (.ssarImm (bits w 19 6) (bits w 13 6) (bits w 0 6))
  else
  .error (.reservedField 0x45)

/-- Major 0x46: SMOVI. -/
def decMaj46 (w : Nat) : Except DecodeError Instr :=
  if fld w 13 6 == 0 then .ok (.smovi (bits w 19 6) (bits w 0 13))
  else
  .error (.reservedField 0x46)

/-- Major 0x47: SLDC. -/
def decMaj47 (w : Nat) : Except DecodeError Instr :=
  if fld w 13 6 == 0 then .ok (.sldc (bits w 19 6) (bits w 0 13))
  else
  .error (.reservedField 0x47)

/-- Major 0x48: SLD. -/
def decMaj48 (w : Nat) : Except DecodeError Instr :=
  .ok (.sld (bits w 19 6) (bits w 13 6) (bits w 0 13))

/-- Major 0x49: SST. -/
def decMaj49 (w : Nat) : Except DecodeError Instr :=
  .ok (.sst (bits w 19 6) (bits w 13 6) (bits w 0 13))

/-- Major 0x50: LD_B. -/
def decMaj50 (w : Nat) : Except DecodeError Instr :=
  .ok (.ldB (bits w 18 7) (bits w 11 7) (bits w 8 3) (bits w 4 4) (Scope.ofCode (fld w 1 3)) (flag w 0))

/-- Major 0x51: LD_H. -/
def decMaj51 (w : Nat) : Except DecodeError Instr :=
  .ok (.ldH (bits w 18 7) (bits w 11 7) (bits w 8 3) (bits w 4 4) (Scope.ofCode (fld w 1 3)) (flag w 0))

/-- Major 0x52: LD_W. -/
def decMaj52 (w : Nat) : Except DecodeError Instr :=
  .ok (.ldW (bits w 18 7) (bits w 11 7) (bits w 8 3) (bits w 4 4) (Scope.ofCode (fld w 1 3)) (flag w 0))

/-- Major 0x53: LD_D. -/
def decMaj53 (w : Nat) : Except DecodeError Instr :=
  .ok (.ldD (bits w 18 7) (bits w 11 7) (bits w 8 3) (bits w 4 4) (Scope.ofCode (fld w 1 3)) (flag w 0))

/-- Major 0x54: LD_Q. -/
def decMaj54 (w : Nat) : Except DecodeError Instr :=
  .ok (.ldQ (bits w 18 7) (bits w 11 7) (bits w 8 3) (bits w 4 4) (Scope.ofCode (fld w 1 3)) (flag w 0))

/-- Major 0x55: ST_B. -/
def decMaj55 (w : Nat) : Except DecodeError Instr :=
  .ok (.stB (bits w 18 7) (bits w 11 7) (bits w 8 3) (bits w 4 4) (Scope.ofCode (fld w 1 3)) (flag w 0))

/-- Major 0x56: ST_H. -/
def decMaj56 (w : Nat) : Except DecodeError Instr :=
  .ok (.stH (bits w 18 7) (bits w 11 7) (bits w 8 3) (bits w 4 4) (Scope.ofCode (fld w 1 3)) (flag w 0))

/-- Major 0x57: ST_W. -/
def decMaj57 (w : Nat) : Except DecodeError Instr :=
  .ok (.stW (bits w 18 7) (bits w 11 7) (bits w 8 3) (bits w 4 4) (Scope.ofCode (fld w 1 3)) (flag w 0))

/-- Major 0x58: ST_D. -/
def decMaj58 (w : Nat) : Except DecodeError Instr :=
  .ok (.stD (bits w 18 7) (bits w 11 7) (bits w 8 3) (bits w 4 4) (Scope.ofCode (fld w 1 3)) (flag w 0))

/-- Major 0x59: ST_Q. -/
def decMaj59 (w : Nat) : Except DecodeError Instr :=
  .ok (.stQ (bits w 18 7) (bits w 11 7) (bits w 8 3) (bits w 4 4) (Scope.ofCode (fld w 1 3)) (flag w 0))

/-- Major 0x5A: LDL, LDT. -/
def decMaj5A (w : Nat) : Except DecodeError Instr :=
  if fld w 0 4 == 10 then .ok (.ldt (bits w 18 7) (bits w 11 7) (bits w 8 3) (bits w 4 4))
  else
  if fld w 0 1 == 0 then (Size.ofCode (fld w 1 3)).elim (.error (.reservedCode 0x5A)) fun x => .ok (.ldl (bits w 18 7) (bits w 11 7) (bits w 8 3) (bits w 4 4) x)
  else
  .error (.reservedField 0x5A)

/-- Major 0x5B: STL. -/
def decMaj5B (w : Nat) : Except DecodeError Instr :=
  if fld w 0 1 == 0 then (Size.ofCode (fld w 1 3)).elim (.error (.reservedCode 0x5B)) fun x => .ok (.stl (bits w 18 7) (bits w 11 7) (bits w 8 3) (bits w 4 4) x)
  else
  .error (.reservedField 0x5B)

/-- Major 0x5C: ATOM, ATOM_FADD. -/
def decMaj5C (w : Nat) : Except DecodeError Instr :=
  if fld w 14 4 == 10 then .ok (.atomFadd (bits w 18 7) (bits w 11 3) (bits w 8 3) (bits w 4 4) (Scope.ofCode (fld w 1 3)) (flag w 0))
  else
  (AtomOp.ofCode (fld w 14 4)).elim (.error (.reservedCode 0x5C)) fun x => .ok (.atom (bits w 18 7) x (bits w 11 3) (bits w 8 3) (bits w 4 4) (Scope.ofCode (fld w 1 3)) (flag w 0))

/-- Major 0x5D: ATOM_D, FXADD. -/
def decMaj5D (w : Nat) : Except DecodeError Instr :=
  if fld w 14 4 == 10 then .ok (.fxadd (bits w 18 7) (bits w 11 3) (bits w 8 3) (bits w 4 4) (Scope.ofCode (fld w 1 3)) (flag w 0))
  else
  (AtomOp.ofCode (fld w 14 4)).elim (.error (.reservedCode 0x5D)) fun x => .ok (.atomD (bits w 18 7) x (bits w 11 3) (bits w 8 3) (bits w 4 4) (Scope.ofCode (fld w 1 3)) (flag w 0))

/-- Major 0x5E: ATOML. -/
def decMaj5E (w : Nat) : Except DecodeError Instr :=
  (LAtomOp.ofCode (fld w 0 4)).elim (.error (.reservedCode 0x5E)) fun x => .ok (.atoml (bits w 18 7) (bits w 11 7) (bits w 8 3) (bits w 4 4) x)

/-- Major 0x5F: PREF, ZFILL. -/
def decMaj5F (w : Nat) : Except DecodeError Instr :=
  if fld w 0 4 == 0 && fld w 18 7 == 0 then .ok (.pref (bits w 11 7) (bits w 8 3) (bits w 4 4))
  else
  if fld w 18 7 == 1 then .ok (.zfill (bits w 11 7) (bits w 8 3) (bits w 4 4) (Scope.ofCode (fld w 1 3)) (flag w 0))
  else
  .error (.reservedField 0x5F)

/-- Major 0x60: MMA. -/
def decMaj60 (w : Nat) : Except DecodeError Instr :=
  .ok (.mma (bits w 18 7) (bits w 11 7) (bits w 8 3) (bits w 5 3) (bits w 1 4) (flag w 0))

/-- Major 0x61: MMAH. -/
def decMaj61 (w : Nat) : Except DecodeError Instr :=
  if fld w 23 2 == 0 then .ok (.mmah (bits w 18 5) (bits w 11 7) (bits w 8 3) (bits w 5 3) (bits w 1 4) (flag w 0))
  else
  .error (.reservedField 0x61)

/-- Major 0x62: MMAS. -/
def decMaj62 (w : Nat) : Except DecodeError Instr :=
  .ok (.mmas (bits w 18 7) (bits w 11 7) (bits w 8 3) (bits w 5 3) (bits w 1 4) (flag w 0))

/-- Major 0x63: HLD_REG, HST_REG, HLD_SCRATCH, HST_SCRATCH, HZERO. -/
def decMaj63 (w : Nat) : Except DecodeError Instr :=
  if fld w 0 1 == 0 && fld w 5 13 == 4 && fld w 23 2 == 0 then .ok (.hzero (bits w 18 5) (bits w 1 4))
  else
  if fld w 0 1 == 0 && fld w 5 3 == 2 && fld w 11 7 == 0 && fld w 23 2 == 0 then .ok (.hldScratch (bits w 18 5) (bits w 8 3) (bits w 1 4))
  else
  if fld w 0 1 == 0 && fld w 5 3 == 3 && fld w 11 7 == 0 && fld w 23 2 == 0 then .ok (.hstScratch (bits w 18 5) (bits w 8 3) (bits w 1 4))
  else
  if fld w 0 1 == 0 && fld w 5 6 == 0 && fld w 23 2 == 0 then .ok (.hldReg (bits w 18 5) (bits w 11 7) (bits w 1 4))
  else
  if fld w 0 1 == 0 && fld w 5 6 == 1 && fld w 23 2 == 0 then .ok (.hstReg (bits w 18 5) (bits w 11 7) (bits w 1 4))
  else
  .error (.reservedField 0x63)

/-- Major 0x64: HDRN, HDRN_MOM, HDRN_SQ. -/
def decMaj64 (w : Nat) : Except DecodeError Instr :=
  if fld w 0 3 == 0 then .ok (.hdrn (bits w 19 6) (bits w 13 6) (bits w 7 6) (bits w 3 4))
  else
  if fld w 0 3 == 1 then .ok (.hdrnMom (bits w 19 6) (bits w 13 6) (bits w 7 6) (bits w 3 4))
  else
  if fld w 0 3 == 2 then .ok (.hdrnSq (bits w 19 6) (bits w 13 6) (bits w 7 6) (bits w 3 4))
  else
  .error (.reservedField 0x64)

/-- Major 0x65: PILOT_GT, PILOT_TOP. -/
def decMaj65 (w : Nat) : Except DecodeError Instr :=
  if fld w 0 3 == 0 then .ok (.pilotGt (bits w 19 6) (bits w 13 6) (bits w 7 6) (bits w 3 4))
  else
  if fld w 0 3 == 1 then .ok (.pilotTop (bits w 19 6) (bits w 13 6) (bits w 7 6) (bits w 3 4))
  else
  .error (.reservedField 0x65)

/-- Major 0x66: MCHK. -/
def decMaj66 (w : Nat) : Except DecodeError Instr :=
  if fld w 0 3 == 0 then .ok (.mchk (bits w 19 6) (bits w 13 6) (bits w 7 6) (bits w 3 4))
  else
  .error (.reservedField 0x66)

/-- Major 0x68: VSET, VBASE, VINV, VQRY. -/
def decMaj68 (w : Nat) : Except DecodeError Instr :=
  if fld w 0 3 == 2 && fld w 7 12 == 0 then .ok (.vinv (bits w 19 6) (bits w 3 4))
  else
  if fld w 0 3 == 0 then .ok (.vset (bits w 19 6) (bits w 13 6) (bits w 7 6) (bits w 3 4))
  else
  if fld w 0 3 == 1 then .ok (.vbase (bits w 19 6) (bits w 13 6) (bits w 7 6) (bits w 3 4))
  else
  if fld w 0 3 == 3 then .ok (.vqry (bits w 19 6) (bits w 13 6) (bits w 7 6) (bits w 3 4))
  else
  .error (.reservedField 0x68)

/-- Major 0x69: CPY. -/
def decMaj69 (w : Nat) : Except DecodeError Instr :=
  if fld w 0 1 == 0 then (CopySize.ofCode (fld w 1 3)).elim (.error (.reservedCode 0x69)) fun x => .ok (.cpy (bits w 18 7) (bits w 11 7) (bits w 8 3) (bits w 4 4) x)
  else
  .error (.reservedField 0x69)

/-- Major 0x6A: CPYM, CPYO, CPYRW, CSIG. -/
def decMaj6A (w : Nat) : Except DecodeError Instr :=
  if fld w 0 3 == 1 && fld w 7 6 == 0 then .ok (.cpyo (bits w 19 6) (bits w 13 6) (bits w 3 4))
  else
  if fld w 0 3 == 3 && fld w 7 6 == 0 then .ok (.csig (bits w 19 6) (bits w 13 6) (bits w 3 4))
  else
  if fld w 0 3 == 0 then .ok (.cpym (bits w 19 6) (bits w 13 6) (bits w 7 6) (bits w 3 4))
  else
  if fld w 0 3 == 2 then .ok (.cpyrw (bits w 19 6) (bits w 13 6) (bits w 7 6) (bits w 3 4))
  else
  .error (.reservedField 0x6A)

/-- Major 0x6B: SPAWN. -/
def decMaj6B (w : Nat) : Except DecodeError Instr :=
  if fld w 3 1 == 0 then .ok (.spawn (bits w 18 7) (bits w 11 7) (bits w 4 7) (bits w 0 3))
  else
  .error (.reservedField 0x6B)

/-- Major 0x6C: PARK. -/
def decMaj6C (w : Nat) : Except DecodeError Instr :=
  if fld w 3 1 == 0 then .ok (.park (bits w 18 7) (bits w 11 7) (bits w 4 7) (bits w 0 3))
  else
  .error (.reservedField 0x6C)

/-- Major 0x6D: BFLUSH, CVOY, CVQRY. -/
def decMaj6D (w : Nat) : Except DecodeError Instr :=
  if fld w 0 3 == 0 && fld w 7 12 == 0 then .ok (.bflush (bits w 19 6) (bits w 3 4))
  else
  if fld w 0 3 == 2 && fld w 13 6 == 0 then .ok (.cvqry (bits w 19 6) (bits w 7 6) (bits w 3 4))
  else
  if fld w 0 3 == 1 then .ok (.cvoy (bits w 19 6) (bits w 13 6) (bits w 7 6) (bits w 3 4))
  else
  .error (.reservedField 0x6D)

/-- Major 0x70: BRA. -/
def decMaj70 (w : Nat) : Except DecodeError Instr :=
  .ok (.bra (bits w 22 3) (flag w 21) (bits w 0 21))

/-- Major 0x71: CALL. -/
def decMaj71 (w : Nat) : Except DecodeError Instr :=
  .ok (.call (bits w 22 3) (flag w 21) (bits w 0 21))

/-- Major 0x72: JMP. -/
def decMaj72 (w : Nat) : Except DecodeError Instr :=
  if fld w 0 19 == 0 then .ok (.jmp (bits w 19 6))
  else
  .error (.reservedField 0x72)

/-- Major 0x73: CALLR. -/
def decMaj73 (w : Nat) : Except DecodeError Instr :=
  if fld w 0 19 == 0 then .ok (.callr (bits w 19 6))
  else
  .error (.reservedField 0x73)

/-- Major 0x74: NOP, RET, EXIT, YIELD, BKPT, TRAP, MELD, MSET, MEND. -/
def decMaj74 (w : Nat) : Except DecodeError Instr :=
  if fld w 0 25 == 0 then .ok .nop
  else
  if fld w 0 25 == 1 then .ok .ret
  else
  if fld w 0 25 == 2 then .ok .exit
  else
  if fld w 0 25 == 3 then .ok .yield
  else
  if fld w 0 25 == 8 then .ok .mend
  else
  if fld w 0 7 == 6 && fld w 10 3 == 0 && fld w 16 9 == 0 then .ok (.meld (bits w 13 3) (bits w 7 3))
  else
  if fld w 0 13 == 7 && fld w 21 4 == 0 then .ok (.mset (bits w 19 2) (bits w 13 6))
  else
  if fld w 0 7 == 4 && fld w 19 6 == 0 then .ok (.bkpt (bits w 7 12))
  else
  if fld w 0 7 == 5 && fld w 19 6 == 0 then .ok (.trap (bits w 7 12))
  else
  .error (.reservedField 0x74)

/-- Major 0x75: BAR, BARA, BARW, GBAR, FENCE, CINV, WAITC. -/
def decMaj75 (w : Nat) : Except DecodeError Instr :=
  if fld w 0 25 == 3 then .ok .gbar
  else
  if fld w 0 19 == 5 && fld w 22 3 == 0 then .ok (.cinv (Scope.ofCode (fld w 19 3)))
  else
  if fld w 0 19 == 4 then (FenceOrd.ofCode (fld w 22 3)).elim (.error (.reservedCode 0x75)) fun x => .ok (.fence x (Scope.ofCode (fld w 19 3)))
  else
  if fld w 0 13 == 6 && fld w 19 6 == 0 then .ok (.waitc (bits w 13 6))
  else
  if fld w 0 13 == 0 then .ok (.bar (bits w 19 6) (bits w 13 6))
  else
  if fld w 0 13 == 1 then .ok (.bara (bits w 19 6) (bits w 13 6))
  else
  if fld w 0 13 == 2 then .ok (.barw (bits w 19 6) (bits w 13 6))
  else
  .error (.reservedField 0x75)

/-- Major 0x76: SHW, SHR_WINDOW, SHP. -/
def decMaj76 (w : Nat) : Except DecodeError Instr :=
  if fld w 3 8 == 0 then .ok (.shw (bits w 18 7) (bits w 11 7) (bits w 0 3))
  else
  if fld w 3 8 == 2 then .ok (.shrWindow (bits w 18 7) (bits w 11 7) (bits w 0 3))
  else
  if fld w 3 8 == 4 then .ok (.shp (bits w 18 7) (bits w 11 7) (bits w 0 3))
  else
  .error (.reservedField 0x76)

/-- Major 0x78: RDSR, WRSR, RDCLK, ERRQ. -/
def decMaj78 (w : Nat) : Except DecodeError Instr :=
  if fld w 0 19 == 2 then .ok (.rdclk (bits w 19 6))
  else
  if fld w 0 19 == 3 then .ok (.errq (bits w 19 6))
  else
  if fld w 0 7 == 0 then .ok (.rdsr (bits w 19 6) (bits w 7 12))
  else
  if fld w 0 7 == 1 then .ok (.wrsr (bits w 19 6) (bits w 7 12))
  else
  .error (.reservedField 0x78)

/-- Major 0x7C: IMML. -/
def decMaj7C (w : Nat) : Except DecodeError Instr :=
  .ok (.imml (bits w 0 25))

/-- Major 0x7D: IMMH. -/
def decMaj7D (w : Nat) : Except DecodeError Instr :=
  .ok (.immh (bits w 0 25))

/-- Major 0x7E: MOD_ARITH, MOD_OFFSET, MOD_COUNTER, MOD_LANE. -/
def decMaj7E (w : Nat) : Except DecodeError Instr :=
  if fld w 0 13 == 0 && fld w 23 2 == 0 then .ok (.modArith (bits w 21 2) (bits w 19 2) (bits w 16 3) (bits w 13 3))
  else
  if fld w 6 13 == 0 && fld w 23 2 == 3 then .ok (.modLane (bits w 20 3) (flag w 19) (bits w 0 6))
  else
  if fld w 12 8 == 0 && fld w 23 2 == 2 then .ok (.modCounter (Scope.ofCode (fld w 20 3)) (bits w 0 12))
  else
  if fld w 23 2 == 1 then .ok (.modOffset (bits w 0 23))
  else
  .error (.reservedField 0x7E)

/-- Major 0x7F: SCHED. -/
def decMaj7F (w : Nat) : Except DecodeError Instr :=
  if fld w 5 20 == 0 then .ok (.sched (flag w 4) (bits w 0 4))
  else
  .error (.reservedField 0x7F)

/-- The instruction of a word, given as a number, or why it is none (R89 to R97). -/
def decodeNat (w : Nat) : Except DecodeError Instr :=
  match fld w 25 7 with
  | 0x01 => decMaj01 w
  | 0x02 => decMaj02 w
  | 0x03 => decMaj03 w
  | 0x04 => decMaj04 w
  | 0x05 => decMaj05 w
  | 0x06 => decMaj06 w
  | 0x07 => decMaj07 w
  | 0x08 => decMaj08 w
  | 0x09 => decMaj09 w
  | 0x0A => decMaj0A w
  | 0x0B => decMaj0B w
  | 0x0C => decMaj0C w
  | 0x0D => decMaj0D w
  | 0x0E => decMaj0E w
  | 0x0F => decMaj0F w
  | 0x10 => decMaj10 w
  | 0x11 => decMaj11 w
  | 0x12 => decMaj12 w
  | 0x13 => decMaj13 w
  | 0x14 => decMaj14 w
  | 0x15 => decMaj15 w
  | 0x16 => decMaj16 w
  | 0x17 => decMaj17 w
  | 0x18 => decMaj18 w
  | 0x19 => decMaj19 w
  | 0x1A => decMaj1A w
  | 0x1B => decMaj1B w
  | 0x1C => decMaj1C w
  | 0x1D => decMaj1D w
  | 0x1E => decMaj1E w
  | 0x1F => decMaj1F w
  | 0x20 => decMaj20 w
  | 0x21 => decMaj21 w
  | 0x22 => decMaj22 w
  | 0x23 => decMaj23 w
  | 0x24 => decMaj24 w
  | 0x25 => decMaj25 w
  | 0x26 => decMaj26 w
  | 0x27 => decMaj27 w
  | 0x28 => decMaj28 w
  | 0x29 => decMaj29 w
  | 0x2A => decMaj2A w
  | 0x2B => decMaj2B w
  | 0x2C => decMaj2C w
  | 0x2D => decMaj2D w
  | 0x2E => decMaj2E w
  | 0x2F => decMaj2F w
  | 0x30 => decMaj30 w
  | 0x31 => decMaj31 w
  | 0x32 => decMaj32 w
  | 0x33 => decMaj33 w
  | 0x34 => decMaj34 w
  | 0x35 => decMaj35 w
  | 0x36 => decMaj36 w
  | 0x37 => decMaj37 w
  | 0x38 => decMaj38 w
  | 0x39 => decMaj39 w
  | 0x3A => decMaj3A w
  | 0x3B => decMaj3B w
  | 0x3C => decMaj3C w
  | 0x3D => decMaj3D w
  | 0x3E => decMaj3E w
  | 0x40 => decMaj40 w
  | 0x41 => decMaj41 w
  | 0x42 => decMaj42 w
  | 0x43 => decMaj43 w
  | 0x44 => decMaj44 w
  | 0x45 => decMaj45 w
  | 0x46 => decMaj46 w
  | 0x47 => decMaj47 w
  | 0x48 => decMaj48 w
  | 0x49 => decMaj49 w
  | 0x50 => decMaj50 w
  | 0x51 => decMaj51 w
  | 0x52 => decMaj52 w
  | 0x53 => decMaj53 w
  | 0x54 => decMaj54 w
  | 0x55 => decMaj55 w
  | 0x56 => decMaj56 w
  | 0x57 => decMaj57 w
  | 0x58 => decMaj58 w
  | 0x59 => decMaj59 w
  | 0x5A => decMaj5A w
  | 0x5B => decMaj5B w
  | 0x5C => decMaj5C w
  | 0x5D => decMaj5D w
  | 0x5E => decMaj5E w
  | 0x5F => decMaj5F w
  | 0x60 => decMaj60 w
  | 0x61 => decMaj61 w
  | 0x62 => decMaj62 w
  | 0x63 => decMaj63 w
  | 0x64 => decMaj64 w
  | 0x65 => decMaj65 w
  | 0x66 => decMaj66 w
  | 0x68 => decMaj68 w
  | 0x69 => decMaj69 w
  | 0x6A => decMaj6A w
  | 0x6B => decMaj6B w
  | 0x6C => decMaj6C w
  | 0x6D => decMaj6D w
  | 0x70 => decMaj70 w
  | 0x71 => decMaj71 w
  | 0x72 => decMaj72 w
  | 0x73 => decMaj73 w
  | 0x74 => decMaj74 w
  | 0x75 => decMaj75 w
  | 0x76 => decMaj76 w
  | 0x78 => decMaj78 w
  | 0x7C => decMaj7C w
  | 0x7D => decMaj7D w
  | 0x7E => decMaj7E w
  | 0x7F => decMaj7F w
  | maj => .error (.unassignedMajor maj)

/-- The instruction of a word, or why it is none (R89 to R97). -/
def decode (w : Word) : Except DecodeError Instr :=
  decodeNat w.toNat

/-- A word with the fixed bits `fixed` and each field, given with its lowest bit, in its place (R86). -/
def pack (fixed : Nat) (fields : List (Nat × Nat)) : Word :=
  BitVec.ofNat 32 (fields.foldr (fun f n => f.1 * 2 ^ f.2 + n) fixed)

/-- The word of an instruction, from the formats of R86 and the maps of R89 to R96. Events have no word. -/
def Instr.encode : Instr → Option Word
  | .iadd d a b q g => some (pack 0x02000000 [(d.toNat, 18), (a.toNat, 11), (b.toNat, 4), (q.toNat, 3), (g.toNat, 0)])
  | .isub d a b q g => some (pack 0x04000000 [(d.toNat, 18), (a.toNat, 11), (b.toNat, 4), (q.toNat, 3), (g.toNat, 0)])
  | .iadc d a b q c => some (pack 0x06000000 [(d.toNat, 18), (a.toNat, 11), (b.toNat, 4), (q.toNat, 3), (c.toNat, 0)])
  | .isbb d a b q c => some (pack 0x08000000 [(d.toNat, 18), (a.toNat, 11), (b.toNat, 4), (q.toNat, 3), (c.toNat, 0)])
  | .imul d a b q g => some (pack 0x0A000000 [(d.toNat, 18), (a.toNat, 11), (b.toNat, 4), (q.toNat, 3), (g.toNat, 0)])
  | .imulhS d a b q g => some (pack 0x0C000000 [(d.toNat, 18), (a.toNat, 11), (b.toNat, 4), (q.toNat, 3), (g.toNat, 0)])
  | .imulhU d a b q g => some (pack 0x0E000000 [(d.toNat, 18), (a.toNat, 11), (b.toNat, 4), (q.toNat, 3), (g.toNat, 0)])
  | .imad d a b q g => some (pack 0x10000000 [(d.toNat, 18), (a.toNat, 11), (b.toNat, 4), (q.toNat, 3), (g.toNat, 0)])
  | .and d a b q g => some (pack 0x12000000 [(d.toNat, 18), (a.toNat, 11), (b.toNat, 4), (q.toNat, 3), (g.toNat, 0)])
  | .or d a b q g => some (pack 0x14000000 [(d.toNat, 18), (a.toNat, 11), (b.toNat, 4), (q.toNat, 3), (g.toNat, 0)])
  | .xor d a b q g => some (pack 0x16000000 [(d.toNat, 18), (a.toNat, 11), (b.toNat, 4), (q.toNat, 3), (g.toNat, 0)])
  | .shl d a b q g => some (pack 0x18000000 [(d.toNat, 18), (a.toNat, 11), (b.toNat, 4), (q.toNat, 3), (g.toNat, 0)])
  | .shr d a b q g => some (pack 0x1A000000 [(d.toNat, 18), (a.toNat, 11), (b.toNat, 4), (q.toNat, 3), (g.toNat, 0)])
  | .sar d a b q g => some (pack 0x1C000000 [(d.toNat, 18), (a.toNat, 11), (b.toNat, 4), (q.toNat, 3), (g.toNat, 0)])
  | .rotl d a b q g => some (pack 0x1E000000 [(d.toNat, 18), (a.toNat, 11), (b.toNat, 4), (q.toNat, 3), (g.toNat, 0)])
  | .bfeS d a b q g => some (pack 0x20000000 [(d.toNat, 18), (a.toNat, 11), (b.toNat, 4), (q.toNat, 3), (g.toNat, 0)])
  | .bfeU d a b q g => some (pack 0x22000000 [(d.toNat, 18), (a.toNat, 11), (b.toNat, 4), (q.toNat, 3), (g.toNat, 0)])
  | .bfi d a b q g => some (pack 0x24000000 [(d.toNat, 18), (a.toNat, 11), (b.toNat, 4), (q.toNat, 3), (g.toNat, 0)])
  | .icmp c p a b q g => some (pack 0x26000000 [(c.code, 21), (p.toNat, 18), (a.toNat, 11), (b.toNat, 4), (q.toNat, 3), (g.toNat, 0)])
  | .sel d a b q s => some (pack 0x28000000 [(d.toNat, 18), (a.toNat, 11), (b.toNat, 4), (q.toNat, 3), (s.toNat, 0)])
  | .bysel d a b q g => some (pack 0x2A000000 [(d.toNat, 18), (a.toNat, 11), (b.toNat, 4), (q.toNat, 3), (g.toNat, 0)])
  | .iaddImm d a i => some (pack 0x2C000000 [(d.toNat, 18), (a.toNat, 11), (i.toNat, 0)])
  | .imulImm d a i => some (pack 0x2E000000 [(d.toNat, 18), (a.toNat, 11), (i.toNat, 0)])
  | .andImm d a i => some (pack 0x30000000 [(d.toNat, 18), (a.toNat, 11), (i.toNat, 0)])
  | .orImm d a i => some (pack 0x32000000 [(d.toNat, 18), (a.toNat, 11), (i.toNat, 0)])
  | .xorImm d a i => some (pack 0x34000000 [(d.toNat, 18), (a.toNat, 11), (i.toNat, 0)])
  | .shlImm d a n => some (pack 0x36000000 [(d.toNat, 18), (a.toNat, 11), (n.toNat, 0)])
  | .shrImm d a n => some (pack 0x36000020 [(d.toNat, 18), (a.toNat, 11), (n.toNat, 0)])
  | .sarImm d a n => some (pack 0x36000040 [(d.toNat, 18), (a.toNat, 11), (n.toNat, 0)])
  | .rotlImm d a n => some (pack 0x36000060 [(d.toNat, 18), (a.toNat, 11), (n.toNat, 0)])
  | .movi d i => some (pack 0x38000000 [(d.toNat, 18), (i.toNat, 0)])
  | .seta k a => some (pack 0x3A000000 [(k.toNat, 18), (a.toNat, 11)])
  | .aadd k i => some (pack 0x3A100000 [(k.toNat, 18), (i.toNat, 0)])
  | .mov d a q g => some (pack 0x3C000000 [(d.toNat, 18), (a.toNat, 11), (q.toNat, 3), (g.toNat, 0)])
  | .not d a q g => some (pack 0x3C000010 [(d.toNat, 18), (a.toNat, 11), (q.toNat, 3), (g.toNat, 0)])
  | .iabs d a q g => some (pack 0x3C000020 [(d.toNat, 18), (a.toNat, 11), (q.toNat, 3), (g.toNat, 0)])
  | .popc d a q g => some (pack 0x3C000030 [(d.toNat, 18), (a.toNat, 11), (q.toNat, 3), (g.toNat, 0)])
  | .clz d a q g => some (pack 0x3C000040 [(d.toNat, 18), (a.toNat, 11), (q.toNat, 3), (g.toNat, 0)])
  | .brev d a q g => some (pack 0x3C000050 [(d.toNat, 18), (a.toNat, 11), (q.toNat, 3), (g.toNat, 0)])
  | .fdiv d a l q g => some (pack 0x3E000000 [(d.toNat, 18), (a.toNat, 11), (l.toNat, 7), (q.toNat, 3), (g.toNat, 0)])
  | .idivS d a l q g => some (pack 0x3E000010 [(d.toNat, 18), (a.toNat, 11), (l.toNat, 7), (q.toNat, 3), (g.toNat, 0)])
  | .idivU d a l q g => some (pack 0x3E000020 [(d.toNat, 18), (a.toNat, 11), (l.toNat, 7), (q.toNat, 3), (g.toNat, 0)])
  | .iremS d a l q g => some (pack 0x3E000030 [(d.toNat, 18), (a.toNat, 11), (l.toNat, 7), (q.toNat, 3), (g.toNat, 0)])
  | .iremU d a l q g => some (pack 0x3E000040 [(d.toNat, 18), (a.toNat, 11), (l.toNat, 7), (q.toNat, 3), (g.toNat, 0)])
  | .iminS d a q g => some (pack 0x40000000 [(d.toNat, 18), (a.toNat, 11), (q.toNat, 3), (g.toNat, 0)])
  | .iminU d a q g => some (pack 0x40000010 [(d.toNat, 18), (a.toNat, 11), (q.toNat, 3), (g.toNat, 0)])
  | .imaxS d a q g => some (pack 0x40000020 [(d.toNat, 18), (a.toNat, 11), (q.toNat, 3), (g.toNat, 0)])
  | .imaxU d a q g => some (pack 0x40000030 [(d.toNat, 18), (a.toNat, 11), (q.toNat, 3), (g.toNat, 0)])
  | .fadd d a b q g => some (pack 0x42000000 [(d.toNat, 18), (a.toNat, 11), (b.toNat, 4), (q.toNat, 3), (g.toNat, 0)])
  | .fsub d a b q g => some (pack 0x44000000 [(d.toNat, 18), (a.toNat, 11), (b.toNat, 4), (q.toNat, 3), (g.toNat, 0)])
  | .fmul d a b q g => some (pack 0x46000000 [(d.toNat, 18), (a.toNat, 11), (b.toNat, 4), (q.toNat, 3), (g.toNat, 0)])
  | .ffma d a b q g => some (pack 0x48000000 [(d.toNat, 18), (a.toNat, 11), (b.toNat, 4), (q.toNat, 3), (g.toNat, 0)])
  | .ffms d a b q g => some (pack 0x4A000000 [(d.toNat, 18), (a.toNat, 11), (b.toNat, 4), (q.toNat, 3), (g.toNat, 0)])
  | .fcmp c p a b q g => some (pack 0x4C000000 [(c.code, 21), (p.toNat, 18), (a.toNat, 11), (b.toNat, 4), (q.toNat, 3), (g.toNat, 0)])
  | .faddImm d a i => some (pack 0x4E000000 [(d.toNat, 18), (a.toNat, 11), (i.toNat, 0)])
  | .fmulImm d a i => some (pack 0x50000000 [(d.toNat, 18), (a.toNat, 11), (i.toNat, 0)])
  | .ffmaImm d a i => some (pack 0x52000000 [(d.toNat, 18), (a.toNat, 11), (i.toNat, 0)])
  | .fabs d a q g => some (pack 0x54000000 [(d.toNat, 18), (a.toNat, 11), (q.toNat, 3), (g.toNat, 0)])
  | .fneg d a q g => some (pack 0x54000010 [(d.toNat, 18), (a.toNat, 11), (q.toNat, 3), (g.toNat, 0)])
  | .fclass d a q g => some (pack 0x54000020 [(d.toNat, 18), (a.toNat, 11), (q.toNat, 3), (g.toNat, 0)])
  | .fmin d a q g => some (pack 0x54000030 [(d.toNat, 18), (a.toNat, 11), (q.toNat, 3), (g.toNat, 0)])
  | .fmax d a q g => some (pack 0x54000040 [(d.toNat, 18), (a.toNat, 11), (q.toNat, 3), (g.toNat, 0)])
  | .fsqrt d a l q g => some (pack 0x56000000 [(d.toNat, 18), (a.toNat, 11), (l.toNat, 7), (q.toNat, 3), (g.toNat, 0)])
  | .frcp d a l q g => some (pack 0x56000010 [(d.toNat, 18), (a.toNat, 11), (l.toNat, 7), (q.toNat, 3), (g.toNat, 0)])
  | .frsq d a l q g => some (pack 0x56000020 [(d.toNat, 18), (a.toNat, 11), (l.toNat, 7), (q.toNat, 3), (g.toNat, 0)])
  | .fexp2 d a l q g => some (pack 0x56000030 [(d.toNat, 18), (a.toNat, 11), (l.toNat, 7), (q.toNat, 3), (g.toNat, 0)])
  | .flog2 d a l q g => some (pack 0x56000040 [(d.toNat, 18), (a.toNat, 11), (l.toNat, 7), (q.toNat, 3), (g.toNat, 0)])
  | .fsin d a l q g => some (pack 0x56000050 [(d.toNat, 18), (a.toNat, 11), (l.toNat, 7), (q.toNat, 3), (g.toNat, 0)])
  | .fcos d a l q g => some (pack 0x56000060 [(d.toNat, 18), (a.toNat, 11), (l.toNat, 7), (q.toNat, 3), (g.toNat, 0)])
  | .ftanh d a l q g => some (pack 0x56000070 [(d.toNat, 18), (a.toNat, 11), (l.toNat, 7), (q.toNat, 3), (g.toNat, 0)])
  | .pkfmaH d a b q g => some (pack 0x58000000 [(d.toNat, 18), (a.toNat, 11), (b.toNat, 4), (q.toNat, 3), (g.toNat, 0)])
  | .pkfmaB d a b q g => some (pack 0x5A000000 [(d.toNat, 18), (a.toNat, 11), (b.toNat, 4), (q.toNat, 3), (g.toNat, 0)])
  | .pkaddH d a q g => some (pack 0x5C000000 [(d.toNat, 18), (a.toNat, 11), (q.toNat, 3), (g.toNat, 0)])
  | .pkmulH d a q g => some (pack 0x5C000010 [(d.toNat, 18), (a.toNat, 11), (q.toNat, 3), (g.toNat, 0)])
  | .pkminH d a q g => some (pack 0x5C000020 [(d.toNat, 18), (a.toNat, 11), (q.toNat, 3), (g.toNat, 0)])
  | .pkmaxH d a q g => some (pack 0x5C000030 [(d.toNat, 18), (a.toNat, 11), (q.toNat, 3), (g.toNat, 0)])
  | .pksubH d a q g => some (pack 0x5C000040 [(d.toNat, 18), (a.toNat, 11), (q.toNat, 3), (g.toNat, 0)])
  | .pkaddB d a q g => some (pack 0x5E000000 [(d.toNat, 18), (a.toNat, 11), (q.toNat, 3), (g.toNat, 0)])
  | .pkmulB d a q g => some (pack 0x5E000010 [(d.toNat, 18), (a.toNat, 11), (q.toNat, 3), (g.toNat, 0)])
  | .pkminB d a q g => some (pack 0x5E000020 [(d.toNat, 18), (a.toNat, 11), (q.toNat, 3), (g.toNat, 0)])
  | .pkmaxB d a q g => some (pack 0x5E000030 [(d.toNat, 18), (a.toNat, 11), (q.toNat, 3), (g.toNat, 0)])
  | .pksubB d a q g => some (pack 0x5E000040 [(d.toNat, 18), (a.toNat, 11), (q.toNat, 3), (g.toNat, 0)])
  | .cvtS32F32 d a q g => some (pack 0x60000000 [(d.toNat, 18), (a.toNat, 11), (q.toNat, 3), (g.toNat, 0)])
  | .cvtU32F32 d a q g => some (pack 0x60000010 [(d.toNat, 18), (a.toNat, 11), (q.toNat, 3), (g.toNat, 0)])
  | .cvtF32S32 d a q g => some (pack 0x60000020 [(d.toNat, 18), (a.toNat, 11), (q.toNat, 3), (g.toNat, 0)])
  | .cvtF32U32 d a q g => some (pack 0x60000030 [(d.toNat, 18), (a.toNat, 11), (q.toNat, 3), (g.toNat, 0)])
  | .cvtF16F32 d a q g => some (pack 0x60000040 [(d.toNat, 18), (a.toNat, 11), (q.toNat, 3), (g.toNat, 0)])
  | .cvtF32F16 d a q g => some (pack 0x60000050 [(d.toNat, 18), (a.toNat, 11), (q.toNat, 3), (g.toNat, 0)])
  | .cvtBf16F32 d a q g => some (pack 0x60000060 [(d.toNat, 18), (a.toNat, 11), (q.toNat, 3), (g.toNat, 0)])
  | .cvtF32Bf16 d a q g => some (pack 0x60000070 [(d.toNat, 18), (a.toNat, 11), (q.toNat, 3), (g.toNat, 0)])
  | .cvtF32F64 d a q g => some (pack 0x62000000 [(d.toNat, 18), (a.toNat, 11), (q.toNat, 3), (g.toNat, 0)])
  | .cvtF64F32 d a q g => some (pack 0x62000010 [(d.toNat, 18), (a.toNat, 11), (q.toNat, 3), (g.toNat, 0)])
  | .unpk d a q g => some (pack 0x62000020 [(d.toNat, 18), (a.toNat, 11), (q.toNat, 3), (g.toNat, 0)])
  | .cvtn d a f c q g => some (pack 0x64000000 [(d.toNat, 18), (a.toNat, 11), (f.toNat, 8), (c.toNat, 4), (q.toNat, 3), (g.toNat, 0)])
  | .cvtw d a f c q g => some (pack 0x66000000 [(d.toNat, 18), (a.toNat, 11), (f.toNat, 8), (c.toNat, 4), (q.toNat, 3), (g.toNat, 0)])
  | .ql8 d r n f c q g => some (pack 0x68000000 [(d.toNat, 18), (r.toNat, 14), (n.toNat, 11), (f.toNat, 8), (c.toNat, 4), (q.toNat, 3), (g.toNat, 0)])
  | .dl8 d a f c q g => some (pack 0x6A000000 [(d.toNat, 18), (a.toNat, 11), (f.toNat, 8), (c.toNat, 4), (q.toNat, 3), (g.toNat, 0)])
  | .xl8 d a f e q g => some (pack 0x6C000000 [(d.toNat, 18), (a.toNat, 11), (f.toNat, 8), (e.toNat, 5), (q.toNat, 3), (g.toNat, 0)])
  | .lxi d a b q g => some (pack 0x6E000000 [(d.toNat, 18), (a.toNat, 11), (b.toNat, 4), (q.toNat, 3), (g.toNat, 0)])
  | .lxm d a b q g => some (pack 0x70000000 [(d.toNat, 18), (a.toNat, 11), (b.toNat, 4), (q.toNat, 3), (g.toNat, 0)])
  | .lxr d a b q g => some (pack 0x72000000 [(d.toNat, 18), (a.toNat, 11), (b.toNat, 4), (q.toNat, 3), (g.toNat, 0)])
  | .lxs d a b q g => some (pack 0x74000000 [(d.toNat, 18), (a.toNat, 11), (b.toNat, 4), (q.toNat, 3), (g.toNat, 0)])
  | .lmask d a q g => some (pack 0x76000000 [(d.toNat, 18), (a.toNat, 11), (q.toNat, 3), (g.toNat, 0)])
  | .lpeer d a q g => some (pack 0x76000010 [(d.toNat, 18), (a.toNat, 11), (q.toNat, 3), (g.toNat, 0)])
  | .compact d a q g => some (pack 0x76000020 [(d.toNat, 18), (a.toNat, 11), (q.toNat, 3), (g.toNat, 0)])
  | .lfirst d a q g => some (pack 0x76000030 [(d.toNat, 18), (a.toNat, 11), (q.toNat, 3), (g.toNat, 0)])
  | .lfoldIadd d a q g => some (pack 0x78000000 [(d.toNat, 18), (a.toNat, 11), (q.toNat, 3), (g.toNat, 0)])
  | .lfoldIminS d a q g => some (pack 0x78000010 [(d.toNat, 18), (a.toNat, 11), (q.toNat, 3), (g.toNat, 0)])
  | .lfoldImaxS d a q g => some (pack 0x78000020 [(d.toNat, 18), (a.toNat, 11), (q.toNat, 3), (g.toNat, 0)])
  | .lfoldAnd d a q g => some (pack 0x78000030 [(d.toNat, 18), (a.toNat, 11), (q.toNat, 3), (g.toNat, 0)])
  | .lfoldOr d a q g => some (pack 0x78000040 [(d.toNat, 18), (a.toNat, 11), (q.toNat, 3), (g.toNat, 0)])
  | .lfoldXor d a q g => some (pack 0x78000050 [(d.toNat, 18), (a.toNat, 11), (q.toNat, 3), (g.toNat, 0)])
  | .lfoldFadd d a q g => some (pack 0x78000060 [(d.toNat, 18), (a.toNat, 11), (q.toNat, 3), (g.toNat, 0)])
  | .lfoldFmax d a q g => some (pack 0x78000070 [(d.toNat, 18), (a.toNat, 11), (q.toNat, 3), (g.toNat, 0)])
  | .pand p a b g => some (pack 0x7A000000 [(p.toNat, 18), (a.toNat, 11), (b.toNat, 4), (g.toNat, 0)])
  | .por p a b g => some (pack 0x7A200000 [(p.toNat, 18), (a.toNat, 11), (b.toNat, 4), (g.toNat, 0)])
  | .pxor p a b g => some (pack 0x7A400000 [(p.toNat, 18), (a.toNat, 11), (b.toNat, 4), (g.toNat, 0)])
  | .pnot p a g => some (pack 0x7A600000 [(p.toNat, 18), (a.toNat, 11), (g.toNat, 0)])
  | .pmov p a g => some (pack 0x7A800000 [(p.toNat, 18), (a.toNat, 11), (g.toNat, 0)])
  | .lany p a g => some (pack 0x7AA00000 [(p.toNat, 18), (a.toNat, 11), (g.toNat, 0)])
  | .lall p a g => some (pack 0x7AC00000 [(p.toNat, 18), (a.toNat, 11), (g.toNat, 0)])
  | .lagree p a g => some (pack 0x7AE00000 [(p.toNat, 18), (a.toNat, 11), (g.toNat, 0)])
  | .lodd p a g => some (pack 0x7B000000 [(p.toNat, 18), (a.toNat, 11), (g.toNat, 0)])
  | .rdfx d q g => some (pack 0x7C000000 [(d.toNat, 18), (q.toNat, 3), (g.toNat, 0)])
  | .wrfx a g => some (pack 0x7C000010 [(a.toNat, 11), (g.toNat, 0)])
  | .clrfx a g => some (pack 0x7C000020 [(a.toNat, 11), (g.toNat, 0)])
  | .sadd d a b => some (pack 0x80000000 [(d.toNat, 19), (a.toNat, 13), (b.toNat, 7)])
  | .ssub d a b => some (pack 0x80000001 [(d.toNat, 19), (a.toNat, 13), (b.toNat, 7)])
  | .smul d a b => some (pack 0x80000002 [(d.toNat, 19), (a.toNat, 13), (b.toNat, 7)])
  | .sand d a b => some (pack 0x80000003 [(d.toNat, 19), (a.toNat, 13), (b.toNat, 7)])
  | .sor d a b => some (pack 0x80000004 [(d.toNat, 19), (a.toNat, 13), (b.toNat, 7)])
  | .sxor d a b => some (pack 0x80000005 [(d.toNat, 19), (a.toNat, 13), (b.toNat, 7)])
  | .sshl d a b => some (pack 0x80000006 [(d.toNat, 19), (a.toNat, 13), (b.toNat, 7)])
  | .sshr d a b => some (pack 0x80000007 [(d.toNat, 19), (a.toNat, 13), (b.toNat, 7)])
  | .ssar d a b => some (pack 0x80000008 [(d.toNat, 19), (a.toNat, 13), (b.toNat, 7)])
  | .smov d a => some (pack 0x80000009 [(d.toNat, 19), (a.toNat, 13)])
  | .scmp d a b c => some (pack 0x80000010 [(d.toNat, 19), (a.toNat, 13), (b.toNat, 7), (c.code, 0)])
  | .ssel d a b => some (pack 0x80000020 [(d.toNat, 19), (a.toNat, 13), (b.toNat, 7)])
  | .saddImm d a i => some (pack 0x82000000 [(d.toNat, 19), (a.toNat, 13), (i.toNat, 0)])
  | .sandImm d a i => some (pack 0x84000000 [(d.toNat, 19), (a.toNat, 13), (i.toNat, 0)])
  | .sorImm d a i => some (pack 0x86000000 [(d.toNat, 19), (a.toNat, 13), (i.toNat, 0)])
  | .sxorImm d a i => some (pack 0x88000000 [(d.toNat, 19), (a.toNat, 13), (i.toNat, 0)])
  | .sshlImm d a n => some (pack 0x8A000000 [(d.toNat, 19), (a.toNat, 13), (n.toNat, 0)])
  | .sshrImm d a n => some (pack 0x8A000040 [(d.toNat, 19), (a.toNat, 13), (n.toNat, 0)])
  | .ssarImm d a n => some (pack 0x8A000080 [(d.toNat, 19), (a.toNat, 13), (n.toNat, 0)])
  | .smovi d i => some (pack 0x8C000000 [(d.toNat, 19), (i.toNat, 0)])
  | .sldc d i => some (pack 0x8E000000 [(d.toNat, 19), (i.toNat, 0)])
  | .sld d a i => some (pack 0x90000000 [(d.toNat, 19), (a.toNat, 13), (i.toNat, 0)])
  | .sst d a i => some (pack 0x92000000 [(d.toNat, 19), (a.toNat, 13), (i.toNat, 0)])
  | .ldB d o b l s r => some (pack 0xA0000000 [(d.toNat, 18), (o.toNat, 11), (b.toNat, 8), (l.toNat, 4), (s.code, 1), (r.toNat, 0)])
  | .ldH d o b l s r => some (pack 0xA2000000 [(d.toNat, 18), (o.toNat, 11), (b.toNat, 8), (l.toNat, 4), (s.code, 1), (r.toNat, 0)])
  | .ldW d o b l s r => some (pack 0xA4000000 [(d.toNat, 18), (o.toNat, 11), (b.toNat, 8), (l.toNat, 4), (s.code, 1), (r.toNat, 0)])
  | .ldD d o b l s r => some (pack 0xA6000000 [(d.toNat, 18), (o.toNat, 11), (b.toNat, 8), (l.toNat, 4), (s.code, 1), (r.toNat, 0)])
  | .ldQ d o b l s r => some (pack 0xA8000000 [(d.toNat, 18), (o.toNat, 11), (b.toNat, 8), (l.toNat, 4), (s.code, 1), (r.toNat, 0)])
  | .stB d o b l s r => some (pack 0xAA000000 [(d.toNat, 18), (o.toNat, 11), (b.toNat, 8), (l.toNat, 4), (s.code, 1), (r.toNat, 0)])
  | .stH d o b l s r => some (pack 0xAC000000 [(d.toNat, 18), (o.toNat, 11), (b.toNat, 8), (l.toNat, 4), (s.code, 1), (r.toNat, 0)])
  | .stW d o b l s r => some (pack 0xAE000000 [(d.toNat, 18), (o.toNat, 11), (b.toNat, 8), (l.toNat, 4), (s.code, 1), (r.toNat, 0)])
  | .stD d o b l s r => some (pack 0xB0000000 [(d.toNat, 18), (o.toNat, 11), (b.toNat, 8), (l.toNat, 4), (s.code, 1), (r.toNat, 0)])
  | .stQ d o b l s r => some (pack 0xB2000000 [(d.toNat, 18), (o.toNat, 11), (b.toNat, 8), (l.toNat, 4), (s.code, 1), (r.toNat, 0)])
  | .ldl d o b l z => some (pack 0xB4000000 [(d.toNat, 18), (o.toNat, 11), (b.toNat, 8), (l.toNat, 4), (z.code, 1)])
  | .ldt d o b l => some (pack 0xB400000A [(d.toNat, 18), (o.toNat, 11), (b.toNat, 8), (l.toNat, 4)])
  | .stl d o b l z => some (pack 0xB6000000 [(d.toNat, 18), (o.toNat, 11), (b.toNat, 8), (l.toNat, 4), (z.code, 1)])
  | .atom d c v b l s r => some (pack 0xB8000000 [(d.toNat, 18), (c.code, 14), (v.toNat, 11), (b.toNat, 8), (l.toNat, 4), (s.code, 1), (r.toNat, 0)])
  | .atomFadd d v b l s r => some (pack 0xB8028000 [(d.toNat, 18), (v.toNat, 11), (b.toNat, 8), (l.toNat, 4), (s.code, 1), (r.toNat, 0)])
  | .atomD d c v b l s r => some (pack 0xBA000000 [(d.toNat, 18), (c.code, 14), (v.toNat, 11), (b.toNat, 8), (l.toNat, 4), (s.code, 1), (r.toNat, 0)])
  | .fxadd d v b l s r => some (pack 0xBA028000 [(d.toNat, 18), (v.toNat, 11), (b.toNat, 8), (l.toNat, 4), (s.code, 1), (r.toNat, 0)])
  | .atoml d o b l c => some (pack 0xBC000000 [(d.toNat, 18), (o.toNat, 11), (b.toNat, 8), (l.toNat, 4), (c.code, 0)])
  | .pref o b l => some (pack 0xBE000000 [(o.toNat, 11), (b.toNat, 8), (l.toNat, 4)])
  | .zfill o b l s r => some (pack 0xBE040000 [(o.toNat, 11), (b.toNat, 8), (l.toNat, 4), (s.code, 1), (r.toNat, 0)])
  | .mma c a s f l r => some (pack 0xC0000000 [(c.toNat, 18), (a.toNat, 11), (s.toNat, 8), (f.toNat, 5), (l.toNat, 1), (r.toNat, 0)])
  | .mmah t a s f l r => some (pack 0xC2000000 [(t.toNat, 18), (a.toNat, 11), (s.toNat, 8), (f.toNat, 5), (l.toNat, 1), (r.toNat, 0)])
  | .mmas c a s f l r => some (pack 0xC4000000 [(c.toNat, 18), (a.toNat, 11), (s.toNat, 8), (f.toNat, 5), (l.toNat, 1), (r.toNat, 0)])
  | .hldReg t a l => some (pack 0xC6000000 [(t.toNat, 18), (a.toNat, 11), (l.toNat, 1)])
  | .hstReg t a l => some (pack 0xC6000020 [(t.toNat, 18), (a.toNat, 11), (l.toNat, 1)])
  | .hldScratch t s l => some (pack 0xC6000040 [(t.toNat, 18), (s.toNat, 8), (l.toNat, 1)])
  | .hstScratch t s l => some (pack 0xC6000060 [(t.toNat, 18), (s.toNat, 8), (l.toNat, 1)])
  | .hzero t l => some (pack 0xC6000080 [(t.toNat, 18), (l.toNat, 1)])
  | .hdrn a b c l => some (pack 0xC8000000 [(a.toNat, 19), (b.toNat, 13), (c.toNat, 7), (l.toNat, 3)])
  | .hdrnMom a b c l => some (pack 0xC8000001 [(a.toNat, 19), (b.toNat, 13), (c.toNat, 7), (l.toNat, 3)])
  | .hdrnSq a b c l => some (pack 0xC8000002 [(a.toNat, 19), (b.toNat, 13), (c.toNat, 7), (l.toNat, 3)])
  | .pilotGt a b c l => some (pack 0xCA000000 [(a.toNat, 19), (b.toNat, 13), (c.toNat, 7), (l.toNat, 3)])
  | .pilotTop a b c l => some (pack 0xCA000001 [(a.toNat, 19), (b.toNat, 13), (c.toNat, 7), (l.toNat, 3)])
  | .mchk a b c l => some (pack 0xCC000000 [(a.toNat, 19), (b.toNat, 13), (c.toNat, 7), (l.toNat, 3)])
  | .vset a b c l => some (pack 0xD0000000 [(a.toNat, 19), (b.toNat, 13), (c.toNat, 7), (l.toNat, 3)])
  | .vbase a b c l => some (pack 0xD0000001 [(a.toNat, 19), (b.toNat, 13), (c.toNat, 7), (l.toNat, 3)])
  | .vinv a l => some (pack 0xD0000002 [(a.toNat, 19), (l.toNat, 3)])
  | .vqry a b c l => some (pack 0xD0000003 [(a.toNat, 19), (b.toNat, 13), (c.toNat, 7), (l.toNat, 3)])
  | .cpy d o b l z => some (pack 0xD2000000 [(d.toNat, 18), (o.toNat, 11), (b.toNat, 8), (l.toNat, 4), (z.code, 1)])
  | .cpym a b c l => some (pack 0xD4000000 [(a.toNat, 19), (b.toNat, 13), (c.toNat, 7), (l.toNat, 3)])
  | .cpyo a b l => some (pack 0xD4000001 [(a.toNat, 19), (b.toNat, 13), (l.toNat, 3)])
  | .cpyrw a b c l => some (pack 0xD4000002 [(a.toNat, 19), (b.toNat, 13), (c.toNat, 7), (l.toNat, 3)])
  | .csig a b l => some (pack 0xD4000003 [(a.toNat, 19), (b.toNat, 13), (l.toNat, 3)])
  | .spawn d a b g => some (pack 0xD6000000 [(d.toNat, 18), (a.toNat, 11), (b.toNat, 4), (g.toNat, 0)])
  | .park d a b g => some (pack 0xD8000000 [(d.toNat, 18), (a.toNat, 11), (b.toNat, 4), (g.toNat, 0)])
  | .bflush a l => some (pack 0xDA000000 [(a.toNat, 19), (l.toNat, 3)])
  | .cvoy a b c l => some (pack 0xDA000001 [(a.toNat, 19), (b.toNat, 13), (c.toNat, 7), (l.toNat, 3)])
  | .cvqry a c l => some (pack 0xDA000002 [(a.toNat, 19), (c.toNat, 7), (l.toNat, 3)])
  | .bra p n o => some (pack 0xE0000000 [(p.toNat, 22), (n.toNat, 21), (o.toNat, 0)])
  | .call p n o => some (pack 0xE2000000 [(p.toNat, 22), (n.toNat, 21), (o.toNat, 0)])
  | .jmp s => some (pack 0xE4000000 [(s.toNat, 19)])
  | .callr s => some (pack 0xE6000000 [(s.toNat, 19)])
  | .nop => some (pack 0xE8000000 [])
  | .ret => some (pack 0xE8000001 [])
  | .exit => some (pack 0xE8000002 [])
  | .yield => some (pack 0xE8000003 [])
  | .bkpt c => some (pack 0xE8000004 [(c.toNat, 7)])
  | .trap c => some (pack 0xE8000005 [(c.toNat, 7)])
  | .meld a b => some (pack 0xE8000006 [(a.toNat, 13), (b.toNat, 7)])
  | .mset p s => some (pack 0xE8000007 [(p.toNat, 19), (s.toNat, 13)])
  | .mend => some (pack 0xE8000008 [])
  | .bar n s => some (pack 0xEA000000 [(n.toNat, 19), (s.toNat, 13)])
  | .bara n s => some (pack 0xEA000001 [(n.toNat, 19), (s.toNat, 13)])
  | .barw n s => some (pack 0xEA000002 [(n.toNat, 19), (s.toNat, 13)])
  | .gbar => some (pack 0xEA000003 [])
  | .fence o c => some (pack 0xEA000004 [(o.code, 22), (c.code, 19)])
  | .cinv c => some (pack 0xEA000005 [(c.code, 19)])
  | .waitc s => some (pack 0xEA000006 [(s.toNat, 13)])
  | .shw d a g => some (pack 0xEC000000 [(d.toNat, 18), (a.toNat, 11), (g.toNat, 0)])
  | .shrWindow d a g => some (pack 0xEC000010 [(d.toNat, 18), (a.toNat, 11), (g.toNat, 0)])
  | .shp d a g => some (pack 0xEC000020 [(d.toNat, 18), (a.toNat, 11), (g.toNat, 0)])
  | .rdsr s r => some (pack 0xF0000000 [(s.toNat, 19), (r.toNat, 7)])
  | .wrsr s r => some (pack 0xF0000001 [(s.toNat, 19), (r.toNat, 7)])
  | .rdclk s => some (pack 0xF0000002 [(s.toNat, 19)])
  | .errq s => some (pack 0xF0000003 [(s.toNat, 19)])
  | .imml p => some (pack 0xF8000000 [(p.toNat, 0)])
  | .immh p => some (pack 0xFA000000 [(p.toNat, 0)])
  | .modArith r s n a => some (pack 0xFC000000 [(r.toNat, 21), (s.toNat, 19), (n.toNat, 16), (a.toNat, 13)])
  | .modOffset o => some (pack 0xFC800000 [(o.toNat, 0)])
  | .modCounter s i => some (pack 0xFD000000 [(s.code, 20), (i.toNat, 0)])
  | .modLane p n f => some (pack 0xFD800000 [(p.toNat, 20), (n.toNat, 19), (f.toNat, 0)])
  | .sched o d => some (pack 0xFE000000 [(o.toNat, 4), (d.toNat, 0)])
  | .loadDataReturn _ => none
  | .atomicReturn _ => none
  | .parkedLaneResume _ _ _ _ => none
  | .mmaComplete _ => none
  | .lineLands _ _ _ => none
  | .copyCommandComplete _ => none
  | .hdrnComplete _ => none
  | .pilotComplete _ => none
  | .mchkComplete _ => none
  | .collectiveComplete _ => none
  | .convoyFlitReceive _ => none
  | .berthTimerExpiry _ _ => none
  | .berthIdleLaunch _ _ => none
  | .berthGroupLaunch _ _ => none
  | .ringDrain _ _ => none
  | .groupAged _ _ _ => none
  | .groupRelease _ _ _ => none
  | .teamRelease _ => none
  | .compaction _ => none
  | .faultReport _ _ => none
  | .teamPlace _ => none
  | .reservationClaim _ => none
  | .preemptSave _ => none
  | .teamRestore _ => none
  | .launchComplete _ => none
  | .launchReplay _ => none
  | .queueSubmit _ _ => none
  | .launchNode _ _ => none
  | .copyNode _ _ => none
  | .cvoyNode _ _ => none
  | .condNode _ _ => none
  | .whileNode _ _ => none
  | .signalSubtract _ _ => none
  | .signalSet _ _ => none
  | .waitNode _ _ => none
  | .snapshotTake _ _ => none
  | .snapshotRestore _ _ => none
  | .snapshotDiscard _ _ => none
  | .invpt _ => none
  | .fresumeRetry _ => none
  | .fresumeAbandon _ => none
  | .qresume _ => none
  | .qabort _ => none
  | .gresumeRetry _ => none
  | .gresumeSkip _ => none
  | .gresumeAbort _ => none
  | .vinvall _ => none
  | .contextCreate _ => none
  | .contextDestroy _ => none
  | .ctxerrClear _ => none
  | .nodeidWrite _ => none
  | .portstatRead _ => none
  | .go2 _ => none
  | .registerWrite _ _ => none
  | .telem => none
  | .ppr => none
  | .retire => none
  | .fwstore => none
  | .powerGood => none
  | .powerOff => none
  | .stage1TrainingDone _ _ => none
  | .cuSelfTestDone _ _ => none
  | .portTrainingDone _ _ => none
  | .groupWatchdogExpiry _ _ _ => none
  | .cuWatchdogExpiry _ => none
  | .harbourmasterWatchdogExpiry _ => none
  | .eccCorrected _ => none
  | .eccUncorrectableDetected _ => none
  | .flitCheckFail _ _ => none
  | .refetch _ _ => none
  | .errorWindowClose _ _ => none
  | .errorRecordWrite _ => none
  | .powerLimitChange _ _ => none
  | .thermalShutdown => none
  | .hostMemRead _ _ => none
  | .hostMemWrite _ _ => none
  | .hostSnoop _ => none
  | .remoteRequest _ => none
  | .packetForward _ _ => none
  | .undefinedEncoding _ => none
  | .instructionFetchFault => none
  | .viewCommandComplete _ => none
  | .lastSourceRead _ => none
  | .malformedNode _ _ => none
  | .malformedCommand _ => none
  | .malformedMailboxCommand => none

/-- The four bytes of a word as they lie in memory, lowest address first (R85). -/
def wordBytes (w : Nat) : List Byte :=
  [bits w 0 8, bits w 8 8, bits w 16 8, bits w 24 8]

/-- The word of four bytes in memory, lowest address first (R85). -/
def wordOfBytes (bs : List Byte) : Word :=
  BitVec.ofNat 32 (bs.foldr (fun b n => b.toNat + 256 * n) 0)

/-- The decoder's answer for an instruction of the opcode table, whose `nbits` bits are `w`. Every
instruction word has 32 bits; the events of the table have none, and no word decodes to them. -/
def decodeTableWord (nbits w : Nat) : Option Instr :=
  if nbits = 0 || 32 < nbits then none
  else (decode (wordOfBytes (wordBytes (w % 2 ^ nbits)))).toOption

end Sys2Proof
end

