-- ==== Sys2Proof/Machine/Memory.lean ====
section
/-!
DEFINITION. Physical memory with its poison marks, zero flags, retired pages and preserved pages (R303,
R304, R433, R443, R449), the translation of virtual addresses (R393 to R397, R412), and the L1 (R301).
-/
namespace Sys2Proof.Machine

/-- The bytes of a memory space (R303, R394, R412). -/
def State.memOf (s : State) : Space → Mem
  | .dram => s.dram
  | .host => s.hostMem
  | .peer n => ((s.peers.find? (·.node == n)).map (·.mem)).getD []
  | .peerHost n => ((s.peers.find? (·.node == n)).map (·.hostMem)).getD []

/-- The poisoned sectors of a memory space (R433). -/
def State.badOf (s : State) : Space → List Nat
  | .dram => s.dramBad
  | .host => s.hostBad
  | .peer n => ((s.peers.find? (·.node == n)).map (·.bad)).getD []
  | .peerHost n => ((s.peers.find? (·.node == n)).map (·.hostBad)).getD []

/-- Replace the bytes and the marks of a memory space. -/
def State.withMem (s : State) (sp : Space) (m : Mem) (bad : List Nat) : State :=
  match sp with
  | .dram => { s with dram := m, dramBad := bad }
  | .host => { s with hostMem := m, hostBad := bad }
  | .peer n => { s with peers := updFirst (·.node == n) (fun p => { p with mem := m, bad := bad }) s.peers }
  | .peerHost n => { s with peers := updFirst (·.node == n) (fun p => { p with hostMem := m, hostBad := bad }) s.peers }

/-- A retired page holds the address (R449). -/
def State.isRetired (s : State) (p : PAddr) : Bool :=
  p.space == .dram && s.retired.contains (p.addr / 4096)

/-- Bytes at a physical address and whether a sector of them carries a mark (R433, R449). -/
def State.loadPhys (s : State) (p : PAddr) (n : Nat) : List Byte × Bool :=
  ((s.memOf p.space).read p.addr n, s.isRetired p || marked (s.badOf p.space) p.addr n)

/-- Zero flags after a write of device DRAM: a sector that takes a nonzero byte loses its flag (R304). -/
def zeroAfter (flags : List Nat) (a : Nat) (bs : List Byte) : List Nat :=
  flags.filter fun sct =>
    !(overlap sct 32 a bs.length && ((bs.zipIdx).any fun (b, i) => b != 0 && (a + i) / 32 * 32 == sct))

/-- Write bytes that lie in one page, with the mark of the data (R304, R433); retired pages drop them (R449). -/
def State.putPhys (s : State) (p : PAddr) (bs : List Byte) (dataBad : Bool) : State :=
  if s.isRetired p then s
  else
    let s1 := s.withMem p.space ((s.memOf p.space).write p.addr bs) (markWrite (s.badOf p.space) p.addr bs.length dataBad)
    if p.space = .dram then { s1 with zeroFlags := zeroAfter s.zeroFlags p.addr bs } else s1

/-- Copy one 4 KiB page with its marks and zero flags (R443, R446); a retired page reads as poisoned and takes no write
(R449). -/
def State.copyPage (s : State) (src dst : PAddr) : State :=
  if s.isRetired dst then s
  else
    let marks := ((sectorsOf src.addr 4096).filter fun x => s.isRetired src || marked (s.badOf src.space) x 32).map fun x =>
      x - src.addr + dst.addr
    let kept := (s.badOf dst.space).filter fun x => !(overlap x 32 dst.addr 4096)
    let s1 := s.withMem dst.space ((s.memOf dst.space).write dst.addr ((s.memOf src.space).read src.addr 4096))
      (marks.foldl insertNat kept)
    let keptZ := s.zeroFlags.filter fun x => !(dst.space == .dram && overlap x 32 dst.addr 4096)
    let zs := if src.space = .dram && dst.space = .dram then
        (s.zeroFlags.filter fun x => overlap x 32 src.addr 4096).map fun x => x - src.addr + dst.addr else []
    { s1 with zeroFlags := zs.foldl insertNat keptZ }

/-- After a preservation the contents of SHADOW are unspecified (R443): every byte of a shadow page becomes a free value
(log 108), but for a page that is retired (R449). -/
def State.loseShadow (s : State) (p : PAddr) : State :=
  if s.isRetired p then s
  else
    let bs := (List.range 4096).map fun k => Config.freeByte (s.free + k)
    let s1 := s.withMem p.space ((s.memOf p.space).write p.addr bs) (s.badOf p.space)
    let zs := if p.space = .dram then zeroAfter s.zeroFlags p.addr bs else s.zeroFlags
    { s1 with zeroFlags := zs, free := s.free + 4096 }

/-- The shadow pages of a preservation that ends. -/
def State.loseShadows (s : State) (v : Preserve) : State := v.pages.foldl (fun t g => t.loseShadow g.shadow) s

/-- A preserved page that this write is about to change for the first time (R443). -/
def PageCopy.due (c : PageCopy) (p : PAddr) (n : Nat) : Bool :=
  !c.copied && c.page.space == p.space && overlap c.page.addr 4096 p.addr n

/-- The preserved pages of the module that are due. -/
def State.duePages (s : State) (p : PAddr) (n : Nat) : List PageCopy :=
  s.ctxs.flatMap fun c => c.preserves.flatMap fun v => v.pages.filter (·.due p n)

/-- Copy every preserved page that a write is about to change, before it takes effect (R443). -/
def State.preserveFor (s : State) (p : PAddr) (n : Nat) : State :=
  match s.duePages p n with
  | [] => s
  | due =>
    let s1 := due.foldl (fun t c => t.copyPage c.page c.shadow) s
    { s1 with ctxs := s1.ctxs.map fun c => { c with preserves := c.preserves.map fun v =>
        { v with pages := v.pages.map fun g => if g.due p n then { g with copied := true } else g } } }

/-- A write by any agent to memory (R304, R433, R443, R449). -/
def State.storePhys (s : State) (p : PAddr) (bs : List Byte) (dataBad : Bool) : State :=
  if bs.isEmpty then s else (s.preserveFor p bs.length).putPhys p bs dataBad

/-! ### Translation -/

/-- What an access asks of its page (R396). -/
inductive Access where
  | read
  | write
  | atomic
  | fetch
  deriving DecidableEq, Repr

/-- ACCESS code of the fault queue (R398). -/
def Access.code : Access → Nat
  | .read => 0
  | .write => 1
  | .atomic => 2
  | .fetch => 3

/-- What a translation gives: a physical address, a fault of a cause of R398, or a poisoned table (R434). -/
inductive Xl where
  | ok (p : PAddr)
  | fault (cause : Nat)
  | poison
  deriving DecidableEq, Repr

/-- What a walk gives: a leaf entry and its page size, a fault, or a poisoned entry. -/
inductive Walked where
  | leaf (pte size : Nat)
  | fault (cause : Nat)
  | poison
  deriving DecidableEq, Repr

/-- A valid entry at a level is malformed (R394); `self` is the node of the module that walks. -/
def pteMalformed (self level e : Nat) : Bool :=
  let leaf := bitOf e 8
  let rmt := bitOf e 63
  let node := field e 51 12
  let tgt := field e 10 2
  let p64 := bitOf e 9
  let pa := field e 12 36 * 4096
  let size := if level = 2 then 2 ^ 30 else if level = 1 then 2 ^ 21 else if p64 then 65536 else 4096
  field e 48 3 != 0 || field e 5 3 != 0 || field e 1 2 != 0 || 2 ≤ tgt ||
  (!leaf && (rmt || node != 0 || tgt != 0 || p64 || bitOf e 4 || bitOf e 3)) ||
  (leaf && 3 ≤ level) || (!leaf && level == 0) || (p64 && level != 0) ||
  (leaf && pa % size != 0) ||
  (leaf && tgt == 0 && !rmt && 0xC000000000 < pa + size) ||
  (rmt && (tgt != 0 || node == self)) || (leaf && !rmt && node != 0)

/-- The walk from the table of level `l - 1` at `table` (R393, R395, R434); `rd` reads an 8-byte entry,
zero where no memory is (log 141). -/
def walk (rd : Nat → Option Nat) (self va : Nat) : Nat → Nat → Walked
  | 0, _ => .fault 4
  | l + 1, table =>
    let at_ := table + 8 * field va (12 + 9 * l) 9
    match rd at_ with
    | none => .poison
    | some e =>
      if !bitOf e 0 then .fault 1
      else if pteMalformed self l e then .fault 4
      else if !bitOf e 8 then walk rd self va l (field e 12 36 * 4096)
      else if bitOf e 9 then
        let es := (List.range 16).map fun i => rd (at_ / 128 * 128 + 8 * i)
        if es.any (·.isNone) then .poison else if es.all (· == some e) then .leaf e 65536 else .fault 4
      else .leaf e (2 ^ (12 + 9 * l))

/-- An 8-byte table entry of a memory space; none when a mark covers it. -/
def State.tableWord (s : State) (sp : Space) (a : Nat) : Option Nat :=
  let r := s.loadPhys ⟨sp, a⟩ 8
  if r.2 then none else some (leNat r.1)

/-- Ports of ROUTE k that are trained (R411, R426). -/
def State.routePorts (s : State) (k : Nat) : List Nat :=
  match lookupKey s.bar0.route k with
  | none => []
  | some e => if bitOf e 31 then (List.range 24).filter fun p => bitOf e p && bitOf s.linkReady.toNat p else []

/-- Node `k` can be reached (R411). -/
def State.reachable (s : State) (k : Nat) : Bool :=
  !(s.routePorts k).isEmpty && s.peers.any (·.node == k)

/-- The physical address that a leaf gives, with the permission check of R396 and the far checks of R412. -/
def State.leafAddr (s : State) (acc : Access) (va pte size : Nat) : Xl :=
  let a := field pte 12 36 * 4096 + va % size
  if (acc = .write || acc = .atomic) && !bitOf pte 3 then .fault 2
  else if acc = .fetch && !bitOf pte 4 then .fault 3
  else if bitOf pte 63 then
    if !s.reachable (field pte 51 12) then .fault 5
    else if 0xC000000000 ≤ a then .fault 7
    else .ok ⟨.peer (field pte 51 12), a⟩
  else .ok ⟨if field pte 10 2 = 1 then .host else .dram, a⟩

/-- The context `n`, if it lives. -/
def State.ctx? (s : State) (n : Nat) : Option Ctx := s.ctxs.find? (·.id == n)

/-- Translate for a unit (a CU, or 256 + base die): its translation cache first, then a walk (R393 to R397). -/
def State.translate (s : State) (unit ctx va : Nat) (acc : Access) : Xl :=
  match s.tlb.find? fun t => t.unit == unit && t.ctx == ctx && t.va ≤ va && va < t.va + t.size with
  | some t => s.leafAddr acc va t.pte t.size
  | none =>
    match s.ctx? ctx with
    | none => .fault 1
    | some c =>
      match walk (s.tableWord .dram) s.bar0.nodeid va 5 c.desc.ptroot with
      | .leaf pte size => s.leafAddr acc va pte size
      | .fault k => .fault k
      | .poison => .poison

/-- What the translation of an address of a view gives: a physical address, a fault with whether the far module reports it
(R412), or a poisoned table. -/
inductive ViewXl where
  | ok (p : PAddr)
  | fault (cause : Nat) (far : Bool)
  | poison
  deriving DecidableEq, Repr

/-- The outcome of a translation on this module. -/
def Xl.near : Xl → ViewXl
  | .ok p => .ok p
  | .fault k => .fault k false
  | .poison => .poison

/-- The physical address that a leaf of a far module's table gives (R394, R396, R412): its DRAM, its host's memory, or, where
RMT = 1, the DRAM of the node that the leaf names, which the far module reaches where it exists (log 110). -/
def State.farLeaf (s : State) (node : Nat) (acc : Access) (va pte size : Nat) : ViewXl :=
  let a := field pte 12 36 * 4096 + va % size
  let k := field pte 51 12
  if (acc = .write || acc = .atomic) && !bitOf pte 3 then .fault 2 true
  else if bitOf pte 63 then
    if k ≠ s.bar0.nodeid ∧ !s.peers.any (·.node == k) then .fault 5 true
    else if 0xC000000000 ≤ a then .fault 7 true
    else .ok ⟨if k = s.bar0.nodeid then .dram else .peer k, a⟩
  else .ok ⟨if field pte 10 2 = 1 then .peerHost node else .peer node, a⟩

/-- Translate an address of the matching context of a far module (R412): causes 5 and 6 on the way to it are this module's. -/
def State.translateFar (s : State) (ctx node va : Nat) (acc : Access) : ViewXl :=
  match s.ctx? ctx with
  | none => .fault 1 false
  | some c =>
    if !s.reachable node then .fault 5 false
    else if !bitOf c.desc.fabtag 15 then .fault 6 false
    else
      match s.peers.find? (·.node == node) with
      | none => .fault 5 false
      | some p =>
        match p.ctxs.find? (·.tag == field c.desc.fabtag 0 12) with
        | none => .fault 6 false
        | some pc =>
          match walk (s.tableWord (.peer node)) node va 5 pc.ptroot with
          | .fault k => .fault k true
          | .poison => .poison
          | .leaf pte size => s.farLeaf node acc va pte size

/-! ### L1 -/

/-- The CU with a logical number, if it has state. -/
def State.cu? (s : State) (n : Nat) : Option Cu := s.cus.find? (·.num == n)

/-- Change the state of a CU. -/
def State.updCu (s : State) (n : Nat) (f : Cu → Cu) : State :=
  { s with cus := updFirst (·.num == n) f s.cus }

/-- A scope that the L1 serves (R169). -/
def servedByL1 (sc : Scope) : Bool :=
  match sc with
  | .thread | .group | .team | .unit => true
  | .die | .module | .pod | .system => false

/-- The sector of an address. -/
def PAddr.sector (p : PAddr) : PAddr := ⟨p.space, p.addr / 32 * 32⟩

/-- Discard the L1 of a CU (R302). -/
def State.clearL1 (s : State) (cu : Nat) : State := s.updCu cu fun c => { c with l1 := [] }

/-- Discard the L1 of a CU where an acquire at DIE scope or wider stands (R182, R332). -/
def State.acquire (s : State) (cu : Nat) (sc : Scope) : State := if servedByL1 sc then s else s.clearL1 cu

/-- Host memory of another module. -/
def Space.isPeerHost : Space → Bool
  | .peerHost _ => true
  | _ => false

/-- A thread load of bytes within one sector, at a scope (R169, R301): the bytes, their mark, and the machine after the L1 was
filled, refreshed or, where a line holds poison, discarded (R302). A load at DIE scope or wider leaves no copy but that of
its own sector, since a later access may derive from it (R331, R336; log 111). A line of another module's host memory leaves no copy
(R407). -/
def State.loadCached (s : State) (cu : Nat) (sc : Scope) (p : PAddr) (n : Nat) : List Byte × Bool × State :=
  let sec := p.sector
  let fresh := s.loadPhys sec 32
  let cut := fun (bs : List Byte) => (bs.drop (p.addr % 32)).take n
  match s.cu? cu with
  | none => (cut fresh.1, fresh.2, s)
  | some c =>
    match c.l1.find? (·.at_ == sec) with
    | some h =>
      if servedByL1 sc then (cut h.data, h.bad, if h.bad then s.clearL1 cu else s)
      else (cut fresh.1, fresh.2, s.updCu cu fun c => { c with l1 := if fresh.2 then [] else [⟨sec, fresh.1, false⟩] })
    | none =>
      if !servedByL1 sc then (cut fresh.1, fresh.2, s.clearL1 cu)
      else if c.split < 8 && !fresh.2 && !p.space.isPeerHost then
        (cut fresh.1, fresh.2, s.updCu cu fun c => { c with l1 := ⟨sec, fresh.1, false⟩ :: c.l1 })
      else (cut fresh.1, fresh.2, s)

/-- Overwrite part of a byte string. -/
def patch (data : List Byte) (off : Nat) (bs : List Byte) : List Byte :=
  data.take off ++ bs ++ data.drop (off + bs.length)

/-- A copy of a sector after a store to it: a store of the whole sector clears its mark (R301, R433). -/
def L1Sector.store (h : L1Sector) (off : Nat) (bs : List Byte) : L1Sector :=
  { h with data := patch h.data off bs, bad := h.bad && bs.length < 32 }

/-- A thread store within one sector: through the L1 to memory, an L1 copy updated (R169, R301). -/
def State.storeCached (s : State) (cu : Nat) (p : PAddr) (bs : List Byte) : State :=
  (s.storePhys p bs false).updCu cu fun c => { c with l1 := updFirst (·.at_ == p.sector) (·.store (p.addr % 32) bs) c.l1 }

/-- An acquire at MODULE scope on several CUs (R332). -/
def State.acquireOn (s : State) (cus : List Nat) : State := cus.foldl (fun t u => t.acquire u .module) s

/-- An atomic discards the issuing CU's L1 copy of its sector (R301). -/
def State.dropL1 (s : State) (cu : Nat) (p : PAddr) : State :=
  s.updCu cu fun c => { c with l1 := c.l1.filter (·.at_ != p.sector) }

end Sys2Proof.Machine
end

