-- ==== Sys2Proof/Machine/Reserve.lean ====
section
/-!
DEFINITION. The order of waiting launches and the reservation (R376 to R378): eligible CUs, queue order, claimants, what a
holder claims, and how a released reservation passes on.
-/
namespace Sys2Proof.Machine

/-- The physical CU behind a logical number: a spare where one takes its position (R2, R425). -/
def State.physicalCu (s : State) (u : Nat) : Nat := (lookupKey s.spares u).getD u

/-- The logical number of a physical CU (R2, R425). -/
def State.logicalCu (s : State) (p : Nat) : Option Nat := (List.range 256).find? fun u => s.physicalCu u == p

/-- Priority of a launch's queue (R262, R385). -/
def State.prioOf (s : State) (l : Launch) : Nat := (((s.ctx? l.ctx).bind fun c => c.queues[l.queue]?).map (·.entry.prio)).getD 0

/-- The launch waits for a team to be placed (R378). -/
def Launch.waits (l : Launch) : Bool := l.stop.isNone && l.nextTeam < l.hdr.total

/-- A resident launch (R370). -/
def Launch.resident (l : Launch) : Bool := bitOf l.hdr.flags 0

/-- A reservation of another launch holds the CU (R376, R377). -/
def State.reservedFrom (s : State) (l : Launch) (cu : Nat) : Bool := s.reservation.any fun r => r.launch != l.id && r.cus.contains cu

/-- A CU is eligible for a launch (R376). -/
def State.eligible (s : State) (l : Launch) (cu : Nat) : Bool :=
  bitOf l.mask cu && s.cuReady.contains cu && !s.reservedFrom l cu && s.teams.all fun t => t.cu != cu || t.ctx == l.ctx

/-- The (context, queue) pair of a launch comes after the pair of its priority that was served last (R378). -/
def State.servedLater (s : State) (l : Launch) : Bool :=
  match s.served.find? (·.1 == s.prioOf l) with
  | some (_, c, q) => c < l.ctx || (c == l.ctx && q < l.queue)
  | none => true

/-- Queue order (R378): priority, then the rotation over (context, queue) pairs, then the order of the starts. -/
def State.queueRank (s : State) (l : Launch) : List Nat :=
  [8 - s.prioOf l, if s.servedLater l then 0 else 1, l.ctx, l.queue, l.id]

/-- A rank is not greater. -/
def rankLe : List Nat → List Nat → Bool
  | a :: as, b :: bs => a < b || (a == b && rankLe as bs)
  | _, _ => true

/-- No launch that comes first in queue order satisfies `p` (R378). -/
def State.firstWith (s : State) (l : Launch) (p : Launch → Bool) : Bool :=
  s.launches.all fun m => m.id == l.id || rankLe (s.queueRank l) (s.queueRank m) || !p m

/-- How many CUs a launch claims: enough for its grid, or one where it is not resident (R377, R378). -/
def Header.claimSize (h : Header) (resident : Bool) : Nat :=
  let cap := h.capacity
  if cap = 0 then 0 else ((if resident then h.total else 1) + cap - 1) / cap

/-- CUs that a launch claims: those that it holds, then eligible ones in ascending number, until their capacities cover what it
needs (R377, R378). -/
def State.claimCus (s : State) (l : Launch) (held : List Nat) : List Nat :=
  let more := (List.range 256).filter fun u => !held.contains u && (s.cu? u).isSome && s.eligible l u
  held ++ more.take (l.hdr.claimSize l.resident - held.length)

/-- The ready CUs of the mask cover the grid, so that the launch waits for no self-test (R377). -/
def State.gridCovered (s : State) (l : Launch) : Bool :=
  l.hdr.total ≤ l.hdr.capacity * (s.cuReady.filter (bitOf l.mask)).length

/-- A claimant (R377, R378). -/
def State.claimant (s : State) (l : Launch) : Bool := l.waits && if l.resident then s.gridCovered l else l.claims

/-- A free reservation goes to the claimant that comes first in queue order (R378). -/
def State.passReservation (s : State) : State :=
  match s.reservation with
  | some _ => s
  | none => match s.launches.find? fun l => s.claimant l && s.firstWith l s.claimant with
    | none => s
    | some l => { s with reservation := some ⟨l.id, s.claimCus l []⟩ }

/-- The holder gives its reservation up, and it passes on (R378). -/
def State.endReservation (s : State) (lid : Nat) : State :=
  if (s.reservation.map (·.launch)) = some lid then State.passReservation { s with reservation := none } else s

end Sys2Proof.Machine
end

