-- ==== Sys2Proof/Machine/ViewMap.lean ====
section
/-!
DEFINITION. View descriptors and the map from a view offset to base bytes (R306 to R318): layout and
checks of a descriptor, coordinates, the index vector, padding, and the sample that an issue takes.
-/
namespace Sys2Proof.Machine

/-- The descriptor in a 128-byte image (R307). -/
def viewOfBytes (bs : List Byte) : ViewDesc :=
  { base := numAt bs 0 8, version := BitVec.ofNat 32 (numAt bs 8 4), ctrl := BitVec.ofNat 32 (numAt bs 12 4),
    layout := BitVec.ofNat 64 (numAt bs 16 8),
    ext := (List.range 6).map fun i => numAt bs (24 + 4 * i) 4,
    baseExt := (List.range 6).map fun i => numAt bs (48 + 4 * i) 4,
    stride := (List.range 6).map fun i => signed 64 (numAt bs (72 + 8 * i) 8),
    gidx := numAt bs 120 8 }

/-- CTRL and LAYOUT fields (R308, R309). -/
def ViewDesc.node (d : ViewDesc) : Nat := field d.ctrl.toNat 20 12
def ViewDesc.valid (d : ViewDesc) : Bool := bitOf d.ctrl.toNat 19
def ViewDesc.remote (d : ViewDesc) : Bool := bitOf d.ctrl.toNat 18
def ViewDesc.readOnly (d : ViewDesc) : Bool := bitOf d.ctrl.toNat 17
def ViewDesc.pad (d : ViewDesc) : Nat := field d.ctrl.toNat 15 2
def ViewDesc.rank (d : ViewDesc) : Nat := field d.ctrl.toNat 12 3
def ViewDesc.esz (d : ViewDesc) : Nat := field d.ctrl.toNat 9 3
def ViewDesc.gdim (d : ViewDesc) : Nat := field d.ctrl.toNat 6 3
def ViewDesc.gran (d : ViewDesc) : Nat := field d.ctrl.toNat 3 3
def ViewDesc.tile (d : ViewDesc) : Bool := bitOf d.ctrl.toNat 2
def ViewDesc.imode (d : ViewDesc) : Nat := field d.layout.toNat 51 2
def ViewDesc.tl (d : ViewDesc) (i : Nat) : Nat := field d.layout.toNat (18 + 4 * i) 4
def ViewDesc.perm (d : ViewDesc) (i : Nat) : Nat := field d.layout.toNat (3 * i) 3
def ViewDesc.e (d : ViewDesc) (i : Nat) : Nat := d.ext.getD i 0
def ViewDesc.x (d : ViewDesc) (i : Nat) : Nat := d.baseExt.getD i 0

/-- ID0, ID1 and ID2 (R309). -/
def ViewDesc.id (d : ViewDesc) (k : Nat) : Nat := field d.layout.toNat (42 + 3 * k) 3

/-- The interleaved logical dimensions, as the descriptor names them (R309). -/
def ViewDesc.inter (d : ViewDesc) : List Nat :=
  if d.imode = 2 then [d.id 0, d.id 1] else if d.imode = 3 then [d.id 0, d.id 1, d.id 2] else []

/-- Elements of the logical extent. -/
def ViewDesc.count (d : ViewDesc) : Nat := ((List.range d.rank).map d.e).foldl (· * ·) 1

/-- BASE meets R310 for this descriptor (also the check of VBASE, R185). -/
def ViewDesc.baseOk (d : ViewDesc) (base : Nat) : Bool :=
  canonical base && !isView base && base % 2 ^ d.esz == 0

/-- The checks of R310 on a descriptor with VALID = 1; `self` is the module's node. -/
def ViewDesc.checks (self : Nat) (d : ViewDesc) : Bool :=
  let n := d.rank
  let below := List.range n
  let above := (List.range 6).filter fun i => n ≤ i
  let isPow2 := fun (v : Nat) => v == 2 ^ Nat.log2 v
  field d.ctrl.toNat 0 2 == 0 && field d.layout.toNat 53 11 == 0 &&
  above.all (fun i => d.e i == 0 && d.x i == 0 && (d.stride.getD i 0) == 0 && d.tl i == 0 && d.perm i == 0) &&
  1 ≤ n && n ≤ 6 && d.esz ≤ 4 && d.pad != 3 && d.imode != 1 &&
  (d.gran == 0 || d.gran == 2 || d.gran == 3 || d.gran == 4) &&
  (d.gdim == 7 || d.gdim < n) &&
  below.all (fun i => d.perm i < n) && below.all (fun j => below.any fun i => d.perm i == j) &&
  below.all (fun i => d.e i != 0 && d.x i != 0) &&
  d.count * 2 ^ d.esz ≤ 2 ^ 40 &&
  (if d.tile then below.all (fun i => d.e i % 2 ^ d.tl i == 0) && d.imode == 0
   else (List.range 6).all fun i => d.tl i == 0) &&
  d.inter.all (fun i => i < n && isPow2 (d.e i)) && d.inter.Nodup &&
  (3 ≤ d.imode || d.id 2 == 0) && (2 ≤ d.imode || (d.id 0 == 0 && d.id 1 == 0)) &&
  d.baseOk d.base &&
  (if d.gdim = 7 then d.gidx == 0 else canonical d.gidx && !isView d.gidx && d.gidx % 4 == 0) &&
  (if d.remote then d.node != self else d.node == 0)

/-- A configured entry (R310). -/
def ViewDesc.configured (self : Nat) (d : ViewDesc) : Bool := d.valid && d.checks self

/-- Row-major coordinates of an element, last dimension fastest; `exts` is reversed. -/
def rowMajor : List Nat → Nat → List Nat
  | [], _ => []
  | e :: es, u => u % e :: rowMajor es (u / e)

/-- Coordinates under tiles (R311): inside the tile by `u`, of the tile by `t`; dimensions reversed. -/
def tiled : List (Nat × Nat) → Nat → Nat → List Nat
  | [], _, _ => []
  | (e, l) :: r, t, u =>
    let nt := e / 2 ^ l
    (t % nt * 2 ^ l + u % 2 ^ l) :: tiled r (t / nt) (u / 2 ^ l)

/-- One round of Morton decoding: bit `r` of each interleaved dimension that still has bits (R311). -/
def mortonRound (r : Nat) : List (Nat × Nat) → Nat → List Nat → Nat × List Nat
  | [], z, c => (z, c)
  | (dim, lg) :: ds, z, c =>
    if r < lg then mortonRound r ds (z / 2) (c.set dim (c.getD dim 0 + z % 2 * 2 ^ r)) else mortonRound r ds z c

/-- Morton decoding over the interleaved dimensions, fastest first (R311). -/
def morton (ds : List (Nat × Nat)) : Nat → Nat → Nat → List Nat → List Nat
  | 0, _, _, c => c
  | n + 1, r, z, c => let (z', c') := mortonRound r ds z c; morton ds n (r + 1) z' c'

/-- Logical coordinates of a view offset, and the byte within the element (R311); none beyond the
logical size. -/
def ViewDesc.coords (d : ViewDesc) (off : Nat) : Option (List Nat × Nat) :=
  let e := off / 2 ^ d.esz
  let b := off % 2 ^ d.esz
  let n := d.rank
  if d.count ≤ e then none
  else
    let dims := (List.range n).reverse
    let c0 :=
      if d.tile then
        let ts := (dims.map fun i => 2 ^ d.tl i).foldl (· * ·) 1
        (tiled (dims.map fun i => (d.e i, d.tl i)) (e / ts) (e % ts)).reverse
      else (rowMajor (dims.map d.e) e).reverse
    let m := (List.range n).filter fun i => d.inter.contains i
    let z := m.foldl (fun z i => z * d.e i + c0.getD i 0) 0
    let c :=
      if m.isEmpty then c0
      else morton (m.reverse.map fun i => (i, Nat.log2 (d.e i))) 33 0 z (m.foldl (fun c i => c.set i 0) c0)
    some (c, b)

/-- What the map gives for an element access: an address, padding, or the code of R187 for what went
wrong (2 out of the base extents, 4 beyond the logical size, 5 no usable address). -/
inductive MapRes where
  | at_ (a : Nat)
  | padded
  | code (cc : Nat)
  deriving DecidableEq, Repr

/-- The address of the index word that an element access needs (R314). -/
def ViewDesc.indexAddr (d : ViewDesc) (c : List Nat) : Option Nat :=
  if d.gdim = 7 then none else some (d.gidx + 4 * c.getD d.gdim 0)

/-- The base address of logical coordinates, given the index word where a dimension is gathered (R311). -/
def ViewDesc.place (d : ViewDesc) (c : List Nat) (b idx : Nat) : MapRes :=
  let n := d.rank
  let k0 := (List.range n).foldl (fun k i => k.set (d.perm i) (c.getD i 0)) (List.replicate n 0)
  let k1 := if d.gdim = 7 then k0 else k0.set (d.perm d.gdim) idx
  let out := (List.range n).any fun j => d.x j ≤ k1.getD j 0
  if out && d.pad == 0 then .code 2
  else if out && d.pad == 1 then .padded
  else
    let k := (List.range n).map fun j => if d.x j ≤ k1.getD j 0 then d.x j - 1 else k1.getD j 0
    let o := (List.range n).foldl (fun (acc : Int) j => acc + (k.getD j 0 : Int) * d.stride.getD j 0) 0
    let a := (d.base : Int) + o * (2 ^ d.esz : Nat) + b
    if a < 0 || 2 ^ 64 ≤ a then .code 5
    else if !canonical a.toNat || isView a.toNat then .code 5
    else .at_ a.toNat

/-- The element accesses of `w` bytes at a view offset: offset and length of each (R312). -/
def ViewDesc.elems (d : ViewDesc) (off w : Nat) : List (Nat × Nat) :=
  let es := 2 ^ d.esz
  if w < es then [(off, w)] else (List.range (w / es)).map fun i => (off + es * i, es)

/-- What an element access comes to: bytes at a physical address, padding, a view fault, a translation fault of a cause at an
address (reported by the far module where `far`, of an index read where `idx`), a marked index word, or a marked table on the
way to an address. -/
inductive Elem where
  | at_ (p : PAddr) (va len : Nat)
  | pad (len : Nat)
  | viewFault
  | xl (cause va : Nat) (far idx : Bool)
  | poison (va : Nat)
  | tablePoison (va : Nat)
  deriving DecidableEq, Repr

/-- Bytes as a load at a scope would see them (R169, R314). An issue that reads at DIE scope or wider discards the L1 when it
takes effect (`Env.mapAll`). -/
def State.peek (s : State) (cu : Nat) (sc : Scope) (p : PAddr) (n : Nat) : List Byte × Bool :=
  let r := s.loadCached cu sc p n
  (r.1, r.2.1)

/-- Translate an address of a view's base: on this module, or on node NODE (R321, R412). -/
def State.translateView (s : State) (unit ctx : Nat) (d : ViewDesc) (va : Nat) (acc : Access) : ViewXl :=
  if d.remote then s.translateFar ctx d.node va acc else (s.translate unit ctx va acc).near

/-- An address that memory can have: canonical, and of no view (R161, R162). -/
def usableVA (a : Nat) : Bool := canonical a && !isView a

/-- The index word of an element access (R314), or what keeps it from being read; a word past the canonical addresses gives
no usable address, as an element would (log 112). That of a remote view is read by the far controller (R321; log 36). -/
def State.indexWord (s : State) (unit cu ctx : Nat) (sc : Scope) (d : ViewDesc) (a : Nat) : Except Elem Nat :=
  if !usableVA a then .error .viewFault
  else match s.translateView unit ctx d a .read with
  | .fault k far => .error (.xl k (if d.remote then d.gidx else a) far true)
  | .poison => .error (.tablePoison a)
  | .ok p =>
    let r := if d.remote then s.loadPhys p 4 else s.peek cu sc p 4
    if r.2 then .error (.poison a) else .ok (leNat r.1)

/-- Where one element access of a view lands, before the translation of its own address (R311 to R314): a
base address, or what it comes to without one. -/
def State.elemAddr (s : State) (unit cu ctx : Nat) (sc : Scope) (d : ViewDesc) (off len : Nat) : Except Elem Nat :=
  match d.coords off with
  | none => .error .viewFault
  | some (c, b) =>
    let place := fun (idx : Nat) =>
      match d.place c b idx with
      | .code _ => .error Elem.viewFault
      | .padded => .error (.pad len)
      | .at_ a => .ok a
    match d.indexAddr c with
    | none => place 0
    | some a =>
      match s.indexWord unit cu ctx sc d a with
      | .error e => .error e
      | .ok idx => place idx

/-- Map one element access of a view (R311 to R314). -/
def State.mapElem (s : State) (unit cu ctx : Nat) (sc : Scope) (acc : Access) (d : ViewDesc) (off len : Nat) : Elem :=
  match s.elemAddr unit cu ctx sc d off len with
  | .error e => e
  | .ok a =>
    match s.translateView unit ctx d a acc with
    | .ok p => .at_ p a len
    | .fault k far => .xl k (if d.remote then d.base else a) far false
    | .poison => .tablePoison a

/-- One address as an element access of its own (R161). -/
def State.plainElem (s : State) (unit ctx va len : Nat) (acc : Access) : Elem :=
  match s.translate unit ctx va acc with
  | .ok p => .at_ p va len
  | .fault k => .xl k va false false
  | .poison => .tablePoison va

/-- Element accesses of `w` bytes at a memory reference. -/
def State.refElems (s : State) (unit cu ctx : Nat) (sc : Scope) (acc : Access) (r : MemRef) (w : Nat) : List Elem :=
  match r with
  | .mem va => [s.plainElem unit ctx va w acc]
  | .view _ d off => (d.elems off w).map fun (o, n) => s.mapElem unit cu ctx sc acc d o n

/-- Move a memory reference by some bytes. -/
def MemRef.add (r : MemRef) (n : Nat) : MemRef :=
  match r with
  | .mem va => .mem (va + n)
  | .view v d off => .view v d (off + n)

/-- A sample of a view entry (R318): its descriptor when configured, and the machine with the entry in
the cache of the CU's view unit (R306). `none` for a poisoned entry (R434). An entry that is read afresh may be one that an instruction
has released, so the CU keeps no L1 copy from before (R319, R334). -/
def State.sample (s : State) (cu ctx view : Nat) : Option (Option ViewDesc) × State :=
  let judge := fun (raw : List Byte) =>
    let d := viewOfBytes raw
    if d.configured s.bar0.nodeid then some d else none
  match s.viewCache.find? fun v => v.cu == cu && v.ctx == ctx && v.view == view with
  | some v => (some (judge v.raw), s)
  | none =>
    match s.ctx? ctx with
    | none => (some none, s)
    | some c =>
      let r := s.loadPhys ⟨.dram, c.desc.vtbase + 128 * view⟩ 128
      if r.2 then (none, s)
      else (some (judge r.1), State.clearL1 { s with viewCache := ⟨cu, ctx, view, r.1⟩ :: s.viewCache } cu)

/-- Invalidate every cached copy of a view entry in every view unit (R184 to R186). -/
def State.dropView (s : State) (ctx view : Nat) : State :=
  { s with viewCache := s.viewCache.filter fun v => !(v.ctx == ctx && v.view == view) }

end Sys2Proof.Machine
end

