-- ==== Sys2Proof/Machine/Ops.lean ====
section
/-!
DEFINITION. The named operations over the state that the meanings are written with: looking up and
changing groups, teams, launches, contexts and flights; dependence counters (R189, R299, R300); error
records and interrupts (R408, R428 to R432); translation faults (R398, R399); stopping a launch and
freezing a context (R383, R428); TAKING A TRAP (R265, R266) and the return from it (R267).
-/
namespace Sys2Proof.Machine

/-! ### Looking up and changing parts of the state -/

/-- A group's key is (CU, partition, slot) (R254). -/
def Group.at_ (g : Group) (cu part slot : Nat) : Bool := g.cu == cu && g.part == part && g.slot == slot

def State.group? (s : State) (cu part slot : Nat) : Option Group := s.groups.find? (·.at_ cu part slot)
def State.team? (s : State) (id : Nat) : Option Team := s.teams.find? (·.id == id)
def State.launch? (s : State) (id : Nat) : Option Launch := s.launches.find? (·.id == id)
def State.flight? (s : State) (id : Nat) : Option Flight := s.flights.find? (·.id == id)

def State.updGroup (s : State) (cu part slot : Nat) (f : Group → Group) : State :=
  { s with groups := updFirst (·.at_ cu part slot) f s.groups }
def State.updTeam (s : State) (id : Nat) (f : Team → Team) : State :=
  { s with teams := updFirst (·.id == id) f s.teams }
def State.updLaunch (s : State) (id : Nat) (f : Launch → Launch) : State :=
  { s with launches := updFirst (·.id == id) f s.launches }
def State.updCtx (s : State) (id : Nat) (f : Ctx → Ctx) : State :=
  { s with ctxs := updFirst (·.id == id) f s.ctxs }
def State.updFlight (s : State) (id : Nat) (f : Flight → Flight) : State :=
  { s with flights := updFirst (·.id == id) f s.flights }

/-- End preservations of a context (R443, R446): their shadows hold nothing that can be relied on afterwards. -/
def State.endPreserves (s : State) (ctx : Nat) (which : Preserve → Bool) : State :=
  let gone := (((s.ctxs.find? (·.id == ctx)).elim [] (·.preserves)).filter which)
  gone.foldl (·.loseShadows ·) (s.updCtx ctx fun c => { c with preserves := c.preserves.filter fun v => !which v })

/-- Take a flight out. -/
def State.dropFlight (s : State) (id : Nat) : State :=
  { s with flights := s.flights.filter (·.id != id) }

/-- Put an operation in flight; it takes the next identifier. -/
def State.launchFlight (s : State) (f : Nat → Flight) : State :=
  { s with flights := s.flights ++ [f s.nextFlight], nextFlight := s.nextFlight + 1 }

/-- Change the threads of some lanes of a group. -/
def Group.mapLanes (g : Group) (lanes : BitVec 32) (f : Nat → Thread → Thread) : Group :=
  { g with threads := g.threads.mapIdx fun i t => if bitOf lanes.toNat i then t.map (f i) else t }

/-- The thread of a lane. -/
def Group.thread? (g : Group) (lane : Nat) : Option Thread := (g.threads[lane]?).join

/-- CUNUM of a partition (R249). -/
def cunum (cu part : Nat) : Nat := cu + 256 * part

/-- Raise an MSI-X vector (R408). -/
def State.raise (s : State) (v : Nat) : State := { s with msix := insertNat s.msix v }

/-- Module time as a record carries it (R250, R429; log 8). -/
def State.now (s : State) : Word64 := Config.freeClock s.clock

/-! ### Error records (R429, R431) -/

/-- A record with nothing filled in but its class, source and action. -/
def ErrRec.of (s : State) (cls source action : Nat) : ErrRec :=
  { cls := cls, source := source, action := action, slot := none, cu := none, queue := none, addr := 0, node := 0,
    record := 0, stat := 0, stat2 := 0, count := 1, time := s.now }

/-- The 64 bytes of a record (R429). -/
def ErrRec.bytes (r : ErrRec) (lost : Nat) : List Byte :=
  leBytes 1 r.cls ++ leBytes 1 r.source ++ leBytes 1 r.action ++
  leBytes 1 (r.slot.elim 0 (· + 128)) ++ leBytes 2 (r.cu.elim 0 (· + 32768)) ++ leBytes 2 (r.queue.elim 0 (· + 32768)) ++
  leBytes 8 r.addr ++ leBytes 8 r.node ++ leBytes 8 r.record ++ leBytes 8 r.stat ++ leBytes 8 r.stat2 ++
  leBytes 4 r.count ++ leBytes 4 lost ++ leBytes 8 r.time.toNat

/-- Base, capacity and vector of an error queue: of a context, or the device queue (R431); none while the
device queue is unconfigured (R425). -/
def State.errQueue (s : State) : Option Nat → Option (Nat × Nat × Nat)
  | some n => (s.ctx? n).map fun c => (c.desc.eqbase, 2 ^ c.desc.eqlog, 2 * n + 1)
  | none => if s.bar0.deveqlog < 4 then none else some (s.bar0.deveqbase, 2 ^ s.bar0.deveqlog, 128)

/-- TAIL - HEAD of a queue in device memory. -/
def State.queueUsed (s : State) (base : Nat) : Nat :=
  wrap 64 ((s.dram.num (base + 8) 8 : Int) - s.dram.num base 8)

/-- LOST of a queue. -/
def State.lostOf (s : State) : Option Nat → Nat
  | some n => ((s.ctx? n).map (·.lost)).getD 0
  | none => s.devLost

/-- Records of a queue that wait for room. -/
def State.waitingErrs (s : State) : Option Nat → List ErrRec
  | some n => ((s.ctx? n).map (·.errq)).getD []
  | none => s.devErrq

def State.setLost (s : State) (q : Option Nat) (n : Nat) : State :=
  match q with
  | some c => s.updCtx c fun x => { x with lost := n }
  | none => { s with devLost := n }

def State.setWaitingErrs (s : State) (q : Option Nat) (rs : List ErrRec) : State :=
  match q with
  | some c => s.updCtx c fun x => { x with errq := rs }
  | none => { s with devErrq := rs }

/-- Write a record at TAIL, advance TAIL, raise the vector (R408, R431). -/
def State.writeErr (s : State) (q : Option Nat) (r : ErrRec) : State :=
  match s.errQueue q with
  | none => s
  | some (base, cap, vec) =>
    let tail := s.dram.num (base + 8) 8
    let s1 := s.storePhys ⟨.dram, base + 64 + 64 * (tail % cap)⟩ (r.bytes (s.lostOf q)) false
    let s2 := s1.storePhys ⟨.dram, base + 8⟩ (leBytes 8 (tail + 1)) false
    (s2.setLost q 0).raise vec

/-- The header of a queue in device memory has no nonzero reserved byte (R16, R398, R401, R431): one that has is not acted on (log 109). -/
def State.headerClean (s : State) (base : Nat) : Bool := (s.dram.read (base + 16) 48).all (· == 0)

/-- A queue that is configured, whose header is clean, and that has room. -/
def State.errRoom (s : State) (q : Option Nat) : Bool :=
  match s.errQueue q with
  | none => false
  | some (base, cap, _) => s.headerClean base && s.queueUsed base < cap

/-- Report a record (R431): written at once where there is room and nothing waits before it; records of classes 1
and 5 that find the queue full are dropped and counted, others wait, and so does a record that finds room behind others that
wait (log 127). Records of the unconfigured device queue are dropped and counted. -/
def State.report (s : State) (q : Option Nat) (r : ErrRec) : State :=
  if s.errRoom q then (if (s.waitingErrs q).isEmpty then s.writeErr q r else s.setWaitingErrs q (s.waitingErrs q ++ [r]))
  else if (s.errQueue q).isNone || r.cls = 1 || r.cls = 5 then s.setLost q (s.lostOf q + 1)
  else s.setWaitingErrs q (s.waitingErrs q ++ [r])

/-- A record about a launch: its queue, node and record address (R429). -/
def ErrRec.ofLaunch (s : State) (l : Launch) (cls source action : Nat) : ErrRec :=
  { ErrRec.of s cls source action with queue := some l.queue, node := l.node, record := l.record }

/-! ### Dependence counters (R189, R299, R300) -/

/-- The value of a counter, as its 32-bit pattern. -/
def Ctx.counter (c : Ctx) (i : Nat) : Word := (lookupKey c.counters i).getD 0

/-- A counter at or below zero, as a signed value (R189). -/
def counterDone (v : Word) : Bool := v == 0 || bitOf v.toNat 31

/-- Write a counter, keeping the table free of zeros. -/
def Ctx.setCounter (c : Ctx) (i : Nat) (v : Word) : Ctx :=
  { c with counters := if v = 0 then c.counters.filter (·.1 != i) else insertKey c.counters i v }

/-- A thread of the group waits on counter `i`. -/
def Group.waitsCounter (g : Group) (i : Nat) : Bool := g.threads.any fun t => t.any (·.wait == .counter i)

/-- A thread that waits on counter `i` continues. -/
def Thread.releaseCounter (i : Nat) (t : Thread) : Thread := if t.wait = .counter i then { t with wait := .ready } else t

/-- Release the threads of a context that wait on a counter, as an acquire at MODULE scope (R196, R300). -/
def State.releaseWaiters (s : State) (ctx i : Nat) : State :=
  let held := fun (g : Group) => g.waitsCounter i && (s.launch? g.launch).any (·.ctx == ctx)
  let wake := fun (g : Group) => if held g then { g with threads := g.threads.map (Option.map (Thread.releaseCounter i)) } else g
  let cus := (s.groups.filter held).map fun g => g.cu
  let woken := s.saved.map fun v => { v with groups := v.groups.map wake }
  State.acquireOn { s with groups := s.groups.map wake, saved := woken } cus

/-- Release the queues of a context that stand at a WAIT on a counter (R300, R387). -/
def Ctx.releaseWalks (c : Ctx) (i : Nat) : Ctx :=
  { c with queues := c.queues.map fun q =>
      { q with walk := q.walk.map fun w => if w.waiting = some i then { w with released := true } else w } }

/-- Change a counter in one read-modify-write, releasing what waits for it at or below zero (R299, R300). -/
def State.changeCounter (s : State) (ctx i : Nat) (f : Word → Word) : State :=
  match s.ctx? ctx with
  | none => s
  | some c =>
    let v := f (c.counter i)
    let s1 := s.updCtx ctx fun c => c.setCounter i v
    if counterDone v then (s1.releaseWaiters ctx i).updCtx ctx (·.releaseWalks i) else s1

/-- The decrement of a completion (R189). -/
def State.decrement (s : State) (ctx : Nat) (c : Option (Nat × Scope)) : State :=
  match c with
  | none => s
  | some (i, _) => s.changeCounter ctx i fun v => v - 1

/-- A counter given in the DONE format: [15] VALID, [14:12] scope, [11:0] index (R369). -/
def doneCounter (x : Nat) : Option (Nat × Scope) :=
  if bitOf x 15 then some (field x 0 12, Scope.ofCode (field x 12 3)) else none

/-! ### Stopping a launch (R383) -/

/-- Harbourmaster writes through the context's tables (R386): on success the machine after the write, else
the cause; a poisoned table is cause 0. Bytes that lie in two pages go to both, which translate first. -/
def State.writeVirt (s : State) (ctx va : Nat) (bs : List Byte) : Except Nat State :=
  let k := 4096 - va % 4096
  match s.translate 256 ctx va .write with
  | .fault e => .error e
  | .poison => .error 0
  | .ok p =>
    if bs.length ≤ k then .ok (s.storePhys p bs false)
    else match s.translate 256 ctx (va + k) .write with
      | .ok q => .ok ((s.storePhys p (bs.take k) false).storePhys q (bs.drop k) false)
      | .fault e => .error e
      | .poison => .error 0

/-- Harbourmaster reads within one page: bytes and their mark, or the cause. -/
def State.readVirt (s : State) (ctx va n : Nat) : Except Nat (List Byte × Bool) :=
  match s.translate 256 ctx va .read with
  | .ok p => .ok (s.loadPhys p n)
  | .fault k => .error k
  | .poison => .error 0

/-- Start of the sub-ring of a CU, and its capacity (R272). -/
def Header.subRing (h : Header) (cu : Nat) : Nat := h.ring + cu * (64 + 64 * 2 ^ h.ringlog)

/-- Set HEAD equal to TAIL in the header of one sub-ring (R383); a header that does not translate stays, and so does one with a
nonzero reserved byte (R16; log 109). -/
def State.emptyRing (s : State) (l : Launch) (cu : Nat) : State :=
  let a := l.hdr.subRing cu
  match (if usableVA a then s.readVirt l.ctx a 64 else .error 1) with
  | .error _ => s
  | .ok (bs, _) =>
    if bs.take 8 = (bs.drop 8).take 8 ∨ (bs.drop 16).any (· != 0) then s
    else match s.writeVirt l.ctx a ((bs.drop 8).take 8) with
      | .ok s' => s'
      | .error _ => s

/-- Discard the berth entries of a launch on every CU, and those of its sub-rings (R383). -/
def State.discardEntries (s : State) (l : Launch) : State :=
  let s1 := { s with cus := s.cus.map fun c => { c with berths := c.berths.map fun b => b.filter (·.launch != l.id) } }
  if l.hdr.ring = 0 then s1 else (s1.cus.map (·.num)).foldl (fun t u => t.emptyRing l u) s1

/-- Discard what saved teams of a launch hold (R383, R392). -/
def State.dropSaved (s : State) (lid : Nat) : State :=
  let pools := (s.saved.filter (·.team.launch == lid)).map fun v => (v.team.ctx, v.pool)
  { s with
    saved := s.saved.filter (·.team.launch != lid)
    ctxs := s.ctxs.map fun c => { c with saveUsed := c.saveUsed.filter fun p => !(pools.contains (c.id, p)) } }

/-- Stop a launch (R383): none of its groups issues again, its berth and ring entries are discarded, its reservation passes on
(R378). A launch that has stopped keeps its first stop. The status and the replay follow when its commands and
engine operations have completed (LAUNCH_COMPLETE, LAUNCH_REPLAY). -/
def State.stopLaunch (s : State) (lid : Nat) (st : Stop) : State :=
  match s.launch? lid with
  | none => s
  | some l =>
    if l.stop.isSome then s
    else
      let s1 := s.updLaunch lid fun l => { l with stop := some st, state := .stopped, claims := false, ringTeams := [] }
      ((s1.endReservation lid).discardEntries l).dropSaved lid

/-- A launch stops as a consumed error (R434, R444): its record is of CLASS 2 and names the detector. -/
def State.stopConsumed (s : State) (lid : Nat) (r : ErrRec) : State :=
  match s.launch? lid with
  | none => s
  | some l =>
    if l.stop.isSome then s
    else (s.report (some l.ctx) r).stopLaunch lid { status := 9, consumed := true, source := r.source }

/-- An engine meets a condition that only data read after issue shows (R457): STATUS 10, never replayed; `cu` is the
CUNUM of its engine. -/
def State.stopEngine (s : State) (lid cu addr : Nat) : State :=
  match s.launch? lid with
  | none => s
  | some l =>
    if l.stop.isSome then s
    else (s.report (some l.ctx) { ErrRec.ofLaunch s l 2 0x15 4 with cu := some cu, addr := addr }).stopLaunch lid
      { status := 10, consumed := false, source := 0x15 }

/-- The node of a context that issued an operation, where a node did (R387). -/
def Flight.nodeOf (ctx : Nat) (f : Flight) : Option Nat :=
  match f.op with
  | .convoy c => if f.ctx = ctx then c.node.map (·.2.2.1) else none
  | _ => none

/-- Freeze a context (R428), the work of graphs that QABORT has ended included (R402): its launches stop with STATUS 14, started nodes receive it where the write
translates, its queues park, one record is written. -/
def State.freeze (s : State) (ctx : Nat) (r : ErrRec) : State :=
  match s.ctx? ctx with
  | none => s
  | some c =>
    if c.frozen then s
    else
      let s1 := s.report (some ctx) { r with cls := 3, action := 7 }
      let s2 := (s1.launches.filter (·.ctx == ctx)).foldl
        (fun t l => t.stopLaunch l.id { status := 14, consumed := false, source := r.source }) s1
      let nodes := (c.queues.flatMap fun q => (q.walk.elim [] fun w => (if w.phase = .fresh then [] else [w.node]) ++ w.asyncs)) ++
        (((s.launches.filter (·.ctx == ctx)).map (·.node)) ++ s.flights.filterMap (Flight.nodeOf ctx)).filter fun a =>
          !c.queues.any fun q => q.walk.any fun w => w.node == a || w.asyncs.contains a
      let s3 := nodes.foldl (fun t a => (t.writeVirt ctx (a + 4) (leBytes 4 14)).toOption.getD t) s2
      s3.updCtx ctx fun c => { c with frozen := true, queues := c.queues.map fun q => { q with parked := true } }

/-! ### Translation faults (R398, R399) -/

/-- The identifier that the next fault of a context takes: a FID, or, where a far module reports the fault, a number that is
no FID (R398, R412). -/
def State.nextFault (s : State) (ctx : Nat) (far : Bool) : Nat :=
  (s.ctx? ctx).elim 0 fun c => if far then 4294967296 + c.nextFar else c.nextFid

/-- Record a translation fault of a context under its next identifier; a fault of a far module is reported there. -/
def State.addFault (s : State) (ctx : Nat) (far : Bool) (f : XFault) : State :=
  let fid := s.nextFault ctx far
  s.updCtx ctx fun c =>
    { c with
      faults := c.faults ++ [{ f with fid := fid, reported := far }]
      nextFid := if far then c.nextFid else (c.nextFid + 1) % 4294967296
      nextFar := if far then c.nextFar + 1 else c.nextFar }

/-- A fault of a requester with nothing filled in but its cause, address, access and agent. -/
def XFault.of (who : Requester) (cause va : Nat) (acc : Access) (agent : Nat) : XFault :=
  { fid := 0, va := va, cause := cause, access := acc.code, agent := agent, slot := 0, cu := 0, node := 0, who := who, launch := none,
    reported := false }

/-- A flight stalls on a fault (R399). -/
def State.stallFlight (s : State) (f : Flight) (cause va : Nat) (acc : Access) (agent : Nat) (far : Bool) : State :=
  let fid := s.nextFault f.ctx far
  (s.addFault f.ctx far { XFault.of (.flight f.id) cause va acc agent with
    cu := if agent = 4 then 0 else cunum f.cu f.part, launch := some f.launch }).updFlight f.id fun g => { g with fault := some fid }

/-- A queue of a context stalls on a fault (R399): its walk on that of a node, its STATUS writes and its replays each on their own
(R384, R386). -/
def State.stallQueue (s : State) (ctx q : Nat) (work : QueueWork) (cause va : Nat) (acc : Access) : State :=
  let fid := s.nextFault ctx false
  (s.addFault ctx false (XFault.of (.queue q work) cause va acc 5)).updCtx ctx fun c =>
    { c with queues := c.queues.mapIdx fun i x => if i = q ∧ work = .node then { x with fault := some fid } else x }

/-! ### Traps (R265, R266) and the return from them (R267) -/

/-- A condition of a precise trap or fault that an issue meets (R252, R458). -/
structure Cond where
  cause : Nat
  lane : Nat
  detail : Nat
  code : Nat
  deriving DecidableEq, Repr

/-- The condition that is raised: the lowest CAUSE, then the lowest lane (R458). -/
def worst : List Cond → Option Cond
  | [] => none
  | c :: cs =>
    match worst cs with
    | none => some c
    | some d => if d.cause < c.cause || (d.cause == c.cause && d.lane < c.lane) then some d else some c

/-- The ERRQ status word (R251). -/
def Cond.status (c : Cond) : Nat :=
  c.cause + c.lane * 2 ^ 8 + c.code * 2 ^ 16 + 2 ^ 31 + c.detail * 2 ^ 32

/-- TAKE A TRAP (R265, R266): the group halts and keeps the lanes of the trapping issue and the recorded
address; its error record is written; a record of class 4 goes to the context's error queue; under STOP
the launch stops with STATUS 8. SOURCE is 0x0D and CLASS 4 for every trap, that of a malformed line (R210) too (log 113). A secondary issue whose primary has trapped in the same cycle leaves the
primary's trap recorded. -/
def State.takeTrap (s : State) (iss : Issue) (l : Launch) (c : Cond) (addr : Word64) (brk : Bool) : State :=
  match s.group? iss.cu iss.part iss.slot with
  | none => s
  | some g =>
    if g.halt.isSome then s
    else
      let hold := bitOf l.hdr.flags 3
      let s1 := s.updGroup iss.cu iss.part iss.slot fun g =>
        { g with halt := some ⟨iss.lanes, addr, brk⟩, err := some ⟨addr, BitVec.ofNat 64 c.status⟩ }
      let s2 := s1.report (some l.ctx) { ErrRec.ofLaunch s l 4 0x0D (if hold then 9 else 4) with
        slot := some iss.slot, cu := some (cunum iss.cu iss.part), addr := addr.toNat, stat := c.status, stat2 := addr.toNat }
      if hold then s2 else s2.stopLaunch l.id { status := 8, consumed := false, source := 0x0D }

/-- How a halted group resumes (R267, R402). -/
inductive Resume where
  | retry
  | skip
  | abort
  deriving DecidableEq, Repr

/-- A word of the program as the group's CU would fetch it, for passing a hint sequence (R267). -/
def State.peekWord (s : State) (cu ctx : Nat) (pc : Word64) : Option Word :=
  if !canonical pc.toNat || isView pc.toNat then none
  else match s.translate cu ctx pc.toNat .fetch with
    | .ok p => some (BitVec.ofNat 32 (leNat (s.loadPhys p 4).1))
    | _ => none

/-- The address after a word and, where it is a hint, after the rest of its sequence (R98, R267). -/
def State.pastSequence (s : State) (cu ctx : Nat) : Nat → Word64 → Word64
  | 0, pc => pc + 4
  | n + 1, pc =>
    match s.peekWord cu ctx pc with
    | some w => if 0x7C ≤ field w.toNat 25 7 then s.pastSequence cu ctx n (pc + 4) else pc + 4
    | none => pc + 4

/-- RETURN FROM A TRAP (R267): the lanes of the trapping issue continue at the recorded address (RETRY, and
either action after BKPT) or past the recorded word and its sequence (SKIP); ABORT stops the launch. -/
def State.resumeGroup (s : State) (g : Group) (l : Launch) (h : Halt) (act : Resume) : State :=
  match act with
  | .abort => s.stopLaunch l.id { status := 8, consumed := false, source := 0x0D }
  | _ =>
    let target := if h.brk || act = .retry then h.addr else s.pastSequence g.cu l.ctx 8 h.addr
    let fall := h.brk || act = .skip
    s.updGroup g.cu g.part g.slot fun g =>
      { g.mapLanes h.lanes fun _ t =>
          { t with pc := target, fell := fall || !t.hints.isEmpty || t.fell, hints := [], hintPc := 0 } with
        halt := none }

/-- Stall an issue on a translation fault (R166, R398): no effect; the threads of the issue wait. -/
def State.stallIssue (s : State) (iss : Issue) (l : Launch) (cause va : Nat) (acc : Access) (far : Bool)
    (agent : Nat) : State :=
  let fid := s.nextFault l.ctx far
  (s.addFault l.ctx far { XFault.of (.issue iss.cu iss.part iss.slot iss.lanes) cause va acc agent with
    slot := if agent = 0 then iss.slot else 0, cu := cunum iss.cu iss.part, launch := some l.id }).updGroup iss.cu iss.part iss.slot
    fun g => g.mapLanes iss.lanes fun _ t => { t with wait := .fault fid }

end Sys2Proof.Machine
end

