-- ==== Sys2Proof/Machine/Operands.lean ====
section
/-!
DEFINITION. Operands: which registers an operand names (R22 to R29, R36, R40, R86), the hints of a
sequence and the immediates they widen (R98 to R101, R142), and for every instruction word its pairing
class, its guard, what it reads and writes, its lookahead and the hints that it accepts (R88 to R104).
-/
namespace Sys2Proof.Machine

/-! ### Reading and writing the registers of a thread and of a group -/

/-- A v-register operand: an operand code of `w` registers (R24, R26), `n` direct names each renamed on its
own (R36), or register numbers that are never renamed (R86). -/
inductive Ref where
  | code (c : BitVec 7) (w : Nat)
  | block (r n : Nat)
  | raw (r n : Nat)
  deriving DecidableEq, Repr

/-- What an operand comes to in one lane: registers, an s-register read as `w` words, or the cause of the
trap or fault that naming it raises. -/
inductive Sel where
  | regs (rs : List Nat)
  | sreg (k w : Nat)
  | bad (cause : Nat)
  deriving DecidableEq, Repr

/-- An s-register (R34): s0 reads as zero. -/
def Group.s (g : Group) (k : Nat) : Nat := if k = 0 then 0 else (g.sregs.getD k 0).toNat

/-- Write an s-register; a write to s0 is discarded (R34). -/
def Group.setS (g : Group) (k : Nat) (v : Nat) : Group :=
  if k = 0 then g else { g with sregs := g.sregs.set k (BitVec.ofNat 64 v) }

/-- A predicate (R30): p0 reads as 1. -/
def Thread.p (t : Thread) (k : Nat) : Bool := if k = 0 then true else bitOf t.preds.toNat k

/-- Write a predicate; a write to p0 is discarded (R30). -/
def Thread.setP (t : Thread) (k : Nat) (v : Bool) : Thread :=
  if k = 0 then t
  else { t with preds := (if v then t.preds ||| BitVec.ofNat 8 (2 ^ k) else t.preds &&& ~~~(BitVec.ofNat 8 (2 ^ k))) }

/-- Write registers, the lowest first; a whole write clears a poison mark (R433). -/
def Thread.putRegs (t : Thread) (rs : List Nat) (vs : List Word) : Thread :=
  { t with
    regs := (rs.zip vs).foldl (fun m p => m.set p.1 p.2) t.regs
    bad := t.bad.filter fun r => !rs.contains r }

/-- Values of registers, the lowest first. -/
def Thread.getRegs (t : Thread) (rs : List Nat) : List Word := rs.map fun r => t.regs.getD r 0

/-- The shared windows that a group holds (R38): window, first name, size. -/
def windowsOf (l : Launch) (g : Group) : List (Nat × Nat × Nat) :=
  match g.role with
  | none => []
  | some r => (l.hdr.wins.zipIdx.filterMap fun (w, k) =>
      if !w.valid then none
      else if w.prole = r then some (k, w.pbase, w.wn)
      else if w.crole = r then some (k, w.cbase, w.wn) else none)

/-- A register lies in one of the windows (R40). -/
def inWindow (wins : List (Nat × Nat × Nat)) (r : Nat) : Bool :=
  wins.any fun w => w.2.1 ≤ r && r < w.2.1 + w.2.2

/-- The register that a direct name denotes in a lane (R36). -/
def rename (g : Group) (t : Thread) (r : Nat) : Nat :=
  if t.melded && 84 ≤ r && r ≤ 91 then (g.rename.getD (8 * t.path.toNat + (r - 84)) 0).toNat else r

/-- Registers after the bound of R23 and the windows of R40. -/
def selRegs (g : Group) (wins : List (Nat × Nat × Nat)) (rs : List Nat) : Sel :=
  if rs.any fun r => g.nreg ≤ r then .bad 4
  else if rs.any (inWindow wins) then .bad 5
  else .regs rs

/-- Bounds of an access of `w` registers through an index register (R28). -/
def indexOk (nreg : Nat) (a : Word) (w : Nat) : Bool :=
  let cur := field a.toNat 0 8
  !bitOf a.toNat 31 && field a.toNat 8 8 ≤ cur && cur + w - 1 ≤ field a.toNat 16 8 && cur + w - 1 < nreg && cur % w == 0

/-- What an operand comes to in one lane (R22 to R29, R36, R40). -/
def Ref.sel (r : Ref) (g : Group) (wins : List (Nat × Nat × Nat)) (t : Thread) (write : Bool) : Sel :=
  match r with
  | .code c w =>
    let n := c.toNat
    if 96 ≤ n then (if write || 2 < w then .bad 1 else .sreg (n - 96) w)
    else if 92 ≤ n then
      let a := t.idx.getD (n - 92) 0
      if indexOk g.nreg a w then
        (let rs := (List.range w).map fun i => field a.toNat 0 8 + i
         if rs.any (inWindow wins) then .bad 5 else .regs rs)
      else .bad 4
    else if n % w != 0 || 92 < n + w then .bad 1
    else selRegs g wins ((List.range w).map fun i => rename g t (n + i))
  | .block n k => selRegs g wins ((List.range k).map fun i => rename g t (n + i))
  | .raw n k => selRegs g wins ((List.range k).map fun i => n + i)

/-- The registers that an operand names in a lane, also where naming them raises a fault (R102). -/
def Ref.named (r : Ref) (g : Group) (t : Thread) : List Nat :=
  match r with
  | .code c w =>
    let n := c.toNat
    if 96 ≤ n then []
    else if 92 ≤ n then (List.range w).map fun i => field (t.idx.getD (n - 92) 0).toNat 0 8 + i
    else (List.range w).map fun i => rename g t (n + i)
  | .block n k => (List.range k).map fun i => rename g t (n + i)
  | .raw n k => (List.range k).map fun i => n + i

/-- The registers of a selection. -/
def Sel.list : Sel → List Nat
  | .regs rs => rs
  | _ => []

/-- The words of a selection: registers, or the low words of an s-register (R26). -/
def Sel.words (g : Group) (t : Thread) : Sel → List Word
  | .regs rs => t.getRegs rs
  | .sreg k w => natRegs w (g.s k)
  | .bad _ => []

/-- The cause of a bad selection. -/
def Sel.cause : Sel → Option Nat
  | .bad k => some k
  | _ => none

/-! ### Hints (R98 to R101) -/

/-- The hints of a sequence, by kind. -/
structure Hints where
  imml : Option Nat := none
  immh : Option Nat := none
  /-- MOD ARITH: RM, SAT, NEG and ABS with their bits for a, b and d as bits 2, 1 and 0. -/
  arith : Bool := false
  rm : Nat := 0
  sat : Nat := 0
  neg : Nat := 0
  abs : Nat := 0
  offset : Option Int := none
  counter : Option (Nat × Scope) := none
  /-- MOD LANE: the guard predicate, whether it is negated, the exponent f. -/
  lane : Bool := false
  guard : Nat := 0
  guardNeg : Bool := false
  f : Nat := 0
  deriving DecidableEq, Repr

/-- Kind of a hint (R98); none for another instruction. -/
def hintKind : Instr → Option Nat
  | .imml _ => some 0
  | .immh _ => some 1
  | .modArith _ _ _ _ => some 2
  | .modOffset _ => some 3
  | .modCounter _ _ => some 4
  | .modLane _ _ _ => some 5
  | .sched _ _ => some 6
  | _ => none

/-- Add a hint. NEG [18:16] and ABS [15:13] name a, b and d from their top bit down: bits 18, 17 and 16 are
NEG for a, b and d (R142). -/
def Hints.add (h : Hints) : Instr → Hints
  | .imml p => { h with imml := some p.toNat }
  | .immh p => { h with immh := some p.toNat }
  | .modArith r s n a => { h with arith := true, rm := r.toNat, sat := s.toNat, neg := n.toNat, abs := a.toNat }
  | .modOffset o => { h with offset := some (signed 23 o.toNat) }
  | .modCounter sc i => { h with counter := some (i.toNat, sc) }
  | .modLane p n f => { h with lane := true, guard := p.toNat, guardNeg := n, f := f.toNat }
  | _ => h

/-- The hints of a sequence. -/
def Hints.of (hs : List Instr) : Hints := hs.foldl Hints.add {}

/-- How an instruction takes an immediate (R100, R119, R127): not at all, as a 32-bit operand whose field
is given, as an SI field, or as a shift amount of some bits whose field is given. -/
inductive ImmForm where
  | none
  | vi (field : Nat)
  | si (field : Nat)
  | shift (bits field : Nat)
  deriving DecidableEq, Repr

/-- The immediate hints are misused (R100, R101, R119, R127). -/
def Hints.immMisuse (h : Hints) : ImmForm → Bool
  | .none => h.imml.isSome || h.immh.isSome
  | .vi f => (h.immh.isSome && h.imml.isNone) || (h.imml.isSome && f != 0) || h.immh.any fun q => q / 128 != 0
  | .si f => (h.immh.isSome && h.imml.isNone) || (h.imml.isSome && h.immh.isNone && f != 0)
  | .shift n f => h.immh.isSome || h.imml.any fun p => f != 0 || p / 2 ^ n != 0

/-- A 32-bit immediate (R100); `base` is the field extended to 32 bits. -/
def Hints.wide32 (h : Hints) (base : Nat) : Nat :=
  match h.imml, h.immh with
  | some p, some q => p + q % 128 * 2 ^ 25
  | some p, Option.none => wrap 32 (signed 25 p)
  | Option.none, _ => base

/-- A 64-bit immediate (R100); `base` is the 13-bit field extended to 64 bits. -/
def Hints.wide64 (h : Hints) (field13 base : Nat) : Nat :=
  match h.imml, h.immh with
  | some p, some q => p + q * 2 ^ 25 + wrap 14 (signed 13 field13) * 2 ^ 50
  | some p, Option.none => wrap 64 (signed 25 p)
  | Option.none, _ => base

/-- A shift amount (R119, R127). -/
def Hints.amount (h : Hints) (n : Nat) : Nat := h.imml.getD n

/-- The hints that an instruction accepts (R101, R142). `mods` has the bits 4, 2 and 1 for NEG or ABS of a,
b and d. -/
structure Accept where
  imm : ImmForm := .none
  rm : Bool := false
  sat : Bool := false
  mods : Nat := 0
  offset : Bool := false
  counter : Bool := false
  lane : Bool := false
  fexp : Bool := false
  deriving DecidableEq, Repr

/-- A hint of the sequence is one that the instruction does not accept (R101). -/
def Hints.misused (h : Hints) (a : Accept) : Bool :=
  h.immMisuse a.imm ||
  (h.arith && ((!a.rm && !a.sat && a.mods == 0) || (h.rm != 0 && !a.rm) || (h.sat != 0 && !a.sat) ||
    ((h.neg ||| h.abs) &&& (7 - a.mods)) != 0)) ||
  (h.offset.isSome && !a.offset) || (h.counter.isSome && !a.counter) ||
  (h.lane && (!a.lane || (h.f != 0 && !a.fexp)))

/-! ### The shape of an instruction word -/

/-- Pairing classes (R104). -/
inductive Cls where
  | a | l | g | u | m | x | e | c
  deriving DecidableEq, Repr

/-- The pairing table (R104). -/
def Cls.pairs : Cls → Cls → Bool
  | .c, _ => false
  | _, .c => false
  | .a, _ => true
  | _, .a => true
  | .l, .u => true
  | .u, .l => true
  | .u, .m => true
  | .m, .u => true
  | .u, .x => true
  | .x, .u => true
  | .u, .e => true
  | .e, .u => true
  | .m, .x => true
  | .x, .m => true
  | _, _ => false

/-- What gates an instruction lane by lane (R88): nothing, the predicate of a G field, or MOD LANE. -/
inductive Guard where
  | all
  | pred (p : BitVec 3)
  | lane
  deriving DecidableEq, Repr

/-- What the word of an instruction, with its slot, says about its operands. -/
structure Shape where
  cls : Cls := .c
  guard : Guard := .all
  accept : Accept := {}
  reads : List Ref := []
  writes : List Ref := []
  sreads : List Nat := []
  swrites : List Nat := []
  preads : List Nat := []
  pwrites : List Nat := []
  /-- The slot's kinds are accepted (R65); checked when some lane takes part (R207). -/
  kindOk : Bool := true
  /-- A condition of the word and its slot that is illegal whatever the guards (R207). -/
  illegal : Bool := false
  /-- Instructions that its lookahead window covers (R102), and whether the window covers the v-registers
  and the s-registers that it reads. -/
  la : Nat := 0
  laReads : Bool := true
  laSregs : Bool := true
  /-- It closes lookahead windows (R103), it waits for pending register writes (R103, R232), it waits for
  earlier instructions that set flags (R33). -/
  closes : Bool := false
  drains : Bool := false
  waitsFx : Bool := false
  /-- It moves poison on instead of consuming it (R433). -/
  moves : Bool := false
  /-- A lane whose operand is out of bounds makes no access, and no fault (R174). -/
  boundless : Bool := false
  deriving DecidableEq, Repr

/-- V3 with operands a and b. -/
def shV3 (d a b : BitVec 7) (g : BitVec 3) : Shape :=
  { cls := .a, guard := .pred g, reads := [.code a 1, .code b 1], writes := [.code d 1], preads := [g.toNat] }

/-- V3 that also reads its destination. -/
def shV3d (d a b : BitVec 7) (g : BitVec 3) : Shape :=
  { shV3 d a b g with reads := [.code a 1, .code b 1, .code d 1] }

/-- V2 with operand a. -/
def shV2 (d a : BitVec 7) (g : BitVec 3) : Shape :=
  { cls := .a, guard := .pred g, reads := [.code a 1], writes := [.code d 1], preads := [g.toNat] }

/-- V2 that computes D := D op A. -/
def shV2d (d a : BitVec 7) (g : BitVec 3) : Shape :=
  { shV2 d a g with reads := [.code d 1, .code a 1] }

/-- VI with operand a and a 32-bit immediate. -/
def shVI (d a : BitVec 7) (imm : ImmForm) : Shape :=
  { cls := .a, reads := [.code a 1], writes := [.code d 1], accept := { imm := imm } }

/-- Class L with lookahead. -/
def Shape.long (sh : Shape) (l : BitVec 4) : Shape := { sh with cls := .l, la := l.toNat }

/-- Accept SAT. -/
def Shape.withSat (sh : Shape) : Shape := { sh with accept := { sh.accept with sat := true } }

/-- Accept a rounding mode, and NEG and ABS on some operands. -/
def Shape.withFP (sh : Shape) (mods : Nat) : Shape := { sh with accept := { sh.accept with rm := true, mods := mods } }

/-- Class G. -/
def Shape.group (sh : Shape) : Shape := { sh with cls := .g }

/-- The scale operand of the slot layouts (R90, R154). -/
def scRef (c : BitVec 4) : List Ref := if 8 ≤ c.toNat then [.block (c.toNat - 8) 1] else []
def scSreg (c : BitVec 4) : List Nat := if 1 ≤ c.toNat && c.toNat < 8 then [c.toNat] else []

/-- S3. -/
def shS3 (d : BitVec 6) (rs : List (BitVec 6)) : Shape :=
  { cls := .u, sreads := rs.map (·.toNat), swrites := [d.toNat] }

/-- SI with an immediate. -/
def shSI (d a : BitVec 6) (imm : ImmForm) : Shape := { shS3 d [a] with accept := { imm := imm } }

/-- M format: base, offset code, lookahead; OFFSET and a lane guard are accepted. -/
def shM (o : BitVec 7) (b : BitVec 3) (l : BitVec 4) : Shape :=
  { cls := .m, guard := .lane, reads := [.code o 1], sreads := [b.toNat], la := l.toNat,
    accept := { offset := true, lane := true } }

/-- A load into `w` registers. -/
def shLd (d o : BitVec 7) (b : BitVec 3) (l : BitVec 4) (w : Nat) : Shape :=
  { shM o b l with writes := [.code d w] }

/-- A store from `w` registers. -/
def shSt (d o : BitVec 7) (b : BitVec 3) (l : BitVec 4) (w : Nat) : Shape :=
  { shM o b l with reads := [.code o 1, .code d w] }

/-- An atomic in memory: the offset register v0 to v7, `n` operand registers, `w` result registers. -/
def shAtom (d : BitVec 7) (v b : BitVec 3) (l : BitVec 4) (n w : Nat) : Shape :=
  { shM 96 b l with reads := [.block v.toNat 1, .code d n], writes := [.code d w] }

/-- X format: base register, lookahead, a lane guard. -/
def shX (s : BitVec 3) (l : BitVec 4) : Shape :=
  { cls := .x, guard := .lane, sreads := [s.toNat], la := l.toNat, accept := { lane := true } }

/-- MMA and MMAS (R197 to R207). -/
def shMma (sparse : Bool) (f : FSlot) (c a : BitVec 7) (s : BitVec 3) (l : BitVec 4) : Shape :=
  let ok := mmaSlotOk sparse f
  let na := mmaNA sparse f
  { shX s l with
    reads := if ok then [.raw (2 * a.toNat) na, .raw (2 * c.toNat) 64] else []
    writes := if ok then [.raw (2 * c.toNat) 64] else []
    kindOk := ok
    illegal := overlap (2 * a.toNat) (max 1 na) (2 * c.toNat) 64 }

/-- An engine command of format E. -/
def shE (rs : List Nat) : Shape := { cls := .e, sreads := rs }

/-- Successive s-registers. -/
def sBlock (a : BitVec 6) (n : Nat) : List Nat := (List.range n).map fun i => a.toNat + i

/-- A view command with a result in s(c) (R183, R188): its window covers the result only. -/
def shView (rs : List Nat) (c : BitVec 6) (l : BitVec 4) : Shape :=
  { shE rs with swrites := [c.toNat], la := l.toNat, laReads := false, laSregs := false }

/-- SPAWN and PARK (R228). -/
def shDeposit (d a b : BitVec 7) (g : BitVec 3) : Shape :=
  { cls := .e, guard := .pred g, preads := [g.toNat], reads := [.code a 1, .block d.toNat 8], sreads := [b.toNat - 96] }

/-- A class C word that closes windows (R103). -/
def shClose (rs : List Nat) : Shape := { sreads := rs, closes := true, drains := true }

/-- Kinds accepted by CVTN (R154), CVTW (R156) and the lattice instructions (R157). -/
def cvtnKind (f : FSlot) : Bool := let k := descKind f.bdesc; (1 ≤ k && k ≤ 7) || k == 15
def cvtwKind (f : FSlot) : Bool := let k := descKind f.adesc; (1 ≤ k && k ≤ 8) || k == 15
def latticeKind (f : FSlot) : Bool := pointWidth (descKind f.bdesc) != 0

/-- Elements of a packed register of a kind (R154). -/
def packCount (k : Nat) : Nat := if kindBits k = 0 then 1 else 32 / kindBits k

/-- A direct name that is misaligned for `w` registers or passes v91, or an s-register code, where a slot gives `w`: illegal
whatever the guards (R97, R154, R156). -/
def badPack (c : BitVec 7) (w : Nat) : Bool := (c.toNat < 92 && (c.toNat % w != 0 || 92 < c.toNat + w)) || 96 ≤ c.toNat

/-- The slot that a word names. -/
def slotAt (slots : List FSlot) (f : BitVec 3) : FSlot := slots.getD f.toNat ⟨0, 0, 0, 0, []⟩

/-- The predicate that MCHK writes (R222). -/
def mchkPd (g : Group) (a : BitVec 6) : Nat := field (g.s (a.toNat + 1)) 40 3

/-- The shape of an instruction word in a group, under the slots of its launch (R86 to R104, R142). Events
of the table have no word and no shape. -/
def shapeOf (g : Group) (slots : List FSlot) : Instr → Shape
  | .iadd d a b _ p => (shV3 d a b p).withSat
  | .isub d a b _ p => (shV3 d a b p).withSat
  | .iadc d a b _ c => { (shV3 d a b c).withSat with guard := .all, pwrites := [c.toNat] }
  | .isbb d a b _ c => { (shV3 d a b c).withSat with guard := .all, pwrites := [c.toNat] }
  | .imul d a b _ p => (shV3 d a b p).withSat
  | .imulhS d a b _ p => shV3 d a b p
  | .imulhU d a b _ p => shV3 d a b p
  | .imad d a b _ p => (shV3d d a b p).withSat
  | .and d a b _ p => shV3 d a b p
  | .or d a b _ p => shV3 d a b p
  | .xor d a b _ p => shV3 d a b p
  | .shl d a b _ p => shV3 d a b p
  | .shr d a b _ p => shV3 d a b p
  | .sar d a b _ p => shV3 d a b p
  | .rotl d a b _ p => shV3 d a b p
  | .bfeS d a b _ p => shV3 d a b p
  | .bfeU d a b _ p => shV3 d a b p
  | .bfi d a b _ p => shV3d d a b p
  | .icmp _ p a b _ k => { shV3 0 a b k with writes := [], pwrites := [p.toNat] }
  | .sel d a b _ k => { shV3 d a b k with guard := .all }
  | .bysel d a b _ p => shV3d d a b p
  | .iaddImm d a i => (shVI d a (.vi i.toNat)).withSat
  | .imulImm d a i => (shVI d a (.vi i.toNat)).withSat
  | .andImm d a i => shVI d a (.vi i.toNat)
  | .orImm d a i => shVI d a (.vi i.toNat)
  | .xorImm d a i => shVI d a (.vi i.toNat)
  | .shlImm d a n => shVI d a (.shift 5 n.toNat)
  | .shrImm d a n => shVI d a (.shift 5 n.toNat)
  | .sarImm d a n => shVI d a (.shift 5 n.toNat)
  | .rotlImm d a n => shVI d a (.shift 5 n.toNat)
  | .movi d i => { shVI d 0 (.vi i.toNat) with reads := [] }
  | .seta _ a => { shVI 0 a .none with writes := [] }
  | .aadd _ i => { shVI 0 0 (.vi i.toNat) with reads := [], writes := [] }
  | .mov d a _ p => shV2 d a p
  | .not d a _ p => shV2 d a p
  | .iabs d a _ p => shV2 d a p
  | .popc d a _ p => shV2 d a p
  | .clz d a _ p => shV2 d a p
  | .brev d a _ p => shV2 d a p
  | .fdiv d a l _ p => ((shV2d d a p).long l).withFP 5
  | .idivS d a l _ p => (shV2d d a p).long l
  | .idivU d a l _ p => (shV2d d a p).long l
  | .iremS d a l _ p => (shV2d d a p).long l
  | .iremU d a l _ p => (shV2d d a p).long l
  | .iminS d a _ p => shV2d d a p
  | .iminU d a _ p => shV2d d a p
  | .imaxS d a _ p => shV2d d a p
  | .imaxU d a _ p => shV2d d a p
  | .fadd d a b _ p => (shV3 d a b p).withFP 6
  | .fsub d a b _ p => (shV3 d a b p).withFP 6
  | .fmul d a b _ p => (shV3 d a b p).withFP 6
  | .ffma d a b _ p => (shV3d d a b p).withFP 7
  | .ffms d a b _ p => (shV3d d a b p).withFP 7
  | .fcmp _ p a b _ k => { (shV3 0 a b k).withFP 6 with writes := [], pwrites := [p.toNat] }
  | .faddImm d a i => (shVI d a (.vi i.toNat)).withFP 6
  | .fmulImm d a i => (shVI d a (.vi i.toNat)).withFP 6
  | .ffmaImm d a i => { (shVI d a (.vi i.toNat)).withFP 7 with reads := [.code a 1, .code d 1] }
  | .fabs d a _ p => (shV2 d a p).withFP 4
  | .fneg d a _ p => (shV2 d a p).withFP 4
  | .fclass d a _ p => (shV2 d a p).withFP 0
  | .fmin d a _ p => (shV2d d a p).withFP 5
  | .fmax d a _ p => (shV2d d a p).withFP 5
  | .fsqrt d a l _ p => ((shV2 d a p).long l).withFP 4
  | .frcp d a l _ p => ((shV2 d a p).long l).withFP 4
  | .frsq d a l _ p => ((shV2 d a p).long l).withFP 4
  | .fexp2 d a l _ p => ((shV2 d a p).long l).withFP 4
  | .flog2 d a l _ p => ((shV2 d a p).long l).withFP 4
  | .fsin d a l _ p => ((shV2 d a p).long l).withFP 4
  | .fcos d a l _ p => ((shV2 d a p).long l).withFP 4
  | .ftanh d a l _ p => ((shV2 d a p).long l).withFP 4
  | .pkfmaH d a b _ p => (shV3d d a b p).withFP 7
  | .pkfmaB d a b _ p => (shV3d d a b p).withFP 7
  | .pkaddH d a _ p => (shV2d d a p).withFP 5
  | .pkmulH d a _ p => (shV2d d a p).withFP 5
  | .pkminH d a _ p => (shV2d d a p).withFP 5
  | .pkmaxH d a _ p => (shV2d d a p).withFP 5
  | .pksubH d a _ p => (shV2d d a p).withFP 5
  | .pkaddB d a _ p => (shV2d d a p).withFP 5
  | .pkmulB d a _ p => (shV2d d a p).withFP 5
  | .pkminB d a _ p => (shV2d d a p).withFP 5
  | .pkmaxB d a _ p => (shV2d d a p).withFP 5
  | .pksubB d a _ p => (shV2d d a p).withFP 5
  | .cvtS32F32 d a _ p => (shV2 d a p).withFP 0
  | .cvtU32F32 d a _ p => (shV2 d a p).withFP 0
  | .cvtF32S32 d a _ p => (shV2 d a p).withFP 0
  | .cvtF32U32 d a _ p => (shV2 d a p).withFP 0
  | .cvtF16F32 d a _ p => (shV2 d a p).withFP 0
  | .cvtF32F16 d a _ p => (shV2 d a p).withFP 0
  | .cvtBf16F32 d a _ p => (shV2 d a p).withFP 0
  | .cvtF32Bf16 d a _ p => (shV2 d a p).withFP 0
  | .cvtF32F64 d a _ p => { (shV2 d a p).withFP 0 with reads := [.code a 2] }
  | .cvtF64F32 d a _ p => { (shV2 d a p).withFP 0 with writes := [.code d 2] }
  | .unpk d a _ p => { shV2 d a p with writes := [.code d 2] }
  | .cvtn d a f c _ p => let sl := slotAt slots f
    { (shV2 d a p).withFP 0 with
      reads := (if cvtnKind sl then [.code a (packCount (descKind sl.bdesc))] else []) ++ scRef c, sreads := scSreg c, kindOk := cvtnKind sl,
      illegal := cvtnKind sl && badPack a (packCount (descKind sl.bdesc)) }
  | .cvtw d a f c _ p => let sl := slotAt slots f
    { shV2 d a p with
      reads := .code a 1 :: scRef c, sreads := scSreg c, kindOk := cvtwKind sl,
      illegal := cvtwKind sl && badPack d (packCount (descKind sl.adesc)),
      writes := if cvtwKind sl then [.code d (packCount (descKind sl.adesc))] else [] }
  | .ql8 d r n f c _ p =>
    { shV2 d 0 p with
      reads := .block (8 * r.toNat) (if n = 0 then 8 else n.toNat) :: scRef c, sreads := scSreg c,
      kindOk := latticeKind (slotAt slots f) }
  | .dl8 d a f c _ p =>
    { (shV2 d a p).withFP 0 with
      reads := .code a 1 :: scRef c, sreads := scSreg c, writes := [.block d.toNat 8], kindOk := latticeKind (slotAt slots f) }
  | .xl8 d a f _ _ p => { shV2 d a p with kindOk := latticeKind (slotAt slots f) }
  | .lxi d a b _ p => (shV3 d a b p).group
  | .lxm d a b _ p => (shV3 d a b p).group
  | .lxr d a b _ p => (shV3 d a b p).group
  | .lxs d a b _ p => (shV3 d a b p).group
  | .lmask d a _ p => (shV2 d a p).group
  | .lpeer d a _ p => (shV2 d a p).group
  | .compact d a _ p => (shV2 d a p).group
  | .lfirst d a _ p => (shV2 d a p).group
  | .lfoldIadd d a _ p => (shV2 d a p).group
  | .lfoldIminS d a _ p => (shV2 d a p).group
  | .lfoldImaxS d a _ p => (shV2 d a p).group
  | .lfoldAnd d a _ p => (shV2 d a p).group
  | .lfoldOr d a _ p => (shV2 d a p).group
  | .lfoldXor d a _ p => (shV2 d a p).group
  | .lfoldFadd d a _ p => (shV2 d a p).group
  | .lfoldFmax d a _ p => (shV2 d a p).group
  | .pand d a b p => { cls := .a, guard := .pred p, preads := [p.toNat, a.toNat, b.toNat], pwrites := [d.toNat] }
  | .por d a b p => { cls := .a, guard := .pred p, preads := [p.toNat, a.toNat, b.toNat], pwrites := [d.toNat] }
  | .pxor d a b p => { cls := .a, guard := .pred p, preads := [p.toNat, a.toNat, b.toNat], pwrites := [d.toNat] }
  | .pnot d a p => { cls := .a, guard := .pred p, preads := [p.toNat, a.toNat], pwrites := [d.toNat] }
  | .pmov d a p => { cls := .a, guard := .pred p, preads := [p.toNat, a.toNat], pwrites := [d.toNat] }
  | .lany d a p => { cls := .g, guard := .pred p, preads := [p.toNat, a.toNat], pwrites := [d.toNat] }
  | .lall d a p => { cls := .g, guard := .pred p, preads := [p.toNat, a.toNat], pwrites := [d.toNat] }
  | .lagree d a p => { cls := .g, guard := .pred p, preads := [p.toNat, a.toNat], pwrites := [d.toNat] }
  | .lodd d a p => { cls := .g, guard := .pred p, preads := [p.toNat, a.toNat], pwrites := [d.toNat] }
  | .rdfx d _ p => { shV2 d 0 p with reads := [], waitsFx := true }
  | .wrfx a p => { shV2 0 a p with writes := [], waitsFx := true }
  | .clrfx a p => { shV2 0 a p with writes := [], waitsFx := true }
  | .sadd d a b => shS3 d [a, b]
  | .ssub d a b => shS3 d [a, b]
  | .smul d a b => shS3 d [a, b]
  | .sand d a b => shS3 d [a, b]
  | .sor d a b => shS3 d [a, b]
  | .sxor d a b => shS3 d [a, b]
  | .sshl d a b => shS3 d [a, b]
  | .sshr d a b => shS3 d [a, b]
  | .ssar d a b => shS3 d [a, b]
  | .smov d a => shS3 d [a]
  | .scmp d a b _ => shS3 d [a, b]
  | .ssel d a b => shS3 d [a, b, d]
  | .saddImm d a i => shSI d a (.si i.toNat)
  | .sandImm d a i => shSI d a (.si i.toNat)
  | .sorImm d a i => shSI d a (.si i.toNat)
  | .sxorImm d a i => shSI d a (.si i.toNat)
  | .sshlImm d a n => shSI d a (.shift 6 n.toNat)
  | .sshrImm d a n => shSI d a (.shift 6 n.toNat)
  | .ssarImm d a n => shSI d a (.shift 6 n.toNat)
  | .smovi d i => { shS3 d [] with accept := { imm := .si i.toNat } }
  | .sldc d _ => shS3 d []
  | .sld d a i => shSI d a (.si i.toNat)
  | .sst d a i => { shSI 0 a (.si i.toNat) with sreads := [a.toNat, d.toNat], swrites := [] }
  | .ldB d o b l _ _ => shLd d o b l 1
  | .ldH d o b l _ _ => shLd d o b l 1
  | .ldW d o b l _ _ => shLd d o b l 1
  | .ldD d o b l _ _ => shLd d o b l 2
  | .ldQ d o b l _ _ => shLd d o b l 4
  | .stB d o b l _ _ => shSt d o b l 1
  | .stH d o b l _ _ => shSt d o b l 1
  | .stW d o b l _ _ => shSt d o b l 1
  | .stD d o b l _ _ => shSt d o b l 2
  | .stQ d o b l _ _ => shSt d o b l 4
  | .ldl d o b l z => shLd d o b l z.regs
  | .ldt d o b l => shLd d o b l 4
  | .stl d o b l z => shSt d o b l z.regs
  | .atom d c v b l _ _ => shAtom d v b l (atomRegs c false) 1
  | .atomFadd d v b l _ _ => shAtom d v b l 1 1
  | .atomD d c v b l _ _ => shAtom d v b l (atomRegs c true) 2
  | .fxadd d v b l _ _ => let sh := shAtom d v b l 1 2; { sh with accept := { sh.accept with fexp := true } }
  | .atoml d o b l c => { shM o b l with reads := [.code o 1, .code d c.regs], writes := [.code d 1] }
  | .pref o b _ => { shM o b 0 with moves := true, boundless := true }
  | .zfill o b l _ _ => shM o b l
  | .mma c a s f l _ => shMma false (slotAt slots f) c a s l
  | .mmah _ a s f l _ => let sl := slotAt slots f
    let ok := mmaSlotOk false sl
    { shX s l with reads := (if ok then [.raw (2 * a.toNat) (mmaNA false sl)] else []), kindOk := ok, laSregs := false }
  | .mmas c a s f l _ => shMma true (slotAt slots f) c a s l
  | .hldReg _ a l => { shX 0 l with reads := [.raw (2 * a.toNat) 64], moves := true }
  | .hstReg _ a l => { shX 0 l with writes := [.raw (2 * a.toNat) 64] }
  | .hldScratch _ s _ => shX s 0
  | .hstScratch _ s _ => shX s 0
  | .hzero _ _ => shX 0 0
  | .hdrn a b c _ => { shE [a.toNat, b.toNat, c.toNat] with cls := .x }
  | .hdrnMom a b c _ => { shE [a.toNat, b.toNat, c.toNat] with cls := .x }
  | .hdrnSq a b c _ => { shE [a.toNat, b.toNat, c.toNat] with cls := .x }
  | .pilotGt a b c _ => { shE (sBlock a 2 ++ [b.toNat, c.toNat]) with cls := .x }
  | .pilotTop a b c _ => { shE (sBlock a 2 ++ [b.toNat, c.toNat]) with cls := .x }
  | .mchk a b c l =>
    { shE (sBlock a 4 ++ [b.toNat]) with cls := .x, swrites := [c.toNat], pwrites := [mchkPd g a], la := l.toNat }
  | .vset a b c l => shView [a.toNat, b.toNat] c l
  | .vbase a b c l => shView [a.toNat, b.toNat, c.toNat] c l
  | .vinv a _ => shE [a.toNat]
  | .vqry a b c l => shView [a.toNat, b.toNat] c l
  | .cpy d o b _ _ => { shM o b 0 with
      cls := .e
      reads := [.code o 1, .code d 1]
      accept := { offset := true, lane := true, counter := true } }
  | .cpym a b c _ => { shE [a.toNat, b.toNat, c.toNat] with accept := { counter := true } }
  | .cpyo a b _ => { shE [a.toNat, b.toNat] with accept := { counter := true } }
  | .cpyrw a b c _ => { shE [a.toNat, b.toNat, c.toNat] with accept := { counter := true } }
  | .csig a b _ => shE [a.toNat, b.toNat]
  | .spawn d a b p => shDeposit d a b p
  | .park d a b p => { shDeposit d a b p with drains := true }
  | .bflush a _ => shE [a.toNat]
  | .cvoy a b c _ => { shE (sBlock a 4 ++ [b.toNat]) with swrites := [c.toNat] }
  | .cvqry a c l => { shE [a.toNat] with swrites := [c.toNat], la := l.toNat }
  | .bra p _ _ => { preads := [p.toNat] }
  | .call p _ _ => { preads := [p.toNat], closes := true, drains := true }
  | .jmp r => { sreads := [r.toNat] }
  | .callr r => shClose [r.toNat]
  | .nop => {}
  | .ret => shClose []
  | .exit => shClose []
  | .yield => shClose []
  | .bkpt _ => {}
  | .trap _ => {}
  | .meld a b => { shClose [] with preads := [a.toNat, b.toNat], pwrites := [4, 5, 6, 7] }
  | .mset _ r => shClose [r.toNat]
  | .mend => shClose []
  | .bar _ r => shClose [r.toNat]
  | .bara _ r => shClose [r.toNat]
  | .barw _ r => shClose [r.toNat]
  | .gbar => shClose []
  | .fence _ _ => {}
  | .cinv _ => {}
  | .waitc r => shClose [r.toNat]
  | .shw _ a p => { shClose [] with guard := .pred p, preads := [p.toNat], reads := [.code a 1] }
  | .shrWindow d _ p => { shClose [] with guard := .pred p, preads := [p.toNat], writes := [.code d 1] }
  | .shp d _ p => { shClose [] with guard := .pred p, preads := [p.toNat], writes := [.code d 1] }
  | .rdsr r _ => { swrites := [r.toNat] }
  | .wrsr r _ => { sreads := [r.toNat] }
  | .rdclk r => { swrites := [r.toNat] }
  | .errq r => { swrites := [r.toNat, r.toNat + 1] }
  | .imml _ => { cls := .a }
  | .immh _ => { cls := .a }
  | .modArith _ _ _ _ => { cls := .a }
  | .modOffset _ => { cls := .a }
  | .modCounter _ _ => { cls := .a }
  | .modLane _ _ _ => { cls := .a }
  | .sched _ _ => { cls := .a }
  | _ => {}

/-! ### The issue that runs -/

/-- The issue, as a meaning sees it: the machine before it, its group, launch and team, its lanes, the
hints of its sequence, and the address that a trap records (R97, R258). -/
structure Env where
  s : State
  iss : Issue
  g : Group
  l : Launch
  team : Team
  lanes : List Nat
  hs : List Instr
  h : Hints
  at_ : Word64
  deriving DecidableEq, Repr

/-- The current issue with all that it stands on; none where the machine has none. -/
def State.env? (s : State) : Option Env :=
  match s.cur with
  | none => none
  | some iss =>
    match s.group? iss.cu iss.part iss.slot with
    | none => none
    | some g =>
      match s.launch? g.launch, s.team? g.team with
      | some l, some team =>
        let lanes := (lanesOf iss.lanes).filter fun i => (g.thread? i).isSome
        match lanes.head?.bind g.thread? with
        | none => none
        | some t =>
          some { s := s, iss := iss, g := g, l := l, team := team, lanes := lanes, hs := t.hints,
                 h := Hints.of t.hints, at_ := if t.hints.isEmpty then iss.pc else t.hintPc }
      | _, _ => none

/-- The thread of a lane before the issue. -/
def Env.thread (e : Env) (lane : Nat) : Option Thread := e.g.thread? lane

/-- The windows of the issuing group. -/
def Env.wins (e : Env) : List (Nat × Nat × Nat) := windowsOf e.l e.g

/-- An s-register as the issue reads it. -/
def Env.sv (e : Env) (k : Nat) : Nat := e.g.s k

/-- A lane's guard holds (R88, R99). -/
def Env.guarded (e : Env) (gd : Guard) (t : Thread) : Bool :=
  match gd with
  | .all => true
  | .pred p => t.p p.toNat
  | .lane => if e.h.lane then t.p e.h.guard != e.h.guardNeg else true

/-- The lanes that take part (R224). -/
def Env.take (e : Env) (gd : Guard) : List Nat :=
  e.lanes.filter fun i => (e.thread i).any (e.guarded gd)

/-- What an operand comes to in a lane before the issue. -/
def Env.sel (e : Env) (r : Ref) (t : Thread) (write : Bool) : Sel := r.sel e.g e.wins t write

/-- The words that an operand reads in a lane. -/
def Env.words (e : Env) (r : Ref) (t : Thread) : List Word := (e.sel r t false).words e.g t

/-- The value that a source code reads in a lane, as one number (R24, R26). -/
def Env.val (e : Env) (c : BitVec 7) (w : Nat) (t : Thread) : Nat := regsNat (e.words (.code c w) t)

/-- Registers that a list of operands names in a lane. -/
def Env.regsOf (e : Env) (rs : List Ref) (t : Thread) (write : Bool) : List Nat :=
  rs.flatMap fun r => (e.sel r t write).list

/-- Registers that a list of operands names in a lane, within bounds or not (R102). -/
def Env.namesOf (e : Env) (rs : List Ref) (t : Thread) : List Nat := rs.flatMap fun r => r.named e.g t

/-- s-registers that a list of operands reads through codes 97 to 127. -/
def codeSregs (rs : List Ref) : List Nat :=
  rs.filterMap fun r => match r with
    | .code c _ => if 97 ≤ c.toNat then some (c.toNat - 96) else none
    | _ => none

/-- s-registers that a shape reads, s0 apart. -/
def Shape.sregs (sh : Shape) : List Nat := (sh.sreads ++ codeSregs sh.reads).filter (· != 0)

/-- s-registers that a shape writes, s0 apart. -/
def Shape.swr (sh : Shape) : List Nat := sh.swrites.filter (· != 0)

/-- Two lists share a member. -/
def meets (xs ys : List Nat) : Bool := xs.any ys.contains

/-- The predicate that gates the lanes of an issue, p0 apart (R88, R99). -/
def Env.guardPred (e : Env) (sh : Shape) : List Nat :=
  (match sh.guard with
   | .all => []
   | .pred p => [p.toNat]
   | .lane => if e.h.lane then [e.h.guard] else []).filter (· != 0)

/-- The lane's guard is a predicate that one of its lookahead windows covers (R102, R223): its value is not there yet, so the
lane counts whatever the old value says (log 114). -/
def Env.guardAhead (e : Env) (sh : Shape) (t : Thread) : Bool :=
  !sh.closes && t.windows.any fun w => meets (e.guardPred sh) w.pwrites

/-- The lane runs into one of its lookahead windows (R102), also by an operand that raises another fault (R458). -/
def Env.lookahead (e : Env) (sh : Shape) (t : Thread) : Bool :=
  let rd := e.namesOf sh.reads t
  let wr := e.namesOf sh.writes t
  !sh.closes && t.windows.any fun w =>
    meets (rd ++ wr) w.writes || meets wr w.reads ||
    meets (sh.sregs ++ sh.swr) w.swrites || meets sh.swr w.sreads ||
    meets (sh.preads ++ sh.pwrites) w.pwrites

/-- Conditions of the operands of one lane (R23, R26, R28, R40, R102, R174). -/
def Env.laneConds (e : Env) (sh : Shape) (lane : Nat) (t : Thread) : List Cond :=
  (((sh.reads.filterMap fun r => (e.sel r t false).cause) ++ (sh.writes.filterMap fun r => (e.sel r t true).cause)).filter
    fun k => !(sh.boundless && k == 4)).map (fun k => { cause := k, lane := lane, detail := 0, code := 0 }) ++
  (if e.lookahead sh t then [{ cause := 3, lane := lane, detail := 0, code := 0 }] else [])

/-- A condition of the word alone, met by every active lane (R458). -/
def Env.wordCond (e : Env) (cause : Nat) : Cond := { cause := cause, lane := e.lanes.headD 0, detail := 0, code := 0 }

/-- The conditions of a word, its hints and its operands (R97, R101, R458). -/
def Env.conds (e : Env) (i : Instr) (sh : Shape) : List Cond :=
  let take := e.take sh.guard
  (match i.illFormed with
   | none => []
   | some .hintPayload => [e.wordCond 2]
   | some _ => [e.wordCond 1]) ++
  (if sh.illegal then [e.wordCond 1] else []) ++
  (e.lanes.filter fun n => (e.thread n).any (e.guardAhead sh)).map (fun n => { cause := 3, lane := n, detail := 0, code := 0 }) ++
  (if e.h.misused sh.accept then [e.wordCond 2] else []) ++
  (if !sh.kindOk && !take.isEmpty then [{ cause := 1, lane := take.headD 0, detail := 0, code := 0 }] else []) ++
  take.flatMap fun n => (e.thread n).elim [] (e.laneConds sh n)

/-- Some lane reads a marked register (R434). -/
def Env.poisoned (e : Env) (sh : Shape) : Bool :=
  !sh.moves && (e.take sh.guard).any fun n => (e.thread n).any fun t => meets (e.regsOf sh.reads t false) t.bad

end Sys2Proof.Machine
end

