-- ==== Sys2Proof/Machine/Flags.lean ====
section
/-!
DEFINITION. Flags: the FX register of a thread (R31, R32, R160), carries and borrows (R117), saturation
(R118), and comparisons (R90, R122, R149).
-/
namespace Sys2Proof.Machine

/-- OR flags into FX unless Q (R32). Reserved bits stay zero (R31). -/
def Thread.orFx (t : Thread) (q : Bool) (fx : Nat) : Thread :=
  if q then t else { t with fx := t.fx ||| BitVec.ofNat 32 (fx % 128) }

/-- RDFX (R160). -/
def Thread.readFx (t : Thread) : Word := BitVec.ofNat 32 (t.fx.toNat % 128)

/-- WRFX (R160). -/
def Thread.writeFx (t : Thread) (a : Nat) : Thread := { t with fx := BitVec.ofNat 32 (a % 128) }

/-- CLRFX (R160). -/
def Thread.clearFx (t : Thread) (a : Nat) : Thread := { t with fx := t.fx &&& ~~~(BitVec.ofNat 32 (a % 128)) }

/-- Carry out of bit 31 of a + b + c (R117). -/
def carryOut (a b : Nat) (c : Bool) : Bool := 2 ^ 32 ≤ a + b + (if c then 1 else 0)

/-- Borrow of a - b - c (R117). -/
def borrowOut (a b : Nat) (c : Bool) : Bool := a < b + (if c then 1 else 0)

/-- An integer result of 32 bits under SAT (R114, R118): `f` computes it exactly from the operands, which
are read as signed values under SAT 1 and as unsigned ones under SAT 2. -/
def satResult (sat : Nat) (f : (Nat → Int) → Int) : Nat :=
  if sat = 1 then wrap 32 (satInt (f (signed 32)) 32 true)
  else if sat = 2 then wrap 32 (satInt (f fun x => (x : Int)) 32 false)
  else wrap 32 (f fun x => (x : Int))

/-- a cc b at a width (R90, R122, R126). -/
def icmpHolds (c : ICmp) (n a b : Nat) : Bool :=
  match c with
  | .eq => a == b
  | .ne => a != b
  | .ltS => signed n a < signed n b
  | .leS => signed n a ≤ signed n b
  | .gtS => signed n b < signed n a
  | .geS => signed n b ≤ signed n a
  | .ltU => a < b
  | .leU => a ≤ b
  | .gtU => b < a
  | .geU => b ≤ a

/-- a cc b as FP32 values, and the flags (R149). -/
def fcmpHolds (c : FCmp) (x y : Nat) : Bool × Nat :=
  let a := fp32.decode x
  let b := fp32.decode y
  let un := a.isNan || b.isNan
  let quiet := nanFlags [a, b]
  let loud := if un then fxNV else 0
  let o := FV.cmp a b
  match c with
  | .eq => (!un && o == .eq, quiet)
  | .ne => (un || o != .eq, quiet)
  | .lt => (!un && o == .lt, loud)
  | .le => (!un && o != .gt, loud)
  | .gt => (!un && o == .gt, loud)
  | .ge => (!un && o != .lt, loud)
  | .un => (un, quiet)
  | .ord => (!un, quiet)

end Sys2Proof.Machine
end

