-- ==== Sys2Proof/Machine/Run.lean ====
section
/-!
DEFINITION. Running one issue of one word: the conditions it meets and the trap (R25, R97, R458), the
paired comparison (R441), poison (R434), a stall (R166), and otherwise its effect with the threads of the
issue advanced past the word (R85, R98, R102). Every meaning of an instruction word is written with
`runWord`.
-/
namespace Sys2Proof.Machine

/-- How the effect of an issue ends once it meets no precise condition. -/
inductive Out where
  /-- The issue takes effect. -/
  | go (s : State)
  /-- A trap whose recorded address is not the word's, or that later data decided (R134, R210). -/
  | trap (c : Cond) (at_ : Word64) (brk : Bool)
  /-- A translation fault (R166) of an agent (R398); `far` when it arose at the far module (R412). -/
  | stall (cause va : Nat) (acc : Access) (far : Bool) (agent : Nat)
  /-- A consuming read of poison (R434). -/
  | consume (addr : Nat)
  /-- A consuming read of memory; `read` is the machine that the read leaves, whose L1 has discarded what it must (R302). -/
  | consumeL1 (addr : Nat) (read : State)
  /-- A marked page table or view descriptor freezes the context (R434). -/
  | freezes (addr : Nat)
  /-- The threads wait and the word issues again (R204, R236). -/
  | wait (w : Wait)
  deriving DecidableEq, Repr

/-- The shape of a word for this issue. -/
def Env.shape (e : Env) (i : Instr) : Shape := shapeOf e.g e.l.slots i

/-- The window that a thread opens at this word (R102). -/
def Env.window (e : Env) (sh : Shape) (t : Thread) : List LaWindow :=
  if sh.la = 0 then []
  else
    [{ left := sh.la, writes := e.regsOf sh.writes t true, swrites := sh.swr, pwrites := sh.pwrites.filter (· != 0),
       reads := if sh.laReads then e.regsOf sh.reads t false else [], sreads := if sh.laSregs then sh.sregs else [] }]

/-- The windows of a thread after this word (R102, R103). -/
def Env.windowsAfter (e : Env) (sh : Shape) (takes : Bool) (t : Thread) : List LaWindow :=
  (if sh.closes then [] else (t.windows.map fun w => { w with left := w.left - 1 }).filter fun w => w.left != 0) ++
  (if takes then e.window sh t else [])

/-- A thread past a word that is no hint (R85, R98). -/
def Thread.past (t : Thread) (ws : List LaWindow) : Thread :=
  { t with pc := t.pc + 4, hints := [], hintPc := 0, fell := true, windows := ws }

/-- Change the issuing group. -/
def Env.upd (e : Env) (s : State) (f : Group → Group) : State := s.updGroup e.iss.cu e.iss.part e.iss.slot f

/-- Change some lanes of the issuing group; the function also sees the thread as it was at issue. -/
def Env.onLanes (e : Env) (lanes : List Nat) (s : State) (f : Nat → Thread → Thread → Thread) : State :=
  e.upd s fun g => g.mapLanes (maskOf 32 lanes) fun n t => (e.thread n).elim t fun t0 => f n t0 t

/-- The machine with the threads of the issue past the word. -/
def Env.advance (e : Env) (sh : Shape) : State :=
  let take := e.take sh.guard
  e.onLanes e.lanes e.s fun n t0 t => t.past (e.windowsAfter sh (take.contains n) t0)

/-- The record of a launch that an issue stops (R430, R434, R441). -/
def Env.errRec (e : Env) (cls source action : Nat) (addr : Nat) : ErrRec :=
  { ErrRec.ofLaunch e.s e.l cls source action with
    slot := some e.iss.slot, cu := some (cunum e.iss.cu e.iss.part), addr := addr }

/-- The L1 of a CU as another machine holds it. -/
def State.withL1 (s : State) (cu : Nat) (t : State) : State := s.updCu cu fun c => { c with l1 := (t.cu? cu).elim c.l1 (·.l1) }

/-- End an issue. -/
def Env.finish (e : Env) : Out → State
  | .go s => s
  | .trap c a brk => e.s.takeTrap e.iss e.l c a brk
  | .stall cause va acc far agent => e.s.stallIssue e.iss e.l cause va acc far agent
  | .consume a => e.s.stopConsumed e.l.id (e.errRec 2 0x0C 4 a)
  | .consumeL1 a t => (e.s.withL1 e.iss.cu t).stopConsumed e.l.id (e.errRec 2 0x0C 4 a)
  | .freezes a => e.s.freeze e.l.ctx (e.errRec 3 0x16 7 a)
  | .wait w => e.onLanes e.lanes e.s fun _ _ t => { t with wait := w }

/-- A paired launch meets a mismatch of its two issues (R441). -/
def Env.mismatch (e : Env) : Bool := bitOf e.l.hdr.flags 1 && e.s.upset == some .paired

/-- Run the current issue of a word: conditions first (R458), then the paired comparison, then poison, then
the effect, which sees the machine with the threads advanced. -/
def runWord (s : State) (i : Instr) (extra : Env → List Nat → List Cond) (act : Env → State → Out) :
    Host.Outcome State Fault Refusal :=
  match s.env? with
  | none => .fault .noIssue
  | some e =>
    let sh := e.shape i
    match worst (e.conds i sh ++ extra e (e.take sh.guard)) with
    | some c => .next (e.finish (.trap c e.at_ false))
    | none =>
      if e.mismatch then .next ({ s with upset := none }.stopConsumed e.l.id (e.errRec 2 0x09 4 e.iss.pc.toNat))
      else if e.poisoned sh then .next (e.finish (.consume 0))
      else .next (e.finish (act e (e.advance sh)))

/-- No condition beyond those of the word and its operands. -/
def noMore : Env → List Nat → List Cond := fun _ _ => []

/-- A condition in a lane. -/
def laneCond (cause lane : Nat) : Cond := { cause := cause, lane := lane, detail := 0, code := 0 }

/-- A condition met by the issue as a whole, where it holds. -/
def Env.when (e : Env) (b : Bool) (cause : Nat) : List Cond := if b then [e.wordCond cause] else []

/-- A word that writes v-registers and flags in the lanes that take part (R113, R141). -/
def vecOp (s : State) (i : Instr) (d : Ref) (q : Bool) (f : Env → Nat → Thread → List Word × Nat) :
    Host.Outcome State Fault Refusal :=
  runWord s i noMore fun e s1 => .go (e.onLanes (e.take (e.shape i).guard) s1 fun n t0 t =>
    let r := f e n t0
    (t.putRegs (e.sel d t0 true).list r.1).orFx q r.2)

/-- A word that writes one predicate and flags in the lanes that take part. -/
def predOp (s : State) (i : Instr) (p : BitVec 3) (q : Bool) (f : Env → Nat → Thread → Bool × Nat) :
    Host.Outcome State Fault Refusal :=
  runWord s i noMore fun e s1 => .go (e.onLanes (e.take (e.shape i).guard) s1 fun n t0 t =>
    let r := f e n t0
    (t.setP p.toNat r.1).orFx q r.2)

/-- A word that changes the threads that take part in another way. -/
def threadOp (s : State) (i : Instr) (f : Env → Nat → Thread → Thread → Thread) : Host.Outcome State Fault Refusal :=
  runWord s i noMore fun e s1 => .go (e.onLanes (e.take (e.shape i).guard) s1 (f e))

/-- One 32-bit result of one source. -/
def op1 (s : State) (i : Instr) (d a : BitVec 7) (q : Bool) (f : Hints → Nat → Nat × Nat) : Host.Outcome State Fault Refusal :=
  vecOp s i (.code d 1) q fun e _ t => let r := f e.h (e.val a 1 t); ([BitVec.ofNat 32 r.1], r.2)

/-- One 32-bit result of two sources. -/
def op2 (s : State) (i : Instr) (d a b : BitVec 7) (q : Bool) (f : Hints → Nat → Nat → Nat × Nat) :
    Host.Outcome State Fault Refusal :=
  vecOp s i (.code d 1) q fun e _ t => let r := f e.h (e.val a 1 t) (e.val b 1 t); ([BitVec.ofNat 32 r.1], r.2)

/-- One 32-bit result of two sources and the old destination. -/
def op3 (s : State) (i : Instr) (d a b : BitVec 7) (q : Bool) (f : Hints → Nat → Nat → Nat → Nat × Nat) :
    Host.Outcome State Fault Refusal :=
  vecOp s i (.code d 1) q fun e _ t =>
    let r := f e.h (e.val a 1 t) (e.val b 1 t) (e.val d 1 t); ([BitVec.ofNat 32 r.1], r.2)

/-- A uniform instruction (R125): one result for the issuing key. -/
def uniOp (s : State) (i : Instr) (d : BitVec 6) (f : Env → Nat) : Host.Outcome State Fault Refusal :=
  runWord s i noMore fun e s1 => .go (e.upd s1 fun g => g.setS d.toNat (f e))

end Sys2Proof.Machine
end

