-- ==== Sys2Proof/Machine/Float.lean ====
section
/-!
DEFINITION. FP32 arithmetic (R141 to R150) and FX access (R160).
-/
namespace Sys2Proof.Machine

/-- ABS and then NEG of MOD ARITH on a pattern (R99, R142): `k` is the bit of the operand, `sgn` the mask of
its sign bits. -/
def modPat (h : Hints) (k sgn x : Nat) : Nat :=
  let y := if (h.abs &&& k) != 0 then x &&& (sgn ^^^ 4294967295) else x
  if (h.neg &&& k) != 0 then y ^^^ sgn else y

/-- Operands a, b and d of FP32 instructions after MOD ARITH. -/
def modA (h : Hints) (x : Nat) : Nat := modPat h 4 2147483648 x
def modB (h : Hints) (x : Nat) : Nat := modPat h 2 2147483648 x
def modD (h : Hints) (x : Nat) : Nat := modPat h 1 2147483648 x

/-- The rounding mode of a sequence (R68). -/
def Hints.mode (h : Hints) : RMode := RMode.ofCode h.rm

/-- An FP32 immediate (R75, R100). -/
def immF (h : Hints) (i : BitVec 11) : Nat := h.wide32 (i.toNat * 2 ^ 21)

/-- A rounded result as a pair. -/
def Rounded.pair (r : Rounded) : Nat × Nat := (r.pat, r.fx)

/-- FP32 sum, difference, product and fused product of patterns (R145). -/
def fAdd32 (m : RMode) (x y : Nat) : Rounded := addFP fp32 m (fp32.decode x) (fp32.decode y)
def fSub32 (m : RMode) (x y : Nat) : Rounded := addFP fp32 m (fp32.decode x) ((fp32.decode y).flip true)
def fMul32 (m : RMode) (x y : Nat) : Rounded := mulFP fp32 m (fp32.decode x) (fp32.decode y)
def fFma32 (m : RMode) (x y z : Nat) : Rounded := fmaFP fp32 m (fp32.decode x) (fp32.decode y) (fp32.decode z)
def fFms32 (m : RMode) (x y z : Nat) : Rounded :=
  fmaFP fp32 m (fp32.decode x) (fp32.decode y) ((fp32.decode z).flip true)

/-- The class mask of R148. -/
def fclass32 (x : Nat) : Nat :=
  let neg := bitOf x 31
  match fp32.decode x with
  | .nan n => if n.sig then 1 else 2
  | .inf _ => if neg then 4 else 512
  | .fin _ m _ =>
    if m = 0 then (if neg then 32 else 64)
    else if field x 23 8 = 0 then (if neg then 16 else 128)
    else (if neg then 8 else 256)

/-- A correctly rounded unary function (R150). -/
def unaryOp (s : State) (i : Instr) (d a : BitVec 7) (q : Bool) (f : Fun1) : Host.Outcome State Fault Refusal :=
  op1 s i d a q fun h x => (fun1 f h.mode (fp32.decode (modA h x))).pair

/-- FDIV (R146): D := D ÷ A. -/
def execFdiv (d a : BitVec 7) (l : BitVec 4) (q : Bool) (g : BitVec 3) (s : State) : Host.Outcome State Fault Refusal :=
  op2 s (.fdiv d a l q g) d d a q fun h x y => (divFP fp32 h.mode (fp32.decode (modD h x)) (fp32.decode (modA h y))).pair

/-- FADD (R145). -/
def execFadd (d a b : BitVec 7) (q : Bool) (g : BitVec 3) (s : State) : Host.Outcome State Fault Refusal :=
  op2 s (.fadd d a b q g) d a b q fun h x y => (fAdd32 h.mode (modA h x) (modB h y)).pair

/-- FSUB (R145). -/
def execFsub (d a b : BitVec 7) (q : Bool) (g : BitVec 3) (s : State) : Host.Outcome State Fault Refusal :=
  op2 s (.fsub d a b q g) d a b q fun h x y => (fSub32 h.mode (modA h x) (modB h y)).pair

/-- FMUL (R145). -/
def execFmul (d a b : BitVec 7) (q : Bool) (g : BitVec 3) (s : State) : Host.Outcome State Fault Refusal :=
  op2 s (.fmul d a b q g) d a b q fun h x y => (fMul32 h.mode (modA h x) (modB h y)).pair

/-- FFMA (R145). -/
def execFfma (d a b : BitVec 7) (q : Bool) (g : BitVec 3) (s : State) : Host.Outcome State Fault Refusal :=
  op3 s (.ffma d a b q g) d a b q fun h x y z => (fFma32 h.mode (modA h x) (modB h y) (modD h z)).pair

/-- FFMS (R145). -/
def execFfms (d a b : BitVec 7) (q : Bool) (g : BitVec 3) (s : State) : Host.Outcome State Fault Refusal :=
  op3 s (.ffms d a b q g) d a b q fun h x y z => (fFms32 h.mode (modA h x) (modB h y) (modD h z)).pair

/-- FCMP (R149). -/
def execFcmp (c : FCmp) (p : BitVec 3) (a b : BitVec 7) (q : Bool) (g : BitVec 3) (s : State) :
    Host.Outcome State Fault Refusal :=
  predOp s (.fcmp c p a b q g) p q fun e _ t => fcmpHolds c (modA e.h (e.val a 1 t)) (modB e.h (e.val b 1 t))

/-- FADD with immediate (R145). -/
def execFaddImm (d a : BitVec 7) (i : BitVec 11) (s : State) : Host.Outcome State Fault Refusal :=
  op1 s (.faddImm d a i) d a false fun h x => (fAdd32 h.mode (modA h x) (modB h (immF h i))).pair

/-- FMUL with immediate (R145). -/
def execFmulImm (d a : BitVec 7) (i : BitVec 11) (s : State) : Host.Outcome State Fault Refusal :=
  op1 s (.fmulImm d a i) d a false fun h x => (fMul32 h.mode (modA h x) (modB h (immF h i))).pair

/-- FFMA with immediate (R145). -/
def execFfmaImm (d a : BitVec 7) (i : BitVec 11) (s : State) : Host.Outcome State Fault Refusal :=
  op2 s (.ffmaImm d a i) d a d false fun h x z => (fFma32 h.mode (modA h x) (modB h (immF h i)) (modD h z)).pair

/-- FABS (R147): a bit operation. -/
def execFabs (d a : BitVec 7) (q : Bool) (g : BitVec 3) (s : State) : Host.Outcome State Fault Refusal :=
  op1 s (.fabs d a q g) d a q fun h x => (modA h x % 2147483648, 0)

/-- FNEG (R147): a bit operation. -/
def execFneg (d a : BitVec 7) (q : Bool) (g : BitVec 3) (s : State) : Host.Outcome State Fault Refusal :=
  op1 s (.fneg d a q g) d a q fun h x => (modA h x ^^^ 2147483648, 0)

/-- FCLASS (R148). -/
def execFclass (d a : BitVec 7) (q : Bool) (g : BitVec 3) (s : State) : Host.Outcome State Fault Refusal :=
  op1 s (.fclass d a q g) d a q fun _ x => (fclass32 x, 0)

/-- FMIN (R147). -/
def execFmin (d a : BitVec 7) (q : Bool) (g : BitVec 3) (s : State) : Host.Outcome State Fault Refusal :=
  op2 s (.fmin d a q g) d d a q fun h x y => (minMaxFP fp32 false (modD h x) (modA h y)).pair

/-- FMAX (R147). -/
def execFmax (d a : BitVec 7) (q : Bool) (g : BitVec 3) (s : State) : Host.Outcome State Fault Refusal :=
  op2 s (.fmax d a q g) d d a q fun h x y => (minMaxFP fp32 true (modD h x) (modA h y)).pair

/-- FSQRT (R150). -/
def execFsqrt (d a : BitVec 7) (l : BitVec 4) (q : Bool) (g : BitVec 3) (s : State) : Host.Outcome State Fault Refusal :=
  unaryOp s (.fsqrt d a l q g) d a q .sqrt

/-- FRCP (R150). -/
def execFrcp (d a : BitVec 7) (l : BitVec 4) (q : Bool) (g : BitVec 3) (s : State) : Host.Outcome State Fault Refusal :=
  unaryOp s (.frcp d a l q g) d a q .rcp

/-- FRSQ (R150). -/
def execFrsq (d a : BitVec 7) (l : BitVec 4) (q : Bool) (g : BitVec 3) (s : State) : Host.Outcome State Fault Refusal :=
  unaryOp s (.frsq d a l q g) d a q .rsq

/-- FEXP2 (R150). -/
def execFexp2 (d a : BitVec 7) (l : BitVec 4) (q : Bool) (g : BitVec 3) (s : State) : Host.Outcome State Fault Refusal :=
  unaryOp s (.fexp2 d a l q g) d a q .exp2

/-- FLOG2 (R150). -/
def execFlog2 (d a : BitVec 7) (l : BitVec 4) (q : Bool) (g : BitVec 3) (s : State) : Host.Outcome State Fault Refusal :=
  unaryOp s (.flog2 d a l q g) d a q .log2

/-- FSIN (R150). -/
def execFsin (d a : BitVec 7) (l : BitVec 4) (q : Bool) (g : BitVec 3) (s : State) : Host.Outcome State Fault Refusal :=
  unaryOp s (.fsin d a l q g) d a q .sin

/-- FCOS (R150). -/
def execFcos (d a : BitVec 7) (l : BitVec 4) (q : Bool) (g : BitVec 3) (s : State) : Host.Outcome State Fault Refusal :=
  unaryOp s (.fcos d a l q g) d a q .cos

/-- FTANH (R150). -/
def execFtanh (d a : BitVec 7) (l : BitVec 4) (q : Bool) (g : BitVec 3) (s : State) : Host.Outcome State Fault Refusal :=
  unaryOp s (.ftanh d a l q g) d a q .tanh

/-- RDFX (R160). -/
def execRdfx (d : BitVec 7) (q : Bool) (g : BitVec 3) (s : State) : Host.Outcome State Fault Refusal :=
  vecOp s (.rdfx d q g) (.code d 1) true fun _ _ t => ([t.readFx], 0)

/-- WRFX (R160). -/
def execWrfx (a : BitVec 7) (g : BitVec 3) (s : State) : Host.Outcome State Fault Refusal :=
  threadOp s (.wrfx a g) fun e _ t0 t => t.writeFx (e.val a 1 t0)

/-- CLRFX (R160). -/
def execClrfx (a : BitVec 7) (g : BitVec 3) (s : State) : Host.Outcome State Fault Refusal :=
  threadOp s (.clrfx a g) fun e _ t0 t => t.clearFx (e.val a 1 t0)

end Sys2Proof.Machine
end

