-- ==== Sys2Proof/Machine/Access.lean ====
section
/-!
DEFINITION. Memory accesses of an issue: addresses (R161 to R164), the samples of the views that it names
(R318), the precise conditions of its accesses (R165, R316, R317), stalls and poison (R166, R434), loads
and stores of elements (R167 to R169), and scratchpad accesses (R163, R171, R293).
-/
namespace Sys2Proof.Machine

/-- One lane's access: its lane and its exact address before any check. -/
abbrev LaneEA := Nat × Int

/-- The address of M format in a lane (R161). -/
def Env.ea (e : Env) (b : BitVec 3) (off : Nat) : Int :=
  (e.sv b.toNat : Int) + (off : Int) + e.h.offset.getD 0

/-- The scratchpad address of M format in a lane (R163). -/
def Env.sa (e : Env) (b : BitVec 3) (off : Nat) : Int :=
  ((e.sv b.toNat % 4294967296 : Nat) : Int) + (off : Int) + e.h.offset.getD 0

/-- Lanes that take part with their threads. -/
def Env.takers (e : Env) (gd : Guard) : List (Nat × Thread) :=
  (e.take gd).filterMap fun n => (e.thread n).map fun t => (n, t)

/-- Addresses of the lanes that take part, by the offset operand. -/
def Env.eas (e : Env) (gd : Guard) (b : BitVec 3) (off : Ref) : List LaneEA :=
  (e.takers gd).map fun p => (p.1, e.ea b (regsNat (e.words off p.2)))

/-- The same for scratchpad. -/
def Env.sas (e : Env) (gd : Guard) (b : BitVec 3) (off : Ref) : List LaneEA :=
  (e.takers gd).map fun p => (p.1, e.sa b (regsNat (e.words off p.2)))

/-- An exact address that lies in 64 bits and is canonical (R161). -/
def goodVA (ea : Int) : Option Nat :=
  if 0 ≤ ea ∧ ea < 2 ^ 64 ∧ canonical ea.toNat then some ea.toNat else none

/-- View number and offset of a view address (R162). -/
def viewNum (va : Nat) : Nat := field va 40 12
def viewOff (va : Nat) : Nat := field va 0 40

/-- Samples of views, by number: a configured descriptor, or none; and the views whose entries are marked. -/
structure Samples where
  descs : List (Nat × Option ViewDesc)
  marked : List Nat
  deriving DecidableEq, Repr

/-- Sample each view once (R318). -/
def State.samples (s : State) (cu ctx : Nat) : List Nat → Samples × State
  | [] => (⟨[], []⟩, s)
  | v :: vs =>
    let r := s.sample cu ctx v
    let rest := r.2.samples cu ctx vs
    match r.1 with
    | none => (⟨rest.1.descs, v :: rest.1.marked⟩, rest.2)
    | some d => (⟨(v, d) :: rest.1.descs, rest.1.marked⟩, rest.2)

/-- View numbers that a list of addresses names, each once. -/
def viewsNamed (vas : List Nat) : List Nat :=
  (vas.filter isView).foldl (fun m va => insertNat m (viewNum va)) []

/-- The memory reference of a good address; none for an unconfigured view. -/
def Samples.ref (sm : Samples) (va : Nat) : Option MemRef :=
  if isView va then
    (match lookupKey sm.descs (viewNum va) with
     | some (some d) => some (.view (viewNum va) d (viewOff va))
     | _ => none)
  else some (.mem va)

/-- What an access asks of a view beyond its mapping (R316). -/
structure AccSpec where
  acc : Access
  size : Nat
  scope : Scope
  /-- ZFILL: a view address is an address fault (R162). -/
  noView : Bool := false
  atomic : Bool := false
  deriving DecidableEq, Repr

/-- Element accesses of one lane's address. -/
def Env.elems (e : Env) (s : State) (sp : AccSpec) (r : MemRef) : List Elem :=
  s.refElems e.iss.cu e.iss.cu e.l.ctx sp.scope sp.acc r sp.size

/-- Where the first marked view entry of some samples lies (R434). -/
def State.markedEntry (s : State) (ctx : Nat) (sm : Samples) : Option Nat :=
  sm.marked.head?.map fun v => ((s.ctx? ctx).elim 0 (·.desc.vtbase)) + 128 * v

/-- Condition of one address by itself (R161, R162, R164, R316); a marked view entry gives none, since it freezes the context
(R434). -/
def addrCause (sp : AccSpec) (sm : Samples) (ea : Int) : Option Nat :=
  match goodVA ea with
  | none => some 0x10
  | some va =>
    if isView va && sp.noView then some 0x10
    else if va % sp.size != 0 then some 0x11
    else if isView va && sm.marked.contains (viewNum va) then none
    else
      match sm.ref va with
      | none => some 0x14
      | some (.view _ d _) =>
        if sp.acc != .read && d.readOnly then some 0x14
        else if sp.atomic && 2 ^ d.esz != sp.size then some 0x14
        else none
      | some (.mem _) => none

/-- Element accesses of the lanes of an issue through views with GRAN: view, lane, view base, where each lands or what keeps it
from landing, and its length (R317). -/
def Env.granElems (e : Env) (s : State) (sp : AccSpec) (sm : Samples) (as : List LaneEA) : List (Nat × Nat × Nat × Except Elem Nat × Nat) :=
  as.flatMap fun a =>
    match (goodVA a.2).bind fun va => (sm.ref va).map fun r => (va, r) with
    | some (va, .view _ d off) =>
      if d.gran = 0 then []
      else (d.elems off sp.size).map fun p => (viewNum va, a.1, d.base, s.elemAddr e.iss.cu e.iss.cu e.l.ctx sp.scope d p.1 p.2, p.2)
    | _ => []

/-- Base bytes that an issue writes through views with GRAN, each as (view, lane, offset from BASE) (R317). -/
def granBytes (els : List (Nat × Nat × Nat × Except Elem Nat × Nat)) : List (Nat × Nat × Int) :=
  els.flatMap fun g => match g.2.2.2.1 with
    | .ok x => (List.range g.2.2.2.2).map fun i => (g.1, g.2.1, ((x + i : Nat) : Int) - g.2.2.1)
    | .error _ => []

/-- An index word that the check needs cannot be read: the issue stalls or stops before the check (R166, R434; log 112). -/
def granUnknown (els : List (Nat × Nat × Nat × Except Elem Nat × Nat)) : Bool :=
  els.any fun g => match g.2.2.2.1 with
    | .error (.xl _ _ _ _) => true
    | .error (.poison _) => true
    | .error (.tablePoison _) => true
    | _ => false

/-- A point of a view is written in part (R317). -/
def partPoint (bytes : List (Nat × Nat × Int)) (v w : Nat) (x : Int) : Bool :=
  (List.range w).any fun i => !bytes.any fun b => b.1 == v && b.2.2 == x / (w : Int) * w + i

/-- Format-granule conditions of an issue that writes (R57, R317). -/
def Env.granConds (e : Env) (s : State) (sp : AccSpec) (sm : Samples) (as : List LaneEA) : List Cond :=
  let els := if sp.acc = .read then [] else e.granElems s sp sm as
  if granUnknown els then []
  else
    let bytes := granBytes els
    bytes.filterMap fun b =>
      match lookupKey sm.descs b.1 with
      | some (some d) => if partPoint bytes b.1 d.gran b.2.2 then some (laneCond 0x15 b.2.1) else none
      | _ => none

/-- Precise conditions of the accesses of an issue (R165). -/
def Env.accConds (e : Env) (sp : AccSpec) (as : List LaneEA) : List Cond :=
  let (sm, s) := e.s.samples e.iss.cu e.l.ctx (viewsNamed (as.filterMap fun a => goodVA a.2))
  (as.flatMap fun a =>
    match addrCause sp sm a.2 with
    | some k => [laneCond k a.1]
    | none =>
      match (goodVA a.2).bind sm.ref with
      | some (.view v d off) => if (e.elems s sp (.view v d off)).contains .viewFault then [laneCond 0x14 a.1] else []
      | _ => []) ++
  e.granConds s sp sm as

/-- What keeps an issue from its accesses (R166, R434): a translation fault, else a marked table or index word; of several, the
first in lane and element order (log 115). -/
def stallOf (acc : Access) (es : List Elem) : Option Out :=
  (es.findSome? fun x => match x with
    | .xl k va far idx => some (.stall k va (if idx then .read else acc) far (if idx then 3 else 0))
    | _ => none).orElse fun _ => es.findSome? fun x => match x with
    | .tablePoison va => some (.freezes va)
    | .poison va => some (.consume va)
    | _ => none

/-- The accesses of an issue, mapped: elements by lane. -/
abbrev Mapped := List (Nat × List Elem)

/-- Some address lies in a view whose elements are gathered (R314). -/
def Samples.gathers (sm : Samples) : Bool := sm.descs.any fun d => d.2.any fun v => v.gdim != 7

/-- Map the accesses of an issue that meets no precise condition: the machine with its samples taken, and the
elements, or how the issue ends (R166, R318). Index words read at DIE scope or wider leave no older copy in the L1 (R314,
R336; log 111). -/
def Env.mapAll (e : Env) (s1 : State) (sp : AccSpec) (as : List LaneEA) : Except Out (Mapped × State) :=
  let (sm, s2) := s1.samples e.iss.cu e.l.ctx (viewsNamed (as.filterMap fun a => goodVA a.2))
  match s2.markedEntry e.l.ctx sm with
  | some a => .error (.freezes a)
  | none =>
    let m := as.filterMap fun a => ((goodVA a.2).bind sm.ref).map fun r => (a.1, e.elems s2 sp r)
    match stallOf sp.acc (m.flatMap (·.2)) with
    | some o => .error o
    | none => .ok (m, if sm.gathers then s2.acquire e.iss.cu sp.scope else s2)

/-- What was read and is marked: the first virtual address of it. -/
abbrev FirstBad := Option Nat

/-- Load the elements of one lane: bytes, and where a marked sector was read (R167, R313, R434). -/
def State.loadElems (s : State) (cu : Nat) (sc : Scope) : List Elem → List Byte × FirstBad × State
  | [] => ([], none, s)
  | .at_ p va n :: r =>
    let x := s.loadCached cu sc p n
    let y := x.2.2.loadElems cu sc r
    (x.1 ++ y.1, if x.2.1 then some va else y.2.1, y.2.2)
  | .pad n :: r => let y := s.loadElems cu sc r; (List.replicate n 0 ++ y.1, y.2.1, y.2.2)
  | _ :: r => s.loadElems cu sc r

/-- Store bytes to the elements of one lane (R167, R313). -/
def State.storeElems (s : State) (cu : Nat) : List Elem → List Byte → State
  | [], _ => s
  | .at_ p _ n :: r, bs => (s.storeCached cu p (bs.take n)).storeElems cu r (bs.drop n)
  | .pad n :: r, bs => s.storeElems cu r (bs.drop n)
  | _ :: r, bs => s.storeElems cu r bs

/-- Load all lanes in ascending order. -/
def State.loadAll (s : State) (cu : Nat) (sc : Scope) : Mapped → List (Nat × List Byte) × FirstBad × State
  | [] => ([], none, s)
  | (n, es) :: r =>
    let x := s.loadElems cu sc es
    let y := x.2.2.loadAll cu sc r
    ((n, x.1) :: y.1, x.2.1.orElse fun _ => y.2.1, y.2.2)

/-- End an issue that has read: poison stops the launch (R434). -/
def consumeOr (b : FirstBad) (o : Out) : Out := b.elim o .consume

/-- The same where the read went through the L1: `t` is the machine after it (R302). -/
def consumeRead (b : FirstBad) (t : State) (o : Out) : Out := b.elim o fun va => .consumeL1 va t

/-- Put an operation of this issue in flight; `va` is the first virtual address that it accesses (R429). -/
def Env.flyAt (e : Env) (s : State) (va : Nat) (op : FlightOp) : State :=
  s.launchFlight fun k =>
    { id := k, ctx := e.l.ctx, launch := e.l.id, team := e.team.id, cu := e.iss.cu, part := e.iss.part, slot := e.iss.slot, order := e.g.order,
      lanes := e.iss.lanes, op := op, fault := none, refetch := none, va := va, fenced := false }

/-- Put an operation of this issue in flight whose records name no memory address of its own. -/
def Env.fly (e : Env) (s : State) (op : FlightOp) : State := e.flyAt s 0 op

/-- Hold some stores of an issue back (R328); of ZFILL where `zero`. -/
def Env.hold (e : Env) (zero : Bool) (va : Nat) (s : State) (ls : List LateStore) : State :=
  if ls.isEmpty then s else e.flyAt s va (.lateStore zero ls)

/-- The first virtual address of some mapped accesses. -/
def Mapped.va (m : Mapped) : Nat :=
  ((m.flatMap (·.2)).findSome? fun x => match x with
    | .at_ _ va _ => some va
    | _ => none).getD 0

/-- An element of an access that is made later (R313, R328). -/
def Elem.latePart : Elem → Option LatePart
  | .at_ p va n => some ⟨some (.mem p), va, n, 0, none⟩
  | .pad n => some ⟨none, 0, n, 0, none⟩
  | _ => none

/-- The parts of element access `k` of a lane that are read apart: each 8-byte half of 16 bytes, else the whole (R168, R315, R326). -/
def splitPart (k : Nat) (site : Nat → LateSite) (va n : Nat) : List LatePart :=
  if n = 16 then [⟨some (site 0), va, 8, k, none⟩, ⟨some (site 8), va + 8, 8, k, none⟩] else [⟨some (site 0), va, n, k, none⟩]

/-- Parts of a memory access of one lane that is made later, from element access `k` on (R312, R313, R328). -/
def lateParts : Nat → List Elem → List LatePart
  | _, [] => []
  | k, .at_ p va n :: r => splitPart k (fun i => .mem ⟨p.space, p.addr + i⟩) va n ++ lateParts (k + 1) r
  | k, .pad n :: r => ⟨none, 0, n, k, none⟩ :: lateParts (k + 1) r
  | k, _ :: r => lateParts (k + 1) r

/-- A part of a scratchpad access of one lane that is made later. -/
def Env.scrPart (e : Env) (off n : Nat) : LatePart := ⟨some (.scr e.team.id off), off, n, 0, none⟩

/-- Parts of a scratchpad load of one lane that is made later (R168, R326). -/
def Env.scrParts (e : Env) (off n : Nat) : List LatePart := splitPart 0 (fun i => .scr e.team.id (off + i)) off n

/-- Registers of an operand in a lane, as they were at issue. -/
def Env.dest (e : Env) (r : Ref) (lane : Nat) : List Nat :=
  (e.thread lane).elim [] fun t => (e.sel r t true).list

/-! ### Scratchpad -/

/-- Bytes of a team's scratchpad, and whether a sector of them is marked. -/
def State.scrRead (s : State) (team off n : Nat) : List Byte × Bool :=
  match s.team? team with
  | none => ([], false)
  | some t => (t.mem.read off n, marked t.bad off n)

/-- Write a team's scratchpad (R433). -/
def State.scrWrite (s : State) (team off : Nat) (bs : List Byte) (dataBad : Bool) : State :=
  s.updTeam team fun t => { t with mem := t.mem.write off bs, bad := markWrite t.bad off bs.length dataBad }

/-- Every line of a range is present (R290). -/
def State.present (s : State) (team off n : Nat) : Bool :=
  match s.team? team with
  | none => true
  | some t => !(linesOf off n).any t.absent.contains

/-- A range of a team touches a locked range of its CU's table (R190, R293). -/
def State.locked (s : State) (cu team off n : Nat) : Bool :=
  (s.cu? cu).any fun c => c.locks.any fun k => k.team == team && overlap k.lo k.len off n

/-- Conditions of scratchpad accesses of some size and alignment; `writes` where a locked range traps
(R163 to R165, R171). -/
def Env.scrConds (e : Env) (size align : Nat) (writes : Bool) (as : List LaneEA) : List Cond :=
  as.flatMap fun a =>
    (if a.2 % (align : Int) != 0 then [laneCond 0x11 a.1] else []) ++
    (if a.2 < 0 || (e.team.scr : Int) < a.2 + size then [laneCond 0x12 a.1] else []) ++
    (if writes && 0 ≤ a.2 && e.s.locked e.iss.cu e.team.id a.2.toNat size then
      [{ cause := 0x13, lane := a.1, detail := a.2.toNat, code := 0 }] else [])

/-- Register words of loaded bytes, zero-extended (R167). -/
def wordsOf (bs : List Byte) (w : Nat) : List Word := natRegs w (leNat bs)

end Sys2Proof.Machine
end

