-- ==== Sys2Proof/Machine/Barrier.lean ====
section
/-!
DEFINITION. Arrival at team barriers and at the grid barrier (R236, R238, R239), and the end of threads
(R135, R232), which may complete a phase.
-/
namespace Sys2Proof.Machine

/-- Lanes of a group that hold a thread. -/
def Group.live (g : Group) : List Nat := (List.range 32).filter fun i => (g.thread? i).isSome

/-- The group has wholly ended. -/
def Group.ended (g : Group) : Bool := g.threads.all (·.isNone)

/-- The roles that a launch declares, as a mask (R235, R372). -/
def Header.declared (h : Header) : Nat :=
  (List.range 4).foldl (fun m q => if (h.roles.getD q (0, 0)).1 != 0 then m + 2 ^ q else m) 0

/-- Groups of a team that a mask of roles expects: not berth-formed and not wholly ended (R236). -/
def State.expected (s : State) (team roles : Nat) : List Group :=
  s.groups.filter fun g => g.team == team && g.role.any (bitOf roles) && !g.ended

/-- Lanes of a group that have arrived. -/
def Bar.lanes (b : Bar) (linear : Nat) : BitVec 32 := (lookupKey b.arrived linear).getD 0

/-- A group has arrived: each of its threads that has not ended has (R236). -/
def Group.arrivedIn (g : Group) (m : BitVec 32) : Bool := g.live.all fun i => bitOf m.toNat i

/-- A thread that waits for this phase of a barrier continues, or issues its arrival again. -/
def Thread.release (n phase : Nat) (t : Thread) : Thread :=
  match t.wait with
  | .barrier k p => if k = n ∧ p = phase then { t with wait := .ready } else t
  | .barrierAgain k p => if k = n ∧ p = phase then { t with wait := .ready } else t
  | .barw k p _ _ => if k = n ∧ p = phase then { t with wait := .ready } else t
  | _ => t

/-- Change every thread of some groups. -/
def State.mapThreads (s : State) (p : Group → Bool) (f : Thread → Thread) : State :=
  { s with groups := s.groups.map fun g => if p g then { g with threads := g.threads.map (Option.map f) } else g }

/-- The groups that have arrived in the current phase of a barrier: those of before, and those all of whose threads have
arrived now (R236). -/
def Bar.now (b : Bar) (gs : List Group) : List Nat :=
  ((gs.filter fun g => g.arrivedIn (b.lanes g.linear)).map (·.linear)).foldl insertNat b.done

/-- Complete the phase of a barrier when the groups that have arrived reach the count of those that it expects and that have not
wholly ended (R236). -/
def State.settleBar (s : State) (team n : Nat) : State :=
  match (s.team? team).bind fun t => t.bars[n]? with
  | none => s
  | some b =>
    match b.roles with
    | none => s
    | some roles =>
      let now := b.now (s.expected team roles)
      if (s.expected team roles).length ≤ now.length then
        (s.updTeam team fun t => { t with bars := t.bars.set n (Bar.start (b.phase + 1)) }).mapThreads
          (fun g => g.team == team && g.role.isSome) (Thread.release n b.phase)
      else s.updTeam team fun t => { t with bars := t.bars.set n { b with done := now } }

/-- The groups that the grid barrier of a launch expects (R239). -/
def State.gridGroups (s : State) (lid : Nat) : List Group :=
  s.groups.filter fun g => g.launch == lid && g.role.isSome && !g.ended

/-- Lanes of a group that have arrived at the grid barrier. -/
def Launch.gridLanes (l : Launch) (g : Group) : BitVec 32 :=
  ((l.gbarArrived.find? fun a => a.1 == g.team && a.2.1 == g.linear).map (·.2.2)).getD 0

/-- Complete the phase of the grid barrier when every group has arrived, as an acquire at MODULE scope (R239). -/
def State.settleGrid (s : State) (lid : Nat) : State :=
  match s.launch? lid with
  | none => s
  | some l =>
    if !l.gbarArrived.isEmpty && (s.gridGroups lid).all fun g => g.arrivedIn (l.gridLanes g) then
      ((s.updLaunch lid fun l => { l with gbarPhase := l.gbarPhase + 1, gbarArrived := [] }).mapThreads
        (fun g => g.launch == lid) (fun t => if t.wait = .gbar l.gbarPhase then { t with wait := .ready } else t)).acquireOn
        ((s.gridGroups lid).map (·.cu))
    else s

/-- Complete what the end of threads completes (R236, R239). -/
def State.settle (s : State) (lid team : Nat) : State :=
  ((List.range 16).foldl (fun m n => m.settleBar team n) s).settleGrid lid

/-- End the threads of some lanes of the issuing group (R135, R232). -/
def Env.endLanes (e : Env) (lanes : List Nat) (s : State) : State :=
  (e.upd s fun g => { g with threads := g.threads.mapIdx fun i t => if lanes.contains i then none else t }).settle e.l.id e.team.id

/-- The mask of ROLES that a barrier instruction names, all declared roles for 0 (R235). -/
def Env.roles (e : Env) (r : BitVec 6) : Nat :=
  if e.sv r.toNat % 16 = 0 then e.l.hdr.declared else e.sv r.toNat % 16

/-- The barrier that an instruction names. -/
def Env.bar (e : Env) (n : BitVec 6) : Bar := e.team.bars.getD n.toNat (Bar.start 0)

/-- Conditions of BAR, BARA and BARW (R235, R238); `arrives` for the first two. -/
def Env.barConds (e : Env) (n r : BitVec 6) (arrives : Bool) : List Cond :=
  let v := e.sv r.toNat
  let named := fun (c : Nat) (b : Bool) => if b then [{ cause := c, lane := e.lanes.headD 0, detail := n.toNat, code := 0 : Cond }] else []
  e.when (16 ≤ v || v % 16 &&& (15 - e.l.hdr.declared) != 0) 0x17 ++
  named 0x20 ((e.bar n).roles.any (· != e.roles r) || (arrives && e.g.role.any fun q => !bitOf (e.roles r) q)) ++
  named 0x21 e.g.role.isNone

/-- BARW threads of a group whose mask differs from the one that the phase fixes, with their addresses. -/
def Group.wrongWaiters (g : Group) (n phase roles : Nat) : List (Nat × Word64) :=
  g.live.filterMap fun i => (g.thread? i).bind fun t => match t.wait with
    | .barw k p r a => if k = n ∧ p = phase ∧ r ≠ roles then some (i, a) else none
    | _ => none

/-- BARW threads whose mask differs from the one just fixed raise the barrier-mismatch trap (R238): those of
the lowest address are the trapping set; others of the group issue their word again. -/
def State.trapWaiters (s : State) (l : Launch) (n phase roles : Nat) (g : Group) : State :=
  match g.wrongWaiters n phase roles with
  | [] => s
  | w :: ws =>
    let low := ws.foldl (fun a x => if x.2 < a then x.2 else a) w.2
    let set := ((w :: ws).filter (·.2 == low)).map (·.1)
    let back := maskOf 32 ((w :: ws).map (·.1))
    let s1 := s.updGroup g.cu g.part g.slot fun g => g.mapLanes back fun i t =>
      { t with pc := ((lookupKey (w :: ws) i).getD t.pc), wait := .ready }
    s1.takeTrap ⟨g.cu, g.part, g.slot, maskOf 32 set, low, false, false⟩ l
      { cause := 0x20, lane := set.headD 0, detail := n, code := 0 } low false

/-- Arrive at barrier `n` with the lanes of an issue (R236): the first arrival fixes the mask. -/
def Env.arrive (e : Env) (n r : BitVec 6) (lanes : List Nat) (s : State) : State :=
  let b := e.bar n
  let roles := e.roles r
  let b1 : Bar := { b with roles := some roles, arrived := insertKey b.arrived e.g.linear (b.lanes e.g.linear ||| maskOf 32 lanes) }
  let s1 := s.updTeam e.team.id fun t => { t with bars := t.bars.set n.toNat b1 }
  let s2 := if b.roles.isNone && !lanes.isEmpty then
      (s1.groups.filter (·.team == e.team.id)).foldl (fun m g => m.trapWaiters e.l n.toNat b.phase roles g) s1
    else s1
  s2.settleBar e.team.id n.toNat

/-- Lanes of the issue whose arrival in the current phase stands (R236). -/
def Env.again (e : Env) (n : BitVec 6) : List Nat :=
  e.lanes.filter fun i => bitOf ((e.bar n).lanes e.g.linear).toNat i

/-- BAR and BARA (R236): lanes that have arrived wait and issue again, the others arrive; under `waits` they
wait for the phase. -/
def Env.barrier (e : Env) (n r : BitVec 6) (waits : Bool) (s1 : State) : State :=
  let b := e.bar n
  let again := e.again n
  let new := e.lanes.filter fun i => !again.contains i
  let s2 := e.onLanes again s1 fun _ t0 _ => { t0 with wait := .barrierAgain n.toNat b.phase }
  let s3 := if waits then e.onLanes new s2 fun _ _ t => { t with wait := .barrier n.toNat b.phase } else s2
  if new.isEmpty then s3 else e.arrive n r new s3

end Sys2Proof.Machine
end

