-- ==== Sys2Proof/Machine/LoadStore.lean ====
section
/-!
DEFINITION. Loads and stores (R167 to R169), scratchpad access (R170 to R172), PREF and ZFILL (R174, R175),
and the uniform memory instructions (R128, R129).
-/
namespace Sys2Proof.Machine

/-- An early read is of a lane of this issue, for its word (R328). -/
def Env.earlyHere (e : Env) (r : EarlyRead) : Bool := r.order == e.g.order && r.pc == e.iss.pc && bitOf e.iss.lanes.toNat r.lane

/-- What an early read has of the bytes at a place. -/
def EarlyRead.covers (r : EarlyRead) (p : PAddr) (n : Nat) : Option (List Byte) :=
  match r.part.place, r.part.got with
  | some (.mem q), some bs =>
    if q.space = p.space ∧ q.addr ≤ p.addr ∧ p.addr + n ≤ q.addr + r.part.len then some ((bs.drop (p.addr - q.addr)).take n) else none
  | _, _ => none

/-- A part of a late load, which has been read where its thread has read it early (R328). -/
def Env.withEarly (e : Env) (lane : Nat) (x : LatePart) : LatePart :=
  match x.place with
  | some (.mem p) => { x with got := (e.s.early.filter fun r => e.earlyHere r && r.lane == lane).findSome? (·.covers p x.len) }
  | _ => x

/-- Once a load has issued nothing is left of what was read early for it. -/
def Env.endEarly (e : Env) (s : State) : State := { s with early := s.early.filter fun r => !e.earlyHere r }

/-- A load of memory (R167): every lane's bytes are read at issue, or, where a relaxed load is late, when it returns, before that part
by part, or early (R328); they are delivered by LOAD_DATA_RETURN. -/
def loadOp (s : State) (i : Instr) (d o : BitVec 7) (b : BitVec 3) (size w : Nat) (sc : Scope) (r : Bool) :
    Host.Outcome State Fault Refusal :=
  let sp : AccSpec := { acc := .read, size := size, scope := sc }
  runWord s i (fun e _ => e.accConds sp (e.eas .lane b (.code o 1))) fun e s1 =>
    match e.mapAll (e.endEarly s1) sp (e.eas .lane b (.code o 1)) with
    | .error out => out
    | .ok (m, s2) =>
      if e.iss.late && !r && !m.isEmpty then
        .go (e.flyAt s2 m.va (.lateLoad sc (m.map fun v =>
          ⟨v.1, e.dest (.code d w) v.1, (lateParts 0 v.2).map (e.withEarly v.1), true⟩)))
      else
        let x := s2.loadAll e.iss.cu sc m
        consumeRead x.2.1 x.2.2 <|
        let ws := x.1.map fun v => { lane := v.1, regs := e.dest (.code d w) v.1, vals := wordsOf v.2 w, fx := 0 : LaneWrite }
        let s3 := if r then x.2.2.acquire e.iss.cu sc else x.2.2
        .go (if ws.isEmpty then s3 else e.flyAt s3 m.va (.load ws))

/-- Store all lanes in ascending order (R168). -/
def Env.storeAll (e : Env) (size : Nat) (src : Thread → List Word) : Mapped → State → State
  | [], s => s
  | (n, es) :: r, s =>
    e.storeAll size src r (s.storeElems e.iss.cu es ((e.thread n).elim [] fun t => (regBytes (src t)).take size))

/-- Stored bytes, none of them marked. -/
def unmarked (bs : List Byte) : List (Byte × Bool) := bs.map fun b => (b, false)

/-- The units of a store that take effect apart: each 8-byte word of more than 8 bytes, else the whole (R168, R175, R326); `elem` is
the element access that it belongs to. -/
def storeUnits (lane elem : Nat) (mem : Nat → LateSite) (bs : List Byte) : List LateStore :=
  if bs.length ≤ 8 then [⟨lane, elem, mem 0, unmarked bs⟩]
  else (List.range (bs.length / 8)).map fun k => ⟨lane, elem, mem (8 * k), unmarked ((bs.drop (8 * k)).take 8)⟩

/-- The stores of one lane that memory takes later, of each element its units, from element access `k` on (R312, R313, R326, R328). -/
def lateStores (lane : Nat) : Nat → List Elem → List Byte → List LateStore
  | _, [], _ => []
  | k, .at_ p _ n :: r, bs =>
    storeUnits lane k (fun i => .mem ⟨p.space, p.addr + i⟩) (bs.take n) ++ lateStores lane (k + 1) r (bs.drop n)
  | k, .pad n :: r, bs => lateStores lane (k + 1) r (bs.drop n)
  | k, _ :: r, bs => lateStores lane (k + 1) r bs

/-- Hold the stores of an issue to memory back (R328). -/
def Env.holdStores (e : Env) (zero : Bool) (data : Nat → List Byte) (m : Mapped) (s : State) : State :=
  e.hold zero m.va s (m.flatMap fun v => lateStores v.1 0 v.2 (data v.1))

/-- The bytes that a lane stores. -/
def Env.storeData (e : Env) (size : Nat) (src : Thread → List Word) (lane : Nat) : List Byte :=
  (e.thread lane).elim [] fun t => (regBytes (src t)).take size

/-- A store to memory (R167); every register is read at issue. A relaxed store may reach memory later (R328). -/
def storeOp (s : State) (i : Instr) (d o : BitVec 7) (b : BitVec 3) (size w : Nat) (sc : Scope) (r : Bool) :
    Host.Outcome State Fault Refusal :=
  let sp : AccSpec := { acc := .write, size := size, scope := sc }
  runWord s i (fun e _ => e.accConds sp (e.eas .lane b (.code o 1))) fun e s1 =>
    match e.mapAll s1 sp (e.eas .lane b (.code o 1)) with
    | .error out => out
    | .ok (m, s2) =>
      if e.iss.late && !r then .go (e.holdStores false (e.storeData size (e.words (.code d w))) m s2)
      else .go (e.storeAll size (e.words (.code d w)) m s2)

/-- LD.B (R167). -/
def execLdB (d o : BitVec 7) (b : BitVec 3) (l : BitVec 4) (sc : Scope) (r : Bool) (s : State) :
    Host.Outcome State Fault Refusal := loadOp s (.ldB d o b l sc r) d o b 1 1 sc r

/-- LD.H (R167). -/
def execLdH (d o : BitVec 7) (b : BitVec 3) (l : BitVec 4) (sc : Scope) (r : Bool) (s : State) :
    Host.Outcome State Fault Refusal := loadOp s (.ldH d o b l sc r) d o b 2 1 sc r

/-- LD.W (R167). -/
def execLdW (d o : BitVec 7) (b : BitVec 3) (l : BitVec 4) (sc : Scope) (r : Bool) (s : State) :
    Host.Outcome State Fault Refusal := loadOp s (.ldW d o b l sc r) d o b 4 1 sc r

/-- LD.D (R167). -/
def execLdD (d o : BitVec 7) (b : BitVec 3) (l : BitVec 4) (sc : Scope) (r : Bool) (s : State) :
    Host.Outcome State Fault Refusal := loadOp s (.ldD d o b l sc r) d o b 8 2 sc r

/-- LD.Q (R167). -/
def execLdQ (d o : BitVec 7) (b : BitVec 3) (l : BitVec 4) (sc : Scope) (r : Bool) (s : State) :
    Host.Outcome State Fault Refusal := loadOp s (.ldQ d o b l sc r) d o b 16 4 sc r

/-- ST.B (R167). -/
def execStB (d o : BitVec 7) (b : BitVec 3) (l : BitVec 4) (sc : Scope) (r : Bool) (s : State) :
    Host.Outcome State Fault Refusal := storeOp s (.stB d o b l sc r) d o b 1 1 sc r

/-- ST.H (R167). -/
def execStH (d o : BitVec 7) (b : BitVec 3) (l : BitVec 4) (sc : Scope) (r : Bool) (s : State) :
    Host.Outcome State Fault Refusal := storeOp s (.stH d o b l sc r) d o b 2 1 sc r

/-- ST.W (R167). -/
def execStW (d o : BitVec 7) (b : BitVec 3) (l : BitVec 4) (sc : Scope) (r : Bool) (s : State) :
    Host.Outcome State Fault Refusal := storeOp s (.stW d o b l sc r) d o b 4 1 sc r

/-- ST.D (R167). -/
def execStD (d o : BitVec 7) (b : BitVec 3) (l : BitVec 4) (sc : Scope) (r : Bool) (s : State) :
    Host.Outcome State Fault Refusal := storeOp s (.stD d o b l sc r) d o b 8 2 sc r

/-- ST.Q (R167). -/
def execStQ (d o : BitVec 7) (b : BitVec 3) (l : BitVec 4) (sc : Scope) (r : Bool) (s : State) :
    Host.Outcome State Fault Refusal := storeOp s (.stQ d o b l sc r) d o b 16 4 sc r

/-- Bytes of a scratchpad access size (R92, R170). -/
def sizeBytes : Size → Nat
  | .b => 1
  | .h => 2
  | .w => 4
  | .d => 8
  | .q => 16

/-- LDL (R170, R171): lanes of absent lines park, the others load at once, or later (R328). -/
def execLdl (d o : BitVec 7) (b : BitVec 3) (l : BitVec 4) (z : Size) (s : State) : Host.Outcome State Fault Refusal :=
  let n := sizeBytes z
  runWord s (.ldl d o b l z) (fun e _ => e.scrConds n n false (e.sas .lane b (.code o 1))) fun e s1 =>
    let as := (e.sas .lane b (.code o 1)).map fun a => (a.1, a.2.toNat)
    let ready := as.filter fun a => e.s.present e.team.id a.2 n
    if e.iss.late && !ready.isEmpty then
      .go (e.fly (e.onLanes (as.map (·.1)) s1 fun k t0 t => (lookupKey as k).elim t fun a =>
          if e.s.present e.team.id a n then t else { t with wait := .line (.ldl a n (e.sel (.code d z.regs) t0 true).list) })
        (.lateLoad .team (ready.map fun a => ⟨a.1, e.dest (.code d z.regs) a.1, e.scrParts a.2 n, true⟩)))
    else consumeOr ((ready.find? fun a => (e.s.scrRead e.team.id a.2 n).2).map (·.2)) (.go (e.onLanes (as.map (·.1)) s1 fun k t0 t =>
      match lookupKey as k with
      | none => t
      | some a =>
        let rs := (e.sel (.code d z.regs) t0 true).list
        if e.s.present e.team.id a n then t.putRegs rs (wordsOf (e.s.scrRead e.team.id a n).1 z.regs)
        else { t with wait := .line (.ldl a n rs) }))

/-- STL (R170); its bytes may reach the scratchpad later (R328). -/
def execStl (d o : BitVec 7) (b : BitVec 3) (l : BitVec 4) (z : Size) (s : State) : Host.Outcome State Fault Refusal :=
  let n := sizeBytes z
  runWord s (.stl d o b l z) (fun e _ => e.scrConds n n true (e.sas .lane b (.code o 1))) fun e s1 =>
    let as := e.sas .lane b (.code o 1)
    let data := e.storeData n (e.words (.code d z.regs))
    if e.iss.late then
      .go (e.hold false 0 s1 (as.flatMap fun a => storeUnits a.1 0 (fun k => .scr e.team.id (a.2.toNat + k)) (data a.1)))
    else .go (as.foldl (fun m a => if (e.thread a.1).isSome then m.scrWrite e.team.id a.2.toNat (data a.1) false else m) s1)

/-- The rows of a lane's quad (R172). -/
def quadRows (as : List (Nat × Nat)) (lane : Nat) : List (Option Nat) :=
  (List.range 4).map fun j => lookupKey as (lane / 4 * 4 + j)

/-- The four registers of LDT (R172): byte b of register m is byte 4j + m of row b; an absent row reads as zero. -/
def ldtWords (read : Nat → List Byte) (rows : List (Option Nat)) (j : Nat) : List Word :=
  let rowBytes := rows.map fun r => r.elim (List.replicate 16 0) read
  (List.range 4).map fun m => BitVec.ofNat 32 (leNat (rowBytes.map fun bs => bs.getD (4 * j + m) 0))

/-- The bytes of scratchpad that LDT reads in a lane, in the order of its registers (R172): byte 4j + m of each row. -/
def Env.ldtParts (e : Env) (rows : List (Option Nat)) (j : Nat) : List LatePart :=
  (List.range 4).flatMap fun m => rows.map fun r => match r with
    | some a => ⟨some (.scr e.team.id (a + 4 * j + m)), a, 1, 0, none⟩
    | none => ⟨none, 0, 1, 0, none⟩

/-- LDT (R172); its bytes may be read later (R328). -/
def execLdt (d o : BitVec 7) (b : BitVec 3) (l : BitVec 4) (s : State) : Host.Outcome State Fault Refusal :=
  runWord s (.ldt d o b l) (fun e _ => e.scrConds 16 16 false (e.sas .lane b (.code o 1))) fun e s1 =>
    let as := (e.sas .lane b (.code o 1)).map fun a => (a.1, a.2.toNat)
    let here := fun (k : Nat) => (quadRows as k).all fun r => r.all fun a => e.s.present e.team.id a 16
    let bad := as.findSome? fun a => if here a.1 then
      (quadRows as a.1).findSome? fun r => r.filter fun x => (e.s.scrRead e.team.id x 16).2 else none
    let ready := as.filter fun a => here a.1
    if e.iss.late && !ready.isEmpty then
      .go (e.fly (e.onLanes (as.map (·.1)) s1 fun k t0 t =>
          if here k then t else { t with wait := .line (.ldt (quadRows as k) (k % 4) (e.sel (.code d 4) t0 true).list) })
        (.lateLoad .team (ready.map fun a => ⟨a.1, e.dest (.code d 4) a.1, e.ldtParts (quadRows as a.1) (a.1 % 4), false⟩)))
    else consumeOr bad (.go (e.onLanes (as.map (·.1)) s1 fun k t0 t =>
      let rs := (e.sel (.code d 4) t0 true).list
      if here k then t.putRegs rs (ldtWords (fun a => (e.s.scrRead e.team.id a 16).1) (quadRows as k) (k % 4))
      else { t with wait := .line (.ldt (quadRows as k) (k % 4) rs) }))

/-- Bring the sectors of a lane's line into the L1 (R174, R301): what does not map or translate is dropped, and so is a line of a view
of which an element faults in the view (R316; log 37). -/
def Env.prefetch (e : Env) (s : State) (ea : Int) : State :=
  match goodVA ea with
  | none => s
  | some va =>
    let a := va / 128 * 128
    let (sm, s1) := s.samples e.iss.cu e.l.ctx (viewsNamed [a])
    if !sm.marked.isEmpty then s
    else
      match sm.ref a with
      | none => s1
      | some (.mem x) =>
        ((List.range 4).foldl (fun m k => (m.loadElems e.iss.cu .unit [m.plainElem e.iss.cu e.l.ctx (x + 32 * k) 32 .read]).2.2) s1)
      | some (.view v d off) =>
        let es := s1.refElems e.iss.cu e.iss.cu e.l.ctx .unit .read (.view v d off) 128
        if es.contains .viewFault then s1 else (s1.loadElems e.iss.cu .unit es).2.2

/-- Lanes of a PREF with an offset: one whose offset register is out of bounds or marked makes no access (R174, R434; log 37). -/
def Env.prefLanes (e : Env) (o : BitVec 7) : List (Nat × Thread) :=
  (e.takers .lane).filter fun p => (e.sel (.code o 1) p.2 false).cause.isNone && !meets (e.regsOf [.code o 1] p.2 false) p.2.bad

/-- PREF (R174): no ordering and no fault. -/
def execPref (o : BitVec 7) (b : BitVec 3) (l : BitVec 4) (s : State) : Host.Outcome State Fault Refusal :=
  runWord s (.pref o b l) noMore fun e s1 =>
    .go ((e.prefLanes o).foldl (fun m p => e.prefetch m (e.ea b (regsNat (e.words (.code o 1) p.2)))) s1)

/-- Zero one line (R175): the four zero flags on device DRAM. -/
def State.zeroLine (s : State) (cu : Nat) (p : PAddr) : State :=
  let s1 := (List.range 4).foldl (fun m k => m.storeCached cu ⟨p.space, p.addr + 32 * k⟩ (List.replicate 32 0)) s
  if p.space = .dram && !s.isRetired p then
    { s1 with zeroFlags := (sectorsOf p.addr 128).foldl insertNat s1.zeroFlags }
  else s1

/-- The last word of a sector has landed of a ZFILL whose words land apart (R175, R304, R433): its mark goes, and on device DRAM a
sector that reads zero is flagged. -/
def State.endZero (s : State) (cu : Nat) (p : PAddr) : State :=
  if s.isRetired p then s
  else
    let sec := p.sector
    let s1 := (s.withMem p.space (s.memOf p.space) (removeNat (s.badOf p.space) sec.addr)).updCu cu fun c =>
      { c with l1 := updFirst (·.at_ == sec) (fun h => { h with bad := false }) c.l1 }
    if p.space = .dram && (s.dram.read sec.addr 32).all (· == 0) then { s1 with zeroFlags := insertNat s1.zeroFlags sec.addr } else s1

/-- ZFILL (R175). -/
def execZfill (o : BitVec 7) (b : BitVec 3) (l : BitVec 4) (sc : Scope) (r : Bool) (s : State) :
    Host.Outcome State Fault Refusal :=
  let sp : AccSpec := { acc := .write, size := 128, scope := sc, noView := true }
  runWord s (.zfill o b l sc r) (fun e _ => e.accConds sp (e.eas .lane b (.code o 1))) fun e s1 =>
    match e.mapAll s1 sp (e.eas .lane b (.code o 1)) with
    | .error out => out
    | .ok (m, s2) =>
      if e.iss.late && !r then .go (e.holdStores true (fun _ => List.replicate 128 0) m s2)
      else .go (m.foldl (fun x v => v.2.foldl (fun y el => match el with
        | .at_ p _ _ => y.zeroLine e.iss.cu p
        | _ => y) x) s2)

/-- The immediate of SLD, SST, SADD.I and SMOVI (R91, R127). -/
def immSI (h : Hints) (i : BitVec 13) : Nat := h.wide64 i.toNat (wrap 64 (signed 13 i.toNat))

/-- The address of SLD and SST, as an access of the lowest lane (R128): s-register arithmetic, which wraps (R125). -/
def Env.uniEA (e : Env) (a : BitVec 6) (i : BitVec 13) : List LaneEA :=
  [(e.lanes.headD 0, ((wrap 64 ((e.sv a.toNat : Int) + immSI e.h i) : Nat) : Int))]

/-- SLD (R128): s(d) is written when the data returns; memory may be read as late as that (R328). -/
def execSld (d a : BitVec 6) (i : BitVec 13) (s : State) : Host.Outcome State Fault Refusal :=
  let sp : AccSpec := { acc := .read, size := 8, scope := .thread }
  runWord s (.sld d a i) (fun e _ => e.accConds sp (e.uniEA a i)) fun e s1 =>
    match e.mapAll s1 sp (e.uniEA a i) with
    | .error out => out
    | .ok (m, s2) =>
      if e.iss.late then .go (e.flyAt s2 m.va (.lateSload d.toNat (m.flatMap fun v => lateParts 0 v.2)))
      else
      let x := s2.loadAll e.iss.cu .thread m
      consumeRead x.2.1 x.2.2 (.go (e.flyAt x.2.2 m.va (.sload d.toNat (BitVec.ofNat 64 (leNat (((x.1.head?).map (·.2)).getD []))))))

/-- SST (R128); memory may take its bytes later (R328). -/
def execSst (d a : BitVec 6) (i : BitVec 13) (s : State) : Host.Outcome State Fault Refusal :=
  let sp : AccSpec := { acc := .write, size := 8, scope := .thread }
  runWord s (.sst d a i) (fun e _ => e.accConds sp (e.uniEA a i)) fun e s1 =>
    match e.mapAll s1 sp (e.uniEA a i) with
    | .error out => out
    | .ok (m, s2) =>
      if e.iss.late then .go (e.holdStores false (fun _ => regBytes (natRegs 2 (e.sv d.toNat))) m s2)
      else .go (e.storeAll 8 (fun _ => natRegs 2 (e.sv d.toNat)) m s2)

/-- SLDC (R129): launch constant number IMM13, as memory holds it when the word issues (log 130). A constant block that runs past the canonical addresses, or into the view
addresses, gives an address fault there (R161; log 112). -/
def execSldc (d : BitVec 6) (i : BitVec 13) (s : State) : Host.Outcome State Fault Refusal :=
  runWord s (.sldc d i) (fun e _ =>
      e.when (e.l.hdr.nconst ≤ i.toNat) 0x18 ++ e.when (!usableVA (e.l.hdr.consta + 8 * i.toNat)) 0x10) fun e s1 =>
    let va := e.l.hdr.consta + 8 * i.toNat
    match s1.translate e.iss.cu e.l.ctx va .read with
    | .fault k => .stall k va .read false 0
    | .poison => .freezes va
    | .ok p =>
      let x := s1.loadPhys p 8
      if x.2 then .consume va else .go (e.upd s1 fun g => g.setS d.toNat (leNat x.1))

end Sys2Proof.Machine
end

