-- ==== Sys2Proof/Machine/Control.lean ====
section
/-!
DEFINITION. Branches, jumps, calls and returns with the return stack (R41, R42, R130 to R133), the other
control words (R134, R135), and melded regions (R136 to R140).
-/
namespace Sys2Proof.Machine

/-- A thread after a control transfer (R101). -/
def Thread.goto (t : Thread) (pc : Word64) : Thread := { t with pc := pc, fell := false }

/-- The target of BRA and CALL (R130). -/
def Env.target (e : Env) (o : BitVec 21) : Word64 := e.iss.pc + BitVec.ofInt 64 (4 * signed 21 o.toNat)

/-- Lanes where p XOR N holds (R130). -/
def Env.chosen (e : Env) (p : BitVec 3) (n : Bool) : List Nat :=
  e.lanes.filter fun i => (e.thread i).any fun t => t.p p.toNat != n

/-- BRA (R130). -/
def execBra (p : BitVec 3) (n : Bool) (o : BitVec 21) (s : State) : Host.Outcome State Fault Refusal :=
  runWord s (.bra p n o) noMore fun e s1 => .go (e.onLanes (e.chosen p n) s1 fun _ _ t => t.goto (e.target o))

/-- A thread of the issue is in a melded region (R140). -/
def Env.meldConds (e : Env) (melded : Bool) : List Cond :=
  e.lanes.filterMap fun i => if (e.thread i).any (·.melded == melded) then some (laneCond 0x0A i) else none

/-- The stack index of a lane (R41). -/
def Env.stackIndex (e : Env) (lane : Nat) : Nat :=
  if e.g.role.isSome then 32 * e.g.linear + lane else 1024 + 32 * (16 * e.g.part + e.g.slot) + lane

/-- The return stacks lie in memory (RSKIND, R370). -/
def Env.stackMem (e : Env) : Bool := bitOf e.l.hdr.flags 7

/-- Address of a lane's return entry at a depth: in memory, or a scratchpad offset (R41). -/
def Env.stackAt (e : Env) (lane depth : Nat) : Int :=
  (e.l.hdr.rsbase : Int) + 512 * ((if e.stackMem then 3072 * e.team.linear else 0) + e.stackIndex lane : Nat) + 8 * depth

/-- Entries that a CALL of some lanes stores. -/
def Env.callSlots (e : Env) (lanes : List Nat) : List LaneEA :=
  lanes.map fun i => (i, e.stackAt i ((e.thread i).elim 0 (·.depth)))

/-- Entries that a RET reads: of the lanes whose depth is not 0. -/
def Env.retSlots (e : Env) : List LaneEA :=
  e.lanes.filterMap fun i => (e.thread i).bind fun t => if t.depth = 0 then none else some (i, e.stackAt i (t.depth - 1))

/-- How an access of the return stack in memory is made. -/
def stackSpec (acc : Access) : AccSpec := { acc := acc, size := 8, scope := .thread, noView := true }

/-- Conditions of a CALL or CALLR of some lanes (R42, R140). -/
def Env.callConds (e : Env) (lanes : List Nat) : List Cond :=
  e.meldConds true ++
  (lanes.filterMap fun i => if (e.thread i).any (63 ≤ ·.depth) then some (laneCond 7 i) else none) ++
  (if e.stackMem then e.accConds (stackSpec .write) (e.callSlots lanes) else e.scrConds 8 8 true (e.callSlots lanes))

/-- A CALL of some lanes (R41, R131): the return addresses are stored, the depths rise, the threads move. -/
def Env.callLanes (e : Env) (lanes : List Nat) (target : Word64) (s1 : State) : Out :=
  let words := natRegs 2 (e.iss.pc + 4).toNat
  let move := fun (s : State) => e.onLanes lanes s fun _ _ t => { t.goto target with depth := t.depth + 1 }
  if e.stackMem then
    match e.mapAll s1 (stackSpec .write) (e.callSlots lanes) with
    | .error out => out
    | .ok (m, s2) => .go (move (e.storeAll 8 (fun _ => words) m s2))
  else .go (move ((e.callSlots lanes).foldl (fun m a => m.scrWrite e.team.id a.2.toNat (regBytes words) false) s1))

/-- CALL (R131). -/
def execCall (p : BitVec 3) (n : Bool) (o : BitVec 21) (s : State) : Host.Outcome State Fault Refusal :=
  runWord s (.call p n o) (fun e _ => e.callConds (e.chosen p n)) fun e s1 => e.callLanes (e.chosen p n) (e.target o) s1

/-- An address that control may go to by register or by return (R42, R132). -/
def goodTarget (a : Nat) : Bool := a % 4 == 0 && canonical a

/-- JMP (R132). -/
def execJmp (r : BitVec 6) (s : State) : Host.Outcome State Fault Refusal :=
  runWord s (.jmp r) (fun e _ => e.when (!goodTarget (e.sv r.toNat)) 9 ++ e.meldConds true) fun e s1 =>
    .go (e.onLanes e.lanes s1 fun _ _ t => t.goto (BitVec.ofNat 64 (e.sv r.toNat)))

/-- CALLR (R132). -/
def execCallr (r : BitVec 6) (s : State) : Host.Outcome State Fault Refusal :=
  runWord s (.callr r) (fun e _ => e.when (!goodTarget (e.sv r.toNat)) 9 ++ e.callConds e.lanes) fun e s1 =>
    e.callLanes e.lanes (BitVec.ofNat 64 (e.sv r.toNat)) s1

/-- NOP (R134). -/
def execNop (s : State) : Host.Outcome State Fault Refusal := runWord s .nop noMore fun _ s1 => .go s1

/-- A return entry that can be read now, in the scratchpad (R42). -/
def Env.retReady (e : Env) (a : LaneEA) : Bool := e.s.present e.team.id a.2.toNat 8

/-- A return entry of the scratchpad. -/
def Env.retEntry (e : Env) (a : LaneEA) : Nat := leNat (e.s.scrRead e.team.id a.2.toNat 8).1

/-- Conditions of RET (R42, R140). -/
def Env.retConds (e : Env) : List Cond :=
  (e.lanes.filterMap fun i => if (e.thread i).any (·.depth == 0) then some (laneCond 8 i) else none) ++ e.meldConds true ++
  (if e.stackMem then e.accConds (stackSpec .read) e.retSlots
   else
     e.scrConds 8 8 false e.retSlots ++
     e.retSlots.filterMap fun a =>
       if (0 : Int) ≤ a.2 ∧ a.2 + 8 ≤ (e.team.scr : Int) ∧ e.retReady a ∧ !(e.s.scrRead e.team.id a.2.toNat 8).2 ∧ !goodTarget (e.retEntry a) then
         some (laneCond 9 a.1) else none)

/-- A thread returns to an entry (R41). -/
def Thread.ret (t : Thread) (entry : Nat) : Thread := { t.goto (BitVec.ofNat 64 entry) with depth := t.depth - 1 }

/-- RET (R133): each lane returns to its own entry; a lane whose entry lies on an absent line parks at the
word. Of a marked entry in one lane and a bad target in another the memory kind takes the mark first, and the scratchpad kind the
trap (log 132). -/
def execRet (s : State) : Host.Outcome State Fault Refusal :=
  runWord s .ret (fun e _ => e.retConds) fun e s1 =>
    if e.stackMem then
      match e.mapAll s1 (stackSpec .read) e.retSlots with
      | .error out => out
      | .ok (m, s2) =>
        let x := s2.loadAll e.iss.cu .thread m
        let ents := x.1.map fun v => (v.1, leNat v.2)
        consumeRead x.2.1 x.2.2 <|
          match (ents.find? fun v => !goodTarget v.2) with
          | some v => .trap (laneCond 9 v.1) e.at_ false
          | none => .go (e.onLanes e.lanes x.2.2 fun i _ t => (lookupKey ents i).elim t t.ret)
    else
      consumeOr ((e.retSlots.find? fun a => e.retReady a && (e.s.scrRead e.team.id a.2.toNat 8).2).map (·.2.toNat)) (.go (e.onLanes e.lanes s1 fun i t0 t =>
      match lookupKey e.retSlots i with
      | none => t
      | some a =>
        if e.retReady (i, a) then t.ret (e.retEntry (i, a))
        else { t with pc := t0.pc, fell := t0.fell, wait := .line (.ret a.toNat e.at_) }))

/-- EXIT (R135). -/
def execExit (s : State) : Host.Outcome State Fault Refusal :=
  runWord s .exit (fun e _ => e.meldConds true) fun e s1 => .go (e.endLanes e.lanes s1)

/-- YIELD (R134, R263). -/
def execYield (s : State) : Host.Outcome State Fault Refusal :=
  runWord s .yield noMore fun e s1 => .go (e.upd s1 fun g => { g with yielded := true })

/-- BKPT (R134, R267): the recorded address is the next word. -/
def execBkpt (c : BitVec 12) (s : State) : Host.Outcome State Fault Refusal :=
  runWord s (.bkpt c) noMore fun e _ =>
    .trap { e.wordCond 0x0C with code := c.toNat } (e.iss.pc + 4) true

/-- TRAP (R134). -/
def execTrap (c : BitVec 12) (s : State) : Host.Outcome State Fault Refusal :=
  runWord s (.trap c) noMore fun e _ => .trap { e.wordCond 0x0D with code := c.toNat } e.at_ false

/-- MELD in one thread (R137). -/
def Thread.meldTo (t : Thread) (q : Nat) : Thread :=
  (List.range 4).foldl (fun t j => t.setP (4 + j) (j == q)) { t with melded := true, path := BitVec.ofNat 2 q }

/-- MELD (R137). -/
def execMeld (a b : BitVec 3) (s : State) : Host.Outcome State Fault Refusal :=
  runWord s (.meld a b) (fun e _ => e.meldConds true) fun e s1 => .go (e.onLanes e.lanes s1 fun _ t0 t =>
    t.meldTo ((if t0.p a.toNat then 1 else 0) + (if t0.p b.toNat then 2 else 0)))

/-- The eight entries that MSET loads (R138). -/
def msetEntries (v : Nat) : List Nat := (List.range 8).map fun j => field v (8 * j) 8

/-- Conditions of MSET (R37, R140). -/
def Env.msetConds (e : Env) (r : BitVec 6) : List Cond :=
  let es := msetEntries (e.sv r.toNat)
  e.when (es.any fun x => e.g.nreg ≤ x) 4 ++ e.when (es.any (inWindow e.wins)) 5 ++
  e.when (e.g.threads.any fun t => t.any (·.melded)) 0x0A

/-- MSET (R138). -/
def execMset (p : BitVec 2) (r : BitVec 6) (s : State) : Host.Outcome State Fault Refusal :=
  runWord s (.mset p r) (fun e _ => e.msetConds r) fun e s1 => .go (e.upd s1 fun g =>
    { g with rename := ((msetEntries (e.sv r.toNat)).zipIdx).foldl (fun m v => m.set (8 * p.toNat + v.2) (BitVec.ofNat 8 v.1)) g.rename })

/-- MEND (R139). -/
def execMend (s : State) : Host.Outcome State Fault Refusal :=
  runWord s .mend (fun e _ => e.meldConds false) fun e s1 =>
    .go (e.onLanes e.lanes s1 fun _ _ t => { t with melded := false })

end Sys2Proof.Machine
end

