-- ==== Sys2Proof/Machine/Engine.lean ====
section
/-!
DEFINITION. What the engines share: the range-lock table (R190, R292 to R295), presence bits (R190, R290), the
landing of bytes in scratchpad (R190, R293, R433), engine reads with the hash check (R188, R296, R437 to R439),
and how an engine operation that cannot go on ends (R399, R434, R440, R457).
-/
namespace Sys2Proof.Machine

/-! ### Parked lanes (R42, R171, R172) -/

/-- A parked access: its ranges. -/
def ParkedOp.ranges : ParkedOp → List (Nat × Nat)
  | .ldl off len _ => [(off, len)]
  | .ldt rows _ _ => rows.filterMap fun r => r.map fun a => (a, 16)
  | .ret off _ => [(off, 8)]

/-- The thread after its parked load; RET is not a load. -/
def Thread.unpark (read : Nat → Nat → List Byte) (op : ParkedOp) (t : Thread) : Thread :=
  match op with
  | .ldl off len regs => { t.putRegs regs (wordsOf (read off len) regs.length) with wait := .ready }
  | .ldt rows j regs => { t.putRegs regs (ldtWords (fun a => read a 16) rows j) with wait := .ready }
  | .ret off _ => { t.ret (leNat (read off 8)) with wait := .ready }

/-- The late check of a parked RET fails (R42): the address of its word. -/
def ParkedOp.badReturn (read : Nat → Nat → List Byte) : ParkedOp → Option Word64
  | .ret off at_ => if goodTarget (leNat (read off 8)) then none else some at_
  | _ => none

/-- A parked lane resumes: its lines are present. A RET whose late check fails while its group is halted by another trap stays
parked (log 131). -/
def State.resumeLane (s : State) (g : Group) (l : Launch) (lane : Nat) (op : ParkedOp) : State :=
  let read := fun (off n : Nat) => (s.scrRead g.team off n).1
  let upd := fun (f : Thread → Thread) => s.updGroup g.cu g.part g.slot fun g => g.mapLanes (maskOf 32 [lane]) fun _ t => f t
  if op.ranges.any fun r => (s.scrRead g.team r.1 r.2).2 then
    s.stopConsumed l.id { ErrRec.ofLaunch s l 2 0x0C 4 with
      slot := some g.slot, cu := some (cunum g.cu g.part), addr := (op.ranges.headD (0, 0)).1 }
  else
    match op.badReturn read with
    | some at_ =>
      if g.halt.isSome then s
      else (upd fun t => { t with wait := .ready }).takeTrap ⟨g.cu, g.part, g.slot, maskOf 32 [lane], at_, false, false⟩ l (laneCond 9 lane) at_ false
    | none => upd (Thread.unpark read op)

/-- A lane resumes where it is parked, its lines are all present, and its launch has not stopped (R42, R171, R172, R383). -/
def State.unparkLane (s : State) (cu part slot lane : Nat) : State :=
  match s.group? cu part slot with
  | none => s
  | some g =>
    match s.launch? g.launch, ((g.thread? lane).map fun t => t.wait).getD .ready with
    | some l, .line op => if l.stop.isNone && op.ranges.all fun r => s.present g.team r.1 r.2 then s.resumeLane g l lane op else s
    | _, _ => s

/-- The parked lanes of a team whose lines are all present resume (R171). -/
def State.unparkTeam (s : State) (team : Nat) : State :=
  (s.groups.filter (·.team == team)).foldl (fun t g => (List.range 32).foldl (fun t i => t.unparkLane g.cu g.part g.slot i) t) s

/-! ### Locks and presence -/

/-- Append entries to a CU's table (R292). -/
def State.takeLocks (s : State) (cu : Nat) (ks : List Lock) : State :=
  s.updCu cu fun c => { c with locks := c.locks ++ ks }

/-- Release entries of an owner. -/
def State.dropLocks (s : State) (owner : Nat) (p : Lock → Bool) : State :=
  { s with cus := s.cus.map fun c => { c with locks := c.locks.filter fun k => !(k.owner == owner && p k) } }

/-- An entry without its owner. -/
def lockOf (kind : LockKind) (owner team lo len : Nat) : Lock :=
  { kind := kind, owner := owner, team := team, lo := lo, len := len, skip := [] }

/-- Entries that a table holds (R292): a CPYM takes one entry for all teams of a CU, so of an owner those of one team count. -/
def Cu.lockCount (c : Cu) : Nat :=
  c.locks.countP fun k => (c.locks.find? (·.owner == k.owner)).any (·.team == k.team)

/-- Clear the presence bits of a range (R290). -/
def State.clearLines (s : State) (team lo len : Nat) : State :=
  s.updTeam team fun t => { t with absent := (linesOf lo len).foldl insertNat t.absent }

/-- (team, line) pairs that an operation still has to write (R190). -/
def Flight.pendingLines (f : Flight) : List (Nat × Nat) :=
  match f.op with
  | .copy c => if c.kind = .cpyo then [] else c.todo
  | .hdrn h => (linesOf h.waddr 8192).map fun n => (f.team, n)
  | .pilot p => (linesOf p.maddr (manMS p.n)).map fun n => (f.team, n)
  | .mchk m => (linesOf m.raddr (manMS m.n)).map fun n => (f.team, n)
  | _ => []

/-- A thread that waits for presence and may issue again (R204). -/
def Thread.releasePresence (s : State) (team : Nat) (t : Thread) : Thread :=
  match t.wait with
  | .presence lo len => if s.present team lo len then { t with wait := .ready } else t
  | _ => t

/-- Wake the threads of a team whose awaited lines are all present (R204). -/
def State.wakePresence (s : State) (team : Nat) : State :=
  s.mapThreads (·.team == team) (Thread.releasePresence s team)

/-- Set the presence bits of lines of a team that no operation in flight still writes (R190); the lanes that are parked at them alone
go on (R171, R256). Who observes a bit that is set
acquires the writes that the landing follows (R334), so the CU keeps no L1 copy from before (log 111). -/
def State.setPresent (s : State) (team : Nat) (lines : List Nat) : State :=
  let free := lines.filter fun n => !s.flights.any fun f => f.pendingLines.contains (team, n)
  let s1 := (s.updTeam team fun t => { t with absent := t.absent.filter fun n => !free.contains n }).wakePresence team
  ((s.team? team).elim s1 fun t => s1.clearL1 t.cu).unparkTeam team

/-- Place of an owner's first entry of some kind for a team in a CU's table; the end where it has none. -/
def Cu.lockPos (c : Cu) (owner team : Nat) (p : LockKind → Bool) : Nat :=
  c.locks.findIdx fun k => k.owner == owner && k.team == team && p k.kind

/-- The CU on which a team lies. -/
def State.teamCu (s : State) (team : Nat) : Option Cu := (s.team? team).bind fun t => s.cu? t.cu

/-- A landing in a range is held by a SRC or OPND entry that another owner took earlier (R190, R293, R294). -/
def State.landingHeld (s : State) (owner team lo len : Nat) : Bool :=
  (s.teamCu team).any fun c =>
    (c.locks.take (c.lockPos owner team (· == .dest))).any fun k =>
      k.kind != .dest && k.owner != owner && k.team == team && overlap k.lo k.len lo len

/-- Lines of a range are ready for the owner of an entry: present, or absent only for writers whose entries came
later and so wait for this owner (R193, R221, R294). -/
def State.linesReady (s : State) (owner team lo len : Nat) (kind : LockKind) : Bool :=
  (s.teamCu team).all fun c =>
    let pos := c.lockPos owner team (· == kind)
    (linesOf lo len).all fun n => !(s.flights.any fun g =>
      g.id != owner && g.pendingLines.contains (team, n) && c.lockPos g.id team (· == .dest) < pos)

/-! ### Landing -/

/-- Bytes with their poison marks. -/
abbrev MarkedBytes := List (Byte × Bool)

/-- Marks of scratchpad sectors after bytes at these offsets (R433). -/
def landMarks (bad : List Nat) (xs : List (Nat × Byte × Bool)) : List Nat :=
  ((xs.foldl (fun m x => insertNat m (x.1 / 32 * 32)) []).foldl (fun m sct =>
    let here := xs.filter fun x => x.1 / 32 * 32 == sct
    if here.any (·.2.2) then insertNat m sct
    else if (List.range 32).all fun i => here.any (·.1 == sct + i) then removeNat m sct else m) bad)

/-- Put bytes into a team's scratchpad. -/
def State.landBytes (s : State) (team : Nat) (xs : List (Nat × Byte × Bool)) : State :=
  s.updTeam team fun t => { t with mem := xs.foldl (fun m x => m.set x.1 x.2.1) t.mem, bad := landMarks t.bad xs }

/-- A byte that a command with a later DEST entry has written (R190). -/
def Cu.skips (c : Cu) (owner team off : Nat) : Bool :=
  c.locks.any fun k => k.owner == owner && k.team == team && k.kind == .dest && k.skip.any fun r => r.1 ≤ off && off < r.1 + r.2

/-- Tell the earlier DEST entries of other owners that a range has been written (R190). -/
def Cu.overtake (c : Cu) (owner team lo len : Nat) : Cu :=
  let pos := c.lockPos owner team (· == .dest)
  { c with locks := c.locks.mapIdx fun i k =>
      if i < pos && k.kind == .dest && k.owner != owner && k.team == team && overlap k.lo k.len lo len then
        { k with skip := (lo, len) :: k.skip } else k }

/-- An engine write of some runs (offset, bytes) by the owner of a DEST entry (R190, R293). -/
def State.engineWrite (s : State) (owner team : Nat) (runs : List (Nat × MarkedBytes)) : State :=
  match s.teamCu team with
  | none => s
  | some c =>
    let xs := (runs.flatMap fun r => r.2.zipIdx.map fun p => (r.1 + p.2, p.1.1, p.1.2)).filter fun x => !c.skips owner team x.1
    (s.landBytes team xs).updCu c.num fun c => runs.foldl (fun c r => c.overtake owner team r.1 r.2.length) c

/-! ### Reading -/

/-- What an engine read gives. -/
inductive EngRead where
  | ok (bs : MarkedBytes)
  | stall (cause va : Nat) (far idx : Bool)
  /-- A condition of R457 at an address. -/
  | late (va : Nat)
  | consume (va : Nat)
  | freezes (va : Nat)
  /-- A hash check failed (R439). -/
  | hash (va : Nat)
  deriving DecidableEq, Repr

/-- Follow one read by another. -/
def EngRead.append (a b : EngRead) : EngRead :=
  match a, b with
  | .ok x, .ok y => .ok (x ++ y)
  | .ok _, r => r
  | r, _ => r

/-- Bytes at a physical address, each with the mark of its sector. -/
def State.markedBytes (s : State) (p : PAddr) (n : Nat) : MarkedBytes :=
  ((s.memOf p.space).read p.addr n).zipIdx.map fun b => (b.1, s.isRetired p || marked (s.badOf p.space) (p.addr + b.2) 1)

/-- Runs of a range of addresses that stay within aligned blocks; `n` bounds their number. -/
def blockRuns (blk : Nat) : Nat → Nat → Nat → List (Nat × Nat)
  | 0, _, _ => []
  | n + 1, a, len =>
    if len = 0 then []
    else let k := min len (blk - a % blk); (a, k) :: blockRuns blk n (a + k) (len - k)

/-- Runs of a range of addresses within blocks of a size. -/
def runsOf (blk a len : Nat) : List (Nat × Nat) := blockRuns blk (len / blk + 2) a len

/-- The parts of a range of a view that lie in one element each (R312). -/
def ViewDesc.spans (d : ViewDesc) (off n : Nat) : List (Nat × Nat) := runsOf (2 ^ d.esz) off n

/-- Read within one page of the context, for a unit. -/
def State.readPage (s : State) (unit ctx va n : Nat) : EngRead :=
  match s.translate unit ctx va .read with
  | .ok p => .ok (s.markedBytes p n)
  | .fault k => .stall k va false false
  | .poison => .freezes va

/-- The bytes of a read, where it gave some. -/
def EngRead.bytes : EngRead → List Byte
  | .ok bs => bs.map (·.1)
  | _ => []

/-- Leaves of a tree over `n` pages (R438). -/
def treeLeaves (n : Nat) : Nat := if n ≤ 1 then 1 else 2 ^ (Nat.log2 (n - 1) + 1)

/-- Node i of a range's tree (R438). -/
def State.treeNode (s : State) (unit ctx : Nat) (r : Range) (i : Nat) : EngRead := s.readPage unit ctx (r.aux + 32 * i) 32

/-- Check each node on a path against its parent, and node 1 against ROOT (R439); `n` bounds the height. An
`ok` answer is empty where the check fails. -/
def State.treePath (s : State) (unit ctx : Nat) (r : Range) : Nat → Nat → EngRead
  | 0, _ => .ok []
  | n + 1, i =>
    if i ≤ 1 then
      match s.treeNode unit ctx r 1 with
      | .ok bs => if bs.map (·.1) = r.root then .ok bs else .ok []
      | e => e
    else
      let j := i / 2
      match s.treeNode unit ctx r j, (s.treeNode unit ctx r (2 * j)).append (s.treeNode unit ctx r (2 * j + 1)) with
      | .ok p, .ok kids => if p.map (·.1) = sha256 (kids.map (·.1)) then s.treePath unit ctx r n j else .ok []
      | .ok _, e => e
      | e, _ => e

/-- Read a page of a hashed range from an address and check it (R439): empty where the check fails. -/
def State.hashedPage (s : State) (unit ctx : Nat) (r : Range) (page from_ : Nat) : EngRead :=
  match s.readPage unit ctx from_ 4096 with
  | .ok bs =>
    let leaf := treeLeaves r.npages + page
    (match s.treeNode unit ctx r leaf with
     | .ok d =>
       if d.map (·.1) = sha256 (bs.map (·.1)) then
         (match s.treePath unit ctx r 22 leaf with
          | .ok [] => .ok []
          | .ok _ => .ok bs
          | e => e)
       else .ok []
     | e => e)
  | e => e

/-- Where an engine read takes its data (R440): from its address, from the replica where the check fails, or from the
replica alone. -/
inductive Via where
  | home
  | either
  | replica
  deriving DecidableEq, Repr

/-- The hashed range of a launch that holds an address (R437). -/
def Launch.hashedAt (l : Launch) (va : Nat) : Option Range :=
  l.ranges.find? fun r => r.kind == 1 && r.va ≤ va && va < r.va + 4096 * r.npages

/-- A checked read within one page (R439): under `either` and `replica` the replica of a hashed page serves (R440). -/
def State.checkedRead (s : State) (unit : Nat) (l : Launch) (via : Via) (va n : Nat) : EngRead :=
  match l.hashedAt va with
  | none => if via = .replica then .hash va else s.readPage unit l.ctx va n
  | some r =>
    let page := (va - r.va) / 4096
    let cut := fun (bs : MarkedBytes) => EngRead.ok ((bs.drop (va % 4096)).take n)
    match (if via = .replica then EngRead.ok [] else s.hashedPage unit l.ctx r page (r.va + 4096 * page)) with
    | .ok [] =>
      if via != .home && r.replica != 0 then
        match s.hashedPage unit l.ctx r page (r.replica + 4096 * page) with
        | .ok [] => .hash va
        | .ok bs => cut bs
        | e => e
      else .hash va
    | .ok bs => cut bs
    | e => e

/-- The view address of an offset. -/
def viewVA (num off : Nat) : Nat := 0xFFF * 2 ^ 52 + num * 2 ^ 40 + off % 2 ^ 40

/-- Read one element access of a view after issue (R312, R457). -/
def State.readElem (s : State) (unit cu : Nat) (l : Launch) (via : Via) (num : Nat) (d : ViewDesc) (off len : Nat) : EngRead :=
  match s.elemAddr unit cu l.ctx .module d off len with
  | .error (.pad n) => .ok (List.replicate n (0, false))
  | .error (.xl k va far idx) => .stall k va far idx
  | .error (.poison a) => .consume a
  | .error (.tablePoison a) => .freezes a
  | .error _ => .late (viewVA num off)
  | .ok a =>
    if d.remote && via == .replica then .hash (viewVA num off)
    else if d.remote then
      match s.translateFar l.ctx d.node a .read with
      | .ok p => .ok (s.markedBytes p len)
      | .fault k far => .stall k d.base far false
      | .poison => .freezes a
    else s.checkedRead unit l via a len

/-- Read `n` bytes at a memory reference after issue (R188, R296). -/
def State.engineRead (s : State) (cu : Nat) (l : Launch) (via : Via) (r : MemRef) (n : Nat) : EngRead :=
  match r with
  | .mem va => (runsOf 4096 va n).foldl (fun m p => m.append (s.checkedRead cu l via p.1 p.2)) (.ok [])
  | .view num d off => (d.spans off n).foldl (fun m p => m.append (s.readElem cu cu l via num d p.1 p.2)) (.ok [])

/-! ### How an operation in flight goes on -/

/-- The group that issued an operation, while it is resident. -/
def State.flightGroup? (s : State) (f : Flight) : Option Group := s.groups.find? (·.order == f.order)

/-- Change the group that issued an operation. -/
def State.updFlightGroup (s : State) (f : Flight) (g : Group → Group) : State :=
  { s with groups := updFirst (·.order == f.order) g s.groups }

/-- How one part of an operation ends. -/
inductive Eng where
  | go (s : State)
  | stall (cause va : Nat) (acc : Access) (far : Bool) (agent : Nat)
  | late (va : Nat)
  | consume (va : Nat)
  | freezes (va : Nat)
  | hash (line : Nat × Nat) (va : Nat)
  deriving DecidableEq, Repr

/-- Go on with the bytes that a read gave; `agent` reads (R398). -/
def EngRead.bind (r : EngRead) (agent : Nat) (line : Nat × Nat) (f : MarkedBytes → Eng) : Eng :=
  match r with
  | .ok bs => f bs
  | .stall k va far idx => .stall k va .read far (if idx then 3 else agent)
  | .late va => .late va
  | .consume va => .consume va
  | .freezes va => .freezes va
  | .hash va => .hash line va

/-- Give up what an operation has still to do: its locks go, and the lines that it kept absent set. Where its launch stops for it, that
comes first, so no lane that is parked at such a line goes on with bytes that have not landed. -/
def State.abandon (s : State) (f : Flight) : State :=
  let s1 := (s.dropLocks f.id fun _ => true).dropFlight f.id
  f.pendingLines.foldl (fun m p => m.setPresent p.1 [p.2]) s1

/-- A record about the launch of an operation. -/
def State.flightRec (s : State) (f : Flight) (cls source action addr : Nat) : ErrRec :=
  match s.launch? f.launch with
  | some l => { ErrRec.ofLaunch s l cls source action with cu := some (cunum f.cu f.part), addr := addr }
  | none => { ErrRec.of s cls source action with addr := addr }

/-- End a part of an operation (R399, R434, R440, R457). -/
def State.endEng (s : State) (f : Flight) : Eng → State
  | .go t => t
  | .stall k va acc far agent => s.stallFlight f k va acc agent far
  | .late va => (s.stopEngine f.launch (cunum f.cu f.part) va).abandon f
  | .consume va => (s.stopConsumed f.launch (s.flightRec f 2 0x0C 4 va)).abandon f
  | .freezes va => s.freeze f.ctx (s.flightRec f 3 0x16 7 va)
  | .hash line va => s.updFlight f.id fun g => { g with refetch := some ⟨line.1, line.2, .hash, va⟩ }

/-- Run a part of an operation that is neither stalled nor in the refetch procedure. -/
def runFlight (s : State) (k : Nat) (act : Flight → Option Eng) : Host.Outcome State Fault Refusal :=
  match s.flight? k with
  | none => .next s
  | some f =>
    if f.fault.isSome || f.refetch.isSome then .next s
    else match act f with
      | none => .next s
      | some e => .next (s.endEng f e)

/-- A residue check fails (R442): nothing of the operation takes effect; the residues are a free value (log 107). -/
def State.residueStop (s : State) (f : Flight) : State :=
  (State.stopConsumed { s with upset := none } f.launch { s.flightRec f 2 8 4 0 with stat := (Config.freeStat s.clock).toNat }).abandon f

/-- A corrected event (R432): merged into the open window of its SOURCE and unit, or opening one. -/
def State.corrected (s : State) (unit : Nat) (ctx : Option Nat) (r : ErrRec) : State :=
  let same := fun (w : ErrWindow) => w.source == r.source && w.unit == unit
  if s.windows.any same then
    { s with windows := updFirst same (fun w => { w with record := { w.record with count := w.record.count + 1 } }) s.windows }
  else { s with windows := s.windows ++ [⟨r.source, unit, r, ctx⟩] }

/-! ### Conditions of memory operands of an engine command (R165, R457) -/

/-- An element of a view fails at issue: it lies outside what can be mapped without an index word, or its index word has no
usable address (log 112). -/
def ViewDesc.badElem (d : ViewDesc) (off : Nat) : Bool :=
  match d.coords off with
  | none => true
  | some (c, b) =>
    if d.gdim = 7 then d.place c b 0 matches .code _ else d.place c b 0 == .code 2 || (d.indexAddr c).any fun a => !usableVA a

/-- Conditions of `n` bytes at an operand address whose alignment is `align` (R161, R164, R165). -/
def rangeConds (sm : Samples) (lane align n : Nat) (ea : Int) : List Cond :=
  match goodVA ea with
  | none => [laneCond 0x10 lane]
  | some va =>
    (if va % align != 0 then [laneCond 0x11 lane] else []) ++
    (match sm.ref va with
     | none => if isView va && sm.marked.contains (viewNum va) then [] else [laneCond 0x14 lane]
     | some (.mem _) => if canonical (va + n - 1) && !isView (va + n - 1) then [] else [laneCond 0x10 lane]
     | some (.view _ d off) => if va % align == 0 && (d.spans off n).any fun p => d.badElem p.1 then [laneCond 0x14 lane] else [])

/-- The samples that the operand addresses of a command name (R318). -/
def Env.sampled (e : Env) (s : State) (eas : List Int) : Samples × State :=
  s.samples e.iss.cu e.l.ctx (viewsNamed (eas.filterMap goodVA))

/-- The lanes' lowest, to which a condition of s-registers is charged (R458). -/
def Env.low (e : Env) (take : List Nat) : Nat := take.headD (e.lanes.headD 0)

/-- A condition where it holds, charged to a lane. -/
def condIf (b : Bool) (cause lane : Nat) : List Cond := if b then [laneCond cause lane] else []

end Sys2Proof.Machine
end

