-- ==== Sys2Proof/Machine/Alloc.lean ====
section
/-!
DEFINITION. Allocation inside a CU (R276 to R283, R286 to R288): register blocks by the buddy rule, scratchpad
ranges, hold tiles, what is pinned, the relocation of a block or range, and the state of a new thread and a
new group (R21, R136).
-/
namespace Sys2Proof.Machine

/-! ### What is pinned (R279) -/

/-- Lanes and registers that an operation in flight writes in its group (R102, R279). -/
def FlightOp.vwrites : FlightOp → List (Nat × List Nat)
  | .load ws => ws.map fun w => (w.lane, w.regs)
  | .lateLoad _ ls => ls.map fun w => (w.lane, w.regs)
  | .atomic ws => ws.map fun w => (w.lane, w.regs)
  | .lateAtomic ops => ops.map fun w => (w.lane, w.regs)
  | .mma m => if m.tile.isSome then [] else m.arows.map fun r => (r.1, (List.range 64).map (m.dreg + ·))
  | _ => []

/-- The operation in flight writes into the register block of its group (R279): registers or a predicate. -/
def FlightOp.writesThreads : FlightOp → Bool
  | .load _ => true
  | .lateLoad _ _ => true
  | .atomic _ => true
  | .lateAtomic _ => true
  | .mma m => m.tile.isNone
  | .mchk _ => true
  | _ => false

/-- A thread waits in a barrier (R279). -/
def Thread.inBarrier (t : Thread) : Bool :=
  match t.wait with
  | .barrier _ _ => true
  | .barrierAgain _ _ => true
  | .barw _ _ _ _ => true
  | .gbar _ => true
  | _ => false

/-- The register block of a group is pinned (R279). -/
def State.pinnedRegs (s : State) (g : Group) : Bool :=
  (s.flights.any fun f => f.order == g.order && f.op.writesThreads) ||
  (s.launch? g.launch).any (fun l => !(windowsOf l g).isEmpty) || g.halt.isSome || g.threads.any (·.any Thread.inBarrier)

/-- The scratchpad range of a team is pinned (R279). -/
def State.pinnedScratch (s : State) (t : Team) : Bool :=
  !t.absent.isEmpty || (s.cu? t.cu).any fun c => c.locks.any (·.team == t.id)

/-! ### A partition as a placement sees it -/

/-- Blocks, pinned blocks and free slots of a partition. -/
structure Room where
  part : Nat
  used : List (Nat × Nat)
  fixed : List (Nat × Nat)
  slots : List Nat
  deriving DecidableEq, Repr

/-- The partition as it stands. -/
def State.room (s : State) (cu part : Nat) : Room :=
  let gs := s.groups.filter fun g => g.cu == cu && g.part == part
  { part := part, used := gs.map fun g => (g.base, g.size),
    fixed := (gs.filter s.pinnedRegs).map fun g => (g.base, g.size),
    slots := (List.range 16).filter fun k => !gs.any (·.slot == k) }

/-- Free registers per lane. -/
def Room.free (r : Room) : Nat := 2048 - r.used.foldl (fun m u => m + u.2) 0

/-- A block of this size is free after compaction (R278, R280). -/
def Room.opens (r : Room) (b : Nat) : Bool :=
  (takeBlock r.used b).isSome ||
  packs r.fixed (sortBy (fun x y => y ≤ x) (b :: ((r.used.filter fun u => !r.fixed.contains u).map (·.2))))

/-- The partition has a slot and a block for a group (R271, R278). -/
def Room.qualifies (r : Room) (b : Nat) : Bool := !r.slots.isEmpty && r.opens b

/-- Take the lowest slot and a block that is free now (R254, R277). -/
def Room.take (r : Room) (b : Nat) : Option (Nat × Nat × Room) :=
  match r.slots, takeBlock r.used b with
  | k :: ks, some a => some (k, a, { r with used := (a, b) :: r.used, fixed := (a, b) :: r.fixed, slots := ks })
  | _, _ => none

/-! ### Scratchpad ranges and hold tiles (R278, R286 to R288) -/

/-- SPLIT after a team of this split request is placed (R287). -/
def State.splitFor (s : State) (c : Cu) (req : Nat) : Nat :=
  if s.teams.any (·.cu == c.num) then max c.split req else req

/-- The lowest 4 KiB-aligned free range (R278). -/
def takeRange (used : List (Nat × Nat)) (size limit : Nat) : Option Nat :=
  ((sortBy (· ≤ ·) (0 :: used.map fun u => u.1 + u.2)).find? fun a =>
    a + size ≤ limit && !used.any fun u => overlap u.1 u.2 a size)

/-- Ranges of these sizes, largest first, fit beside what is used. -/
def rangesFit (used : List (Nat × Nat)) (limit : Nat) : List Nat → Bool
  | [] => true
  | n :: ns => (takeRange used n limit).any fun a => rangesFit ((a, n) :: used) limit ns

/-- The ranges of the teams on a CU. -/
def State.ranges (s : State) (cu : Nat) (p : Team → Bool) : List (Nat × Nat) :=
  (s.teams.filter fun t => t.cu == cu && p t).map fun t => (t.base, t.scr)

/-- Ranges of these sizes are free below a limit after compaction (R278, R288). -/
def State.rangesOpen (s : State) (cu : Nat) (sizes : List Nat) (limit : Nat) : Bool :=
  rangesFit (s.ranges cu fun _ => true) limit sizes ||
  rangesFit (s.ranges cu s.pinnedScratch) limit
    (sortBy (fun x y => y ≤ x) (sizes ++ ((s.ranges cu fun t => !s.pinnedScratch t).map (·.2))))

/-- A range of this size is free below a limit after compaction (R278, R288). -/
def State.rangeOpens (s : State) (cu size limit : Nat) : Bool := s.rangesOpen cu [size] limit

/-- Hold tiles of a partition that are free (R43, R278). -/
def State.freeTiles (s : State) (cu part : Nat) : Nat :=
  32 - ((s.teams.filter fun t => t.cu == cu && t.hold.any (·.part == part)).map fun t =>
    ((s.launch? t.launch).map (·.hdr.ht)).getD 0).foldl (· + ·) 0

/-! ### New threads and groups (R21, R41, R136, R229) -/

/-- Registers of unspecified value, one free value each (R19, log 3). -/
def freeRegs (from_ n : Nat) : List Word := (List.range n).map fun i => Config.freeReg (from_ + i)

/-- A thread as it starts (R21): every register but those given is unspecified. -/
def newThread (nreg : Nat) (regs : List Word) (pc : Word64) (team thread : Nat) : Thread :=
  { regs := regs, bad := [], idx := List.replicate 4 (BitVec.ofNat 32 ((nreg - 1) * 65536)), preds := 1, fx := 0, depth := 0,
    pc := pc, melded := false, path := 0, hints := [], hintPc := 0, fell := false, age := 0, wait := .ready, windows := [],
    tieTeam := team, tieThread := thread }

/-- The renaming table as a group starts (R21). -/
def renameInit : List (BitVec 8) := (List.range 32).map fun k => BitVec.ofNat 8 (84 + k % 8)

/-- A group as it starts (R21, R249), without its threads. -/
def newGroup (cu part slot base nreg : Nat) (t : Team) (role : Option Nat) (index linear order : Nat) : Group :=
  { cu := cu, part := part, slot := slot, launch := t.launch, team := t.id, role := role, index := index, linear := linear,
    nreg := nreg, base := base, size := blockFor nreg, sregs := List.replicate 64 0, rename := renameInit, threads := [],
    halt := none, err := none, wdgroup := 0, perfsel := 0, perfcnt := 0, order := order, waited := 0, aged := false,
    yielded := false, wdExpired := none, fresh := role.isNone }

/-! ### Compaction (R280, R281) -/

/-- Sizes, the largest first. -/
def largestFirst (us : List (Nat × Nat)) : List Nat := sortBy (fun x y => y ≤ x) (us.map (·.2))

/-- Some blocks or ranges lie in a stretch of space, by ascending address. -/
def within (us : List (Nat × Nat)) (a n : Nat) : List (Nat × Nat) :=
  sortBy (fun x y => x.1 ≤ y.1) (us.filter fun u => overlap u.1 u.2 a n)

/-- Some blocks or ranges lie outside a stretch of space. -/
def without (us : List (Nat × Nat)) (a n : Nat) : List (Nat × Nat) := us.filter fun u => !overlap u.1 u.2 a n

/-- The largest first. -/
def bySize (us : List (Nat × Nat)) : List (Nat × Nat) := sortBy (fun x y => y.2 ≤ x.2) us

/-- Registers or bytes of some blocks or ranges. -/
def totalSize (us : List (Nat × Nat)) : Nat := (us.map (·.2)).foldl (· + ·) 0

/-- The sublists of a list, the empty one first. -/
def subsets {α : Type} : List α → List (List α)
  | [] => [[]]
  | x :: xs => subsets xs ++ (subsets xs).map (x :: ·)

/-- Places for some blocks or ranges in order, beside what is used; `place` finds one for a size. -/
def placesFor (place : List (Nat × Nat) → Nat → Option Nat) : List (Nat × Nat) → List (Nat × Nat) → Option (List ((Nat × Nat) × Nat))
  | _, [] => some []
  | used, m :: ms => (place used m.2).bind fun a => (placesFor place ((a, m.2) :: used) ms).map ((m, a) :: ·)

/-- A plan that opens a stretch: where it lies, and the moves, each from a block or range to its place. -/
structure Plan where
  at_ : Nat
  moves : List ((Nat × Nat) × Nat)
  deriving DecidableEq, Repr

/-- Registers or bytes that a plan moves (R280). -/
def Plan.cost (p : Plan) : Nat := totalSize (p.moves.map (·.1))

/-- The moves of the fewest registers or bytes that open a stretch of `n` at `a` (R280): of what lies in it, and of as little else as
gives that a place. -/
def openAt (place : List (Nat × Nat) → Nat → Option Nat) (fixed ms : List (Nat × Nat)) (n a : Nat) : Option Plan :=
  let must := within ms a n
  let rest := without ms a n
  let try_ := fun (extra : List (Nat × Nat)) =>
    (placesFor place ((a, n) :: (fixed ++ rest.filter fun u => !extra.contains u)) (bySize (must ++ extra))).map (Plan.mk a)
  (try_ []).orElse fun _ => (sortBy (fun x y => x.cost ≤ y.cost) ((subsets rest).filterMap try_)).head?

/-- The plan that moves the fewest registers or bytes, the lowest stretch on a tie (R280; log 119), of those that open a stretch of
`n` at one of some addresses. What lies in a stretch bounds its cost from below, so the stretches are taken in that order. -/
def bestPlan (place : List (Nat × Nat) → Nat → Option Nat) (fixed ms : List (Nat × Nat)) (n : Nat) (cands : List Nat) : Option Plan :=
  let least := fun (a : Nat) => totalSize (within ms a n)
  (sortBy (fun a b => rankLe [least a, a] [least b, b]) cands).foldl (fun best a =>
    if best.any fun p => rankLe [p.cost, p.at_] [least a, a] then best
    else match openAt place fixed ms n a, best with
      | some q, some p => if rankLe [q.cost, q.at_] [p.cost, p.at_] then some q else some p
      | some q, none => some q
      | none, _ => best) none

/-- The first move of a plan whose place is free now: from where, and to where. -/
def Plan.first (p : Plan) (fixed ms : List (Nat × Nat)) : Option (Nat × Nat) :=
  (p.moves.find? fun m => !((fixed ++ ms.filter (· != m.1)).any fun u => overlap u.1 u.2 m.2 m.1.2)).map fun m => (m.1.1, m.2)

/-- The first move that opens an aligned block of `b` registers beside the blocks `fixed`, moving blocks of `ms` (R280). -/
def planBlock (fixed ms : List (Nat × Nat)) (b : Nat) : Option (Nat × Nat) :=
  (bestPlan takeBlock fixed ms b (((List.range (2048 / b)).map (· * b)).filter fun a => !fixed.any fun u => overlap u.1 u.2 a b)).bind
    fun p => p.first fixed ms

/-- The same for a scratchpad range of `n` bytes below `limit`, where ranges move below `cap`. -/
def planRange (fixed ms : List (Nat × Nat)) (n limit cap : Nat) : Option (Nat × Nat) :=
  (bestPlan (fun used k => takeRange used k cap) fixed ms n ((0 :: (fixed ++ ms).map fun u => u.1 + u.2).filter fun a =>
    decide (a + n ≤ limit) && !fixed.any fun u => overlap u.1 u.2 a n)).bind fun p => p.first fixed ms

/-- The move that a request for a block of `b` registers waits for, beside blocks that it takes itself; blocks of groups placed
from order `new` on stay (R280). -/
def State.blockMove (s : State) (cu part b new : Nat) (taken : List (Nat × Nat)) : Option Move :=
  let gs := s.groups.filter fun g => g.cu == cu && g.part == part
  let stay := fun (g : Group) => s.pinnedRegs g || new ≤ g.order
  let fixed := taken ++ (gs.filter stay).map fun g => (g.base, g.size)
  let ms := (gs.filter fun g => !stay g).map fun g => (g.base, g.size)
  if (takeBlock (fixed ++ ms) b).isSome then none
  else (planBlock fixed ms b).bind fun m => (gs.find? (·.base == m.1)).map fun g => .regs cu part g.slot m.2

/-- The end of the scratchpad of a CU, below which ranges move (R286). -/
def State.scratchTop (s : State) (cu : Nat) : Nat := (s.cu? cu).elim 0 fun c => c.split * 131072

/-- The move that a request for a scratchpad range waits for, of ranges below `top` (R280). -/
def State.rangeMove (s : State) (cu n limit top new : Nat) : Option Move :=
  let ts := s.teams.filter fun t => t.cu == cu
  let stay := fun (t : Team) => s.pinnedScratch t || new ≤ t.order
  let fixed := (ts.filter stay).map fun t => (t.base, t.scr)
  let ms := (ts.filter fun t => !stay t && t.scr != 0).map fun t => (t.base, t.scr)
  if (takeRange (fixed ++ ms) n limit).isSome then none
  else (planRange fixed ms n limit top).bind fun m =>
    (ts.find? fun t => t.base == m.1 && t.scr != 0).map fun t => .scratch t.id m.2

/-- Move a register block within its partition: free space, aligned, and nothing pinned (R277, R279). -/
def State.moveRegs (s : State) (g : Group) (base : Nat) : State :=
  let others := (s.groups.filter fun h => h.cu == g.cu && h.part == g.part && h.order != g.order).map fun h => (h.base, h.size)
  if s.pinnedRegs g || base % g.size != 0 || 2048 < base + g.size || others.any fun u => overlap u.1 u.2 base g.size then s
  else s.updGroup g.cu g.part g.slot fun g => { g with base := base }

/-- Move a scratchpad range within its CU (R280). -/
def State.moveRange (s : State) (t : Team) (base : Nat) : State :=
  let others := (s.teams.filter fun u => u.cu == t.cu && u.id != t.id).map fun u => (u.base, u.scr)
  if s.pinnedScratch t || base % 4096 != 0 || s.scratchTop t.cu < base + t.scr || others.any fun u => overlap u.1 u.2 base t.scr then s
  else s.updTeam t.id fun t => { t with base := base }

/-! ### Release (R283) -/

/-- A shared window binds a role to another (R38, R371). -/
def Header.bound (h : Header) (a b : Nat) : Bool :=
  h.wins.any fun w => w.valid && ((w.prole == a && w.crole == b) || (w.prole == b && w.crole == a))

/-- The groups with which a group shares a window: of its team and index, in a role that a window binds to its own (R38). -/
def State.windowPartners (s : State) (g : Group) (h : Header) : List Group :=
  s.groups.filter fun p => p.team == g.team && p.index == g.index &&
    (match g.role, p.role with
     | some a, some b => h.bound a b
     | _, _ => false)

/-- Nothing writes the block of a group any more, and no shared window pins it: no operation in flight writes it, and the
groups that share its windows have exited (R40, R135). -/
def State.groupQuiet (s : State) (g : Group) : Bool :=
  !(s.flights.any fun f => f.order == g.order && f.op.writesThreads) &&
  (s.launch? g.launch).all fun l => l.stop.isSome || (s.windowPartners g l.hdr).all Group.ended

/-- GROUP_RELEASE (R283): all threads have ended, or its launch has stopped, and nothing still writes or pins its block. -/
def execGroupRelease (cu part slot : Nat) (s : State) : Host.Outcome State Fault Refusal :=
  match s.group? cu part slot with
  | none => .next s
  | some g =>
    let past := g.ended || (s.launch? g.launch).all (·.stop.isSome)
    if past && s.groupQuiet g then
      .next (State.settle { s with
        groups := s.groups.filter fun h => !h.at_ cu part slot
        early := s.early.filter (·.order != g.order) } g.launch g.team)
    else .next s

/-- A berth or a sub-ring holds an entry that a thread of the team deposited (R230, R283). -/
def State.teamOwed (s : State) (t : Team) : Bool :=
  (s.cus.any fun c => c.berths.any fun b => b.any fun b => b.launch == t.launch &&
    (b.entries.any (·.owner == t.id) || b.due.any fun ds => ds.any (·.owner == t.id))) ||
  (s.launch? t.launch).any fun l => l.ringTeams.any (·.2.2 == t.id)

/-- An operation in flight names the scratchpad or the hold tiles of a team (R283). -/
def Flight.uses (f : Flight) (team : Nat) : Bool :=
  match f.op with
  | .copy c => c.targets.contains team
  | .mma _ => f.team == team
  | .hdrn _ => f.team == team
  | .pilot _ => f.team == team
  | .mchk _ => f.team == team
  | .lateHold _ _ => f.team == team
  | .lateLoad _ ls => ls.any fun l => l.parts.any fun x => x.place.any (·.inTeam team)
  | .lateStore _ ls => ls.any fun l => l.place.inTeam team
  | .lateAtomic ops => ops.any fun o => o.part.place.any (·.inTeam team)
  | _ => false

/-- TEAM_RELEASE (R283): no group of it is left, no deposit of its threads is held, no operation names its scratchpad or its hold
tiles. -/
def execTeamRelease (team : Nat) (s : State) : Host.Outcome State Fault Refusal :=
  match s.team? team with
  | none => .next s
  | some t =>
    if s.groups.any (·.team == team) || s.teamOwed t || s.flights.any (·.uses team) then .next s
    else .next { s with teams := s.teams.filter (·.id != team) }

/-- GROUP_AGED (R262): it has been issuable in 64 choices without issuing, which the choice that makes it so records already
(`countWaits`). -/
def execGroupAged (cu part slot : Nat) (s : State) : Host.Outcome State Fault Refusal :=
  .next (s.updGroup cu part slot fun g => if 64 ≤ g.waited then { g with aged := true } else g)

end Sys2Proof.Machine
end

