-- ==== Sys2Proof/Machine/Place.lean ====
section
/-!
DEFINITION. A machine in which one given instruction is the next to issue (assumption log 5): one context whose
tables map the first GiB, one running launch with one team, one group and one thread.
-/
namespace Sys2Proof.Machine

/-- Physical addresses of the placed page tables and of the placed context's other tables. -/
def placedRoot : Nat := 0x100000
def placedCode : Nat := 0x10000

/-- The context of a placed instruction. -/
def placedCtx : Ctx :=
  { id := 0,
    desc := { ptroot := placedRoot, vtbase := 0x200000, qtbase := 0x110000, savepool := 0, saveslots := 0, fqbase := 0x120000,
              fqlog := 4, cqlog := 2, eqlog := 4, fabtag := 0, cmdbase := 0x130000, eqbase := 0x140000, cgbase := 0x150000 },
    counters := [], queues := [], faults := [], nextFid := 0, nextFar := 0, errq := [], lost := 0, seqs := [], tickets := [], preserves := [],
    frozen := false, saveUsed := [] }

/-- The launch of a placed instruction: one team of one group of role 0 with 256 registers. -/
def placedLaunch : Launch :=
  { id := 0, ctx := 0, queue := 0, node := 0, run := 0, record := 0, isAsync := false,
    hdr := { entry := placedCode, gx := 1, gy := 1, gz := 1, flags := 0, roles := [(1, 31), (0, 0), (0, 0), (0, 0)], scr := 131072,
             split := 1, ht := 1, wins := [], rsbase := 0, consta := 0, nconst := 0, btimer := 0, ring := 0, ringlog := 0,
             bregm := 0, wdg := 0, snapa := 0, nsnap := 0, done0 := 0, done1 := 0, cumask := 0 },
    slots := List.replicate 8 ⟨0, 0, 0, 0, []⟩, mask := 1, ranges := [], state := .running, nextTeam := 1, order := some 0,
    gbarPhase := 0, gbarArrived := [], replays := 0, replaying := false, stop := none, claims := false, ringTeams := [] }

/-- The team of a placed instruction. -/
def placedTeam : Team :=
  { id := 0, ctx := 0, launch := 0, linear := 0, cu := 0, base := 0, scr := 131072, mem := [], bad := [], absent := [],
    hold := [⟨0, [], []⟩], bars := List.replicate 16 (Bar.start 0), wins := [], order := 0 }

/-- The thread of a placed instruction: its registers hold 0, and it stands at the word by fall-through, so that a hint may
stand there (R101). -/
def placedThread : Thread := { newThread 256 (List.replicate 256 0) (BitVec.ofNat 64 placedCode) 0 0 with fell := true }

/-- The group of a placed instruction. -/
def placedGroup : Group := { newGroup 0 0 0 0 256 placedTeam (some 0) 0 0 0 with threads := [some placedThread] }

/-- The CU of a placed instruction. -/
def placedCu : Cu :=
  { num := 0, split := 1, ctx := some 0, l1 := [], locks := [], berths := List.replicate 16 none, arrival := 0, wdExpired := false }

/-- The page tables that map the first GiB for every access (R393, R394), and the code. -/
def placedMem (m : Mem) (code : List Byte) : Mem :=
  (((m.write placedRoot (leBytes 8 (placedRoot + 0x1000 + 1))).write (placedRoot + 0x1000) (leBytes 8 (placedRoot + 0x2000 + 1))).write
    (placedRoot + 0x2000) (leBytes 8 0x119)).write placedCode code

/-- Sectors that carry the placed tables and code. -/
def placedSectors : List Nat := [placedRoot, placedRoot + 0x1000, placedRoot + 0x2000, placedCode]

/-- Place code as the next instruction to issue. -/
def State.place (s : State) (code : List Byte) : State :=
  { s with
    power := true
    dram := placedMem s.dram code
    dramBad := s.dramBad.filter fun x => !placedSectors.contains x
    zeroFlags := s.zeroFlags.filter fun x => !placedSectors.contains x
    retired := s.retired.filter fun p => !(placedSectors.map (· / 4096)).contains p
    ctxs := [placedCtx], launches := [placedLaunch], teams := [placedTeam], groups := [placedGroup], cus := [placedCu]
    flights := [], saved := [], tlb := [], viewCache := [], reservation := none
    cur := none, port2 := none, upset := none, agenda := [.issue 0 0] }

end Sys2Proof.Machine
end

