-- ==== Sys2Proof/Machine/Atomics.lean ====
section
/-!
DEFINITION. Atomics in memory and in scratchpad (R176 to R180).
-/
namespace Sys2Proof.Machine

/-- The new value of an atomic at a width of n bits (R176): `v` is the operand or the compare value, `w` the
new value of CAS. -/
def atomNew (op : AtomOp) (n old v w : Nat) : Nat :=
  match op with
  | .add => (old + v) % 2 ^ n
  | .minS => if signed n v < signed n old then v else old
  | .maxS => if signed n old < signed n v then v else old
  | .minU => min old v
  | .maxU => max old v
  | .and => old &&& v
  | .or => old ||| v
  | .xor => old ^^^ v
  | .xchg => v
  | .cas => if old = v then w else old

/-- The new value of FADD (R178). -/
def faddNew (old v : Nat) : Nat := (addFP fp32 .rne (fp32.decode old) (fp32.decode v)).pat

/-- The read-modify-write of an ATOML operation. -/
def latomRmw (op : LAtomOp) (v w : Nat) : Rmw :=
  match op with
  | .op o => .atom o 32 v w
  | .fadd => .fadd v

/-- The integer that FXADD adds, and its flags (R179). -/
def fxaddTerm (x f : Nat) : Nat × Nat :=
  let v := fp32.decode x
  if v.isNan then (0, fxNV)
  else
    let r := narrowFV (.int 64 true) .rne [v] (FV.mul v (.fin false 1 (f : Int)))
    (r.pat, r.fx)

/-- The new value of FXADD in memory (R179). -/
def fxaddNew (old n : Nat) : Nat := (old + n) % 2 ^ 64

/-- The new value that a read-modify-write stores. -/
def Rmw.new (r : Rmw) (old : Nat) : Nat :=
  match r with
  | .atom op bits v w => atomNew op bits old v w
  | .fadd v => faddNew old v
  | .fxadd n => fxaddNew old n

/-- The new value of an ATOML operation (R178, R180). -/
def latomNew (op : LAtomOp) (old v w : Nat) : Nat := (latomRmw op v w).new old

/-- One read-modify-write at the home of its bytes (R177, R301): old value, mark, machine after. -/
def State.rmw (s : State) (cu : Nat) (p : PAddr) (n : Nat) (f : Nat → Nat) : Nat × Bool × State :=
  let x := s.loadPhys p n
  let old := leNat x.1
  (old, x.2, (s.storePhys p (leBytes n (f old)) false).dropL1 cu p)

/-- The read-modify-writes of an issue in ascending lane order (R177): (lane, old value) for each, and
where one met a mark. -/
def Env.rmwAll (e : Env) (n : Nat) (f : Thread → Nat → Nat) : Mapped → State → List (Nat × Nat) × FirstBad × State
  | [], s => ([], none, s)
  | (k, es) :: r, s =>
    match es.head?, e.thread k with
    | some (.at_ p va _), some t =>
      let x := s.rmw e.iss.cu p n (f t)
      let y := e.rmwAll n f r x.2.2
      ((k, x.1) :: y.1, if x.2.1 then some va else y.2.1, y.2.2)
    | _, _ => let y := e.rmwAll n f r s; ((k, 0) :: y.1, y.2.1, y.2.2)

/-- The atomics of an issue that are performed later (R177, R328). -/
def Env.lateRmws (e : Env) (d : Ref) (f : Thread → Rmw) (fx : Thread → Nat) (as : List (Nat × LatePart)) : List LateRmw :=
  as.filterMap fun a => (e.thread a.1).map fun t =>
    { lane := a.1, regs := e.dest d a.1, part := a.2, rmw := f t, fx := fx t, got := none }

/-- An atomic in memory (R176): old values are returned by ATOMIC_RETURN. A padded lane of FXADD changes nothing and returns
zero (R313); the flags of its conversion still go to FX (R179; log 116). A relaxed atomic may be performed later (R328). -/
def atomOp (s : State) (i : Instr) (d : BitVec 7) (v b : BitVec 3) (n : Nat) (sc : Scope) (r : Bool)
    (f : Env → Thread → Rmw) (fx : Env → Thread → Nat) : Host.Outcome State Fault Refusal :=
  let sp : AccSpec := { acc := .atomic, size := n, scope := sc, atomic := true }
  runWord s i (fun e _ => e.accConds sp (e.eas .lane b (.block v.toNat 1))) fun e s1 =>
    match e.mapAll s1 sp (e.eas .lane b (.block v.toNat 1)) with
    | .error out => out
    | .ok (m, s2) =>
      if e.iss.late && !r && !m.isEmpty then
        let parts := m.filterMap fun v => ((v.2.head?).bind Elem.latePart).map fun p => (v.1, p)
        .go (e.flyAt s2 m.va (.lateAtomic (e.lateRmws (.code d (n / 4)) (f e) (fx e) parts)))
      else
      let x := e.rmwAll n (fun t => (f e t).new) m s2
      consumeOr x.2.1 <|
        let ws := x.1.map fun p => { lane := p.1, regs := e.dest (.code d (n / 4)) p.1, vals := natRegs (n / 4) p.2,
                                     fx := (e.thread p.1).elim 0 (fx e) : LaneWrite }
        let s3 := if r then x.2.2.acquire e.iss.cu sc else x.2.2
        .go (if ws.isEmpty then s3 else e.flyAt s3 m.va (.atomic ws))

/-- No flag. -/
def noFx : Env → Thread → Nat := fun _ _ => 0

/-- ATOM, 32-bit (R176). -/
def execAtom (d : BitVec 7) (c : AtomOp) (v b : BitVec 3) (l : BitVec 4) (sc : Scope) (r : Bool) (s : State) :
    Host.Outcome State Fault Refusal :=
  atomOp s (.atom d c v b l sc r) d v b 4 sc r (fun e t =>
    let ws := e.words (.code d (atomRegs c false)) t
    .atom c 32 (regsNat (ws.take 1)) (regsNat (ws.drop 1))) noFx

/-- ATOM.FADD (R178). -/
def execAtomFadd (d : BitVec 7) (v b : BitVec 3) (l : BitVec 4) (sc : Scope) (r : Bool) (s : State) :
    Host.Outcome State Fault Refusal :=
  atomOp s (.atomFadd d v b l sc r) d v b 4 sc r (fun e t => .fadd (e.val d 1 t)) noFx

/-- ATOM.D (R176). -/
def execAtomD (d : BitVec 7) (c : AtomOp) (v b : BitVec 3) (l : BitVec 4) (sc : Scope) (r : Bool) (s : State) :
    Host.Outcome State Fault Refusal :=
  atomOp s (.atomD d c v b l sc r) d v b 8 sc r (fun e t =>
    let ws := e.words (.code d (atomRegs c true)) t
    .atom c 64 (regsNat (ws.take 2)) (regsNat (ws.drop 2))) noFx

/-- FXADD (R179). -/
def execFxadd (d : BitVec 7) (v b : BitVec 3) (l : BitVec 4) (sc : Scope) (r : Bool) (s : State) :
    Host.Outcome State Fault Refusal :=
  atomOp s (.fxadd d v b l sc r) d v b 8 sc r
    (fun e t => .fxadd (fxaddTerm (e.val d 1 t) e.h.f).1)
    (fun e t => (fxaddTerm (e.val d 1 t) e.h.f).2)

/-- The read-modify-writes of ATOML in ascending lane order, and the offset at which one met a mark. -/
def Env.latomAll (e : Env) (f : Thread → Nat → Nat) : List (Nat × Nat) → State → List (Nat × Nat) × FirstBad × State
  | [], s => ([], none, s)
  | (k, a) :: r, s =>
    match e.thread k with
    | none => e.latomAll f r s
    | some t =>
      let x := s.scrRead e.team.id a 4
      let old := leNat x.1
      let y := e.latomAll f r (s.scrWrite e.team.id a (leBytes 4 (f t old)) false)
      ((k, old) :: y.1, if x.2 then some a else y.2.1, y.2.2)

/-- ATOML (R180); it may be performed later (R328). -/
def execAtoml (d o : BitVec 7) (b : BitVec 3) (l : BitVec 4) (c : LAtomOp) (s : State) : Host.Outcome State Fault Refusal :=
  runWord s (.atoml d o b l c) (fun e _ => e.scrConds 4 4 true (e.sas .lane b (.code o 1))) fun e s1 =>
    let as := (e.sas .lane b (.code o 1)).map fun a => (a.1, a.2.toNat)
    let f := fun (t : Thread) =>
      let ws := e.words (.code d c.regs) t
      latomRmw c (regsNat (ws.take 1)) (regsNat (ws.drop 1))
    if e.iss.late && !as.isEmpty then
      .go (e.fly s1 (.lateAtomic (e.lateRmws (.code d 1) f (fun _ => 0) (as.map fun a => (a.1, e.scrPart a.2 4)))))
    else
    let x := e.latomAll (fun t => (f t).new) as s1
    consumeOr x.2.1 (.go (e.onLanes (x.1.map (·.1)) x.2.2 fun k t0 t =>
      (lookupKey x.1 k).elim t fun old => t.putRegs (e.sel (.code d 1) t0 true).list [BitVec.ofNat 32 old]))

end Sys2Proof.Machine
end

