-- ==== Sys2Proof/Machine/Berths.lean ====
section
/-!
DEFINITION. Berths (R228 to R234, R268 to R275): deposits, the overflow ring, the launch of groups, SPAWN, PARK
and BFLUSH.
-/
namespace Sys2Proof.Machine

/-! ### Berths of a CU (R268) -/

/-- Entries that a berth holds: those that wait for a launch event, and those of groups that wait for room (R271). -/
def Berth.held (b : Berth) : Nat := b.entries.length + (b.due.map (·.length)).foldl (· + ·) 0

/-- The berth bound to a launch and an entry address. -/
def Cu.berthOf (c : Cu) (lid : Nat) (entry : Word64) : Option Nat :=
  c.berths.findIdx? fun b => b.any fun b => b.launch == lid && b.entry == entry

/-- The berth of an index, if it is bound. -/
def Cu.berth? (c : Cu) (i : Nat) : Option Berth := (c.berths[i]?).join

/-- Entries that the berths take for an entry address (R229). -/
def Cu.berthRoom (c : Cu) (lid : Nat) (entry : Word64) : Nat :=
  match (c.berthOf lid entry).bind c.berth? with
  | some b => 64 - b.held
  | none => if c.berths.any (·.isNone) then 64 else 0

/-- Put entries into the berth of an address, binding an idle one where none is bound (R229, R268, R270). -/
def Cu.putEntries (c : Cu) (l : Launch) (entry : Word64) (ds : List Deposit) : Cu :=
  if ds.isEmpty then c
  else
    let timer := l.hdr.btimer != 0
    match c.berthOf l.id entry with
    | some i => { c with berths := c.berths.modify i (Option.map fun b =>
        { b with timer := (if b.entries.isEmpty then timer else b.timer), entries := b.entries ++ ds }) }
    | none =>
      match c.berths.findIdx? (·.isNone) with
      | some i => { c with berths := c.berths.set i (some { launch := l.id, entry := entry, entries := ds, timer := timer, due := [] }) }
      | none => c

/-- The order of entries in stable mode and in normal mode (R229). -/
def entryBefore (stable : Bool) (a b : Deposit) : Bool :=
  a.key < b.key || (a.key == b.key &&
    (if stable then a.team < b.team || (a.team == b.team && a.thread ≤ b.thread) else a.arrival ≤ b.arrival))

/-- Entries in launch order (R229). -/
def Launch.ordered (l : Launch) (ds : List Deposit) : List Deposit := sortBy (entryBefore (bitOf l.hdr.flags 2)) ds

/-- Launch every entry of a berth, in groups of up to 32 (R269). -/
def Berth.launchAll (l : Launch) (b : Berth) : Berth :=
  { b with entries := [], timer := false, due := b.due ++ chunksGo 32 64 (l.ordered b.entries) }

/-- Launch groups of the 32 lowest entries while the berth has 32 (R269, R270). -/
def Berth.launchFull (l : Launch) (b : Berth) : Berth :=
  if b.entries.length < 32 then b
  else
    let ds := l.ordered b.entries
    let low := ds.take 32
    let rest := b.entries.filter fun d => !low.contains d
    if rest.length < 32 then { b with entries := rest, timer := !rest.isEmpty && l.hdr.btimer != 0, due := b.due ++ [low] }
    else { b with entries := [], timer := false, due := b.due ++ [low, ds.drop 32] }

/-- A berth that holds no entry is idle (R268). -/
def Berth.tidy (b : Berth) : Option Berth := if b.held = 0 then none else some b

/-- Change the bound berths of a launch on a CU. -/
def Cu.mapBerths (c : Cu) (p : Berth → Bool) (f : Berth → Berth) : Cu :=
  { c with berths := c.berths.map fun b => b.bind fun b => if p b then (f b).tidy else some b }

/-- What a change of entries launches by itself (R269). -/
def State.fillBerths (s : State) (cu : Nat) (l : Launch) : State :=
  s.updCu cu fun c => c.mapBerths (·.launch == l.id) (·.launchFull l)

/-! ### The overflow ring (R272, R273) -/

/-- Capacity of a sub-ring. -/
def Header.ringCap (h : Header) : Nat := 2 ^ h.ringlog

/-- Address of a ring entry. -/
def Header.ringSlot (h : Header) (cu e : Nat) : Nat := h.subRing cu + 64 + 64 * (e % h.ringCap)

/-- Every address of a sub-ring is one that memory can have (R161, R393). -/
def Header.ringUsable (h : Header) (cu : Nat) : Bool := usableVA (h.subRing cu) && usableVA (h.subRing (cu + 1) - 1)

/-- HEAD and TAIL of a sub-ring, read by its CU; none where its header is not acted on, because a reserved byte of it is not
zero (R16) or it lies past the canonical addresses (log 109, log 112). -/
def State.ringPtrs (s : State) (cu : Nat) (l : Launch) : Except (Nat × Nat) (Option (Nat × Nat)) :=
  let a := l.hdr.subRing cu
  if !l.hdr.ringUsable cu then .ok none
  else match s.translate cu l.ctx a .read with
  | .ok p =>
    let bs := (s.loadPhys p 64).1
    .ok (if (bs.drop 16).all (· == 0) then some (numAt bs 0 8, numAt bs 8 8) else none)
  | .fault k => .error (k, a)
  | .poison => .error (0, a)

/-- Entries that a sub-ring still takes; all of them where its header cannot be read now (R233, R272), none where it is not
acted on. -/
def State.ringRoom (s : State) (cu : Nat) (l : Launch) (wanted : Nat) : Nat :=
  if l.hdr.ring = 0 then 0
  else match s.ringPtrs cu l with
    | .ok (some (h, t)) => l.hdr.ringCap - wrap 64 ((t : Int) - h)
    | .ok none => 0
    | .error _ => wanted

/-- The 64 bytes of a ring entry. -/
def Deposit.ringBytes (d : Deposit) (entry : Word64) : List Byte :=
  leBytes 8 entry.toNat ++ leBytes 4 d.key.toNat ++ leBytes 4 d.team ++ leBytes 2 d.thread ++ leBytes 6 0 ++
  leBytes 8 d.arrival ++ regBytes (d.payload.take 8)

/-- Write bytes at a virtual address for a CU. -/
def State.cuWrite (s : State) (cu ctx va : Nat) (bs : List Byte) : Except (Nat × Nat) State :=
  match s.translate cu ctx va .write with
  | .ok p => .ok (s.storePhys p bs false)
  | .fault k => .error (k, va)
  | .poison => .error (0, va)

/-- Write entries at TAIL, the entries first and TAIL after them (R272). -/
def State.ringPut (s : State) (cu : Nat) (l : Launch) (entry : Word64) : Nat → List Deposit → Except (Nat × Nat) State
  | tail, [] => s.cuWrite cu l.ctx (l.hdr.subRing cu + 8) (leBytes 8 tail)
  | tail, d :: ds =>
    match s.cuWrite cu l.ctx (l.hdr.ringSlot cu tail) (d.ringBytes entry) with
    | .error e => .error e
    | .ok s1 =>
      (s1.updLaunch l.id fun l => { l with ringTeams := l.ringTeams ++ [(cu, tail, d.owner)] }).ringPut cu l entry (tail + 1) ds

/-- A drain of this sub-ring is stalled on a fault (R399). -/
def State.ringStalled (s : State) (cu : Nat) (l : Launch) : Bool :=
  (s.ctx? l.ctx).any fun c => c.faults.any (·.who == .ring cu l.id)

/-- A drain that does not translate stalls (R272, R399), or meets a marked table (R434). -/
def State.stallRing (s : State) (cu : Nat) (l : Launch) (k va : Nat) (acc : Access) : State :=
  if k = 0 then s.freeze l.ctx { ErrRec.ofLaunch s l 3 0x16 7 with cu := some (cunum cu 0), addr := va }
  else s.addFault l.ctx false { XFault.of (.ring cu l.id) k va acc 7 with cu := cunum cu 0, launch := some l.id }

/-- The entry in 64 bytes of the ring. -/
def depositOf (bs : List Byte) (owner : Nat) : Deposit :=
  { key := BitVec.ofNat 32 (numAt bs 8 4), team := numAt bs 12 4, thread := numAt bs 16 2, owner := owner,
    arrival := numAt bs 24 8, payload := natRegs 8 (numAt bs 32 32) }

/-- The team that an entry of the ring belongs to (R230). -/
def State.ringOwner (s : State) (cu : Nat) (l : Launch) (e : Nat) (bs : List Byte) : Nat :=
  match l.ringTeams.find? fun x => x.1 == cu && x.2.1 == e with
  | some x => x.2.2
  | none => ((s.teams.find? fun t => t.launch == l.id && t.linear == numAt bs 12 4).map (·.id)).getD 0

/-- Move the entry at HEAD into a berth with room (R273): none where nothing moves, as where a reserved byte of the entry is
not zero (R16, log 109). -/
def State.drainOne (s : State) (cu : Nat) (l : Launch) : Option State :=
  if l.hdr.ring = 0 || l.stop.isSome || s.ringStalled cu l then none
  else
    match s.cu? cu, s.ringPtrs cu l with
    | _, .error (k, va) => some (s.stallRing cu l k va .read)
    | none, _ => none
    | _, .ok none => none
    | some c, .ok (some (h, t)) =>
      if h = t then none
      else
        let at_ := l.hdr.ringSlot cu h
        match s.translate cu l.ctx at_ .read with
        | .fault k => some (s.stallRing cu l k at_ .read)
        | .poison => some (s.stallRing cu l 0 at_ .read)
        | .ok p =>
          let bs := (s.loadPhys p 64).1
          let entry := BitVec.ofNat 64 (numAt bs 0 8)
          if c.berthRoom l.id entry = 0 || numAt bs 18 6 != 0 then none
          else match s.cuWrite cu l.ctx (l.hdr.subRing cu) (leBytes 8 (h + 1)) with
            | .error (k, va) => some (s.stallRing cu l k va .write)
            | .ok s1 =>
              let s2 := s1.updCu cu fun c => c.putEntries l entry [depositOf bs (s.ringOwner cu l h bs)]
              let s3 := s2.updLaunch l.id fun l => { l with ringTeams := l.ringTeams.filter fun x => !(x.1 == cu && x.2.1 == h) }
              some (s3.fillBerths cu l)

/-- Drain all that berths take (R273). -/
def State.drainAll (cu : Nat) (l : Launch) : Nat → State → State
  | 0, s => s
  | n + 1, s =>
    match (s.launch? l.id).bind (s.drainOne cu) with
    | none => s
    | some s1 => State.drainAll cu l n s1

/-! ### SPAWN and PARK -/

/-- The entry address of a deposit (R228). -/
def Env.entryAddr (e : Env) (b : BitVec 7) : Nat := e.sv (b.toNat - 96)

/-- Conditions of SPAWN and PARK (R233). -/
def Env.depositConds (e : Env) (b : BitVec 7) (take : List Nat) : List Cond :=
  if take.isEmpty then []
  else
    let entry := e.entryAddr b
    let room := ((e.s.cu? e.iss.cu).map fun c => c.berthRoom e.l.id (BitVec.ofNat 64 entry)).getD 0
    condIf (!goodTarget entry) 9 (e.low take) ++
    condIf (e.l.hdr.bregm = 0 || room + e.s.ringRoom e.iss.cu e.l take.length < take.length) 0x23 (e.low take)

/-- The deposits of an issue, in ascending lane order, in both modes (R228, R229; log 138); `at_` is the next arrival number of the CU. -/
def Env.deposits (e : Env) (d a : BitVec 7) (g : BitVec 3) (at_ : Nat) : List Deposit :=
  (e.takers (.pred g)).zipIdx.map fun p =>
    { key := BitVec.ofNat 32 (e.val a 1 p.1.2), team := p.1.2.tieTeam, thread := p.1.2.tieThread, owner := e.team.id,
      arrival := at_ + p.2, payload := e.words (.block d.toNat 8) p.1.2 }

/-- Deposit (R229): what the berths take, then the ring. A launch that its primary issue has stopped in the same cycle keeps no entry
(R266, R383). -/
def Env.deposit (e : Env) (b : BitVec 7) (ds : List Deposit) (s1 : State) : Out :=
  if e.l.stop.isSome then .go s1
  else
  let cu := e.iss.cu
  let entry := BitVec.ofNat 64 (e.entryAddr b)
  let room := ((s1.cu? cu).map fun c => c.berthRoom e.l.id entry).getD 0
  let extra := ds.drop room
  let here := fun (s : State) =>
    (s.updCu cu fun c => { c.putEntries e.l entry (ds.take room) with arrival := c.arrival + ds.length }).fillBerths cu e.l
  if extra.isEmpty then .go (here s1)
  else
    match s1.ringPtrs cu e.l with
    | .error (k, va) => if k = 0 then .freezes va else .stall k va .read false 0
    | .ok none => .go s1
    | .ok (some (_, t)) =>
      match s1.ringPut cu e.l entry t extra with
      | .error (k, va) => if k = 0 then .freezes va else .stall k va .write false 0
      | .ok s2 => .go (here s2)

/-- The next arrival number of the issuing CU. -/
def Env.arrival (e : Env) : Nat := ((e.s.cu? e.iss.cu).map (·.arrival)).getD 0

/-- SPAWN (R228, R232). -/
def execSpawn (d a b : BitVec 7) (g : BitVec 3) (s : State) : Host.Outcome State Fault Refusal :=
  runWord s (.spawn d a b g) (fun e take => e.depositConds b take) fun e s1 => e.deposit b (e.deposits d a g e.arrival) s1

/-- PARK (R228, R232): the depositing threads end. -/
def execPark (d a b : BitVec 7) (g : BitVec 3) (s : State) : Host.Outcome State Fault Refusal :=
  runWord s (.park d a b g)
    (fun e take => e.depositConds b take ++
      take.filterMap fun i => if (e.thread i).any (·.melded) then some (laneCond 0x0A i) else none)
    fun e s1 =>
      match e.deposit b (e.deposits d a g e.arrival) s1 with
      | .go s2 => .go (e.endLanes (e.take (.pred g)) s2)
      | o => o

/-- Launch every entry of some berths of a launch on a CU, after the ring is drained into them (R234, R269, R273). -/
def State.flushBerths (s : State) (cu : Nat) (l : Launch) (p : Berth → Bool) : State :=
  (State.drainAll cu l 1024 s).updCu cu fun c => c.mapBerths (fun b => b.launch == l.id && p b) (·.launchAll l)

/-- BFLUSH (R234). -/
def execBflush (a : BitVec 6) (l : BitVec 4) (s : State) : Host.Outcome State Fault Refusal :=
  runWord s (.bflush a l) noMore fun e s1 =>
    .go (s1.flushBerths e.iss.cu e.l fun b => e.sv a.toNat == 0 || b.entry.toNat == e.sv a.toNat)

/-! ### Berth events -/

/-- The launch of a bound berth. -/
def State.berthLaunch (s : State) (cu i : Nat) : Option (Berth × Launch) :=
  ((s.cu? cu).bind (·.berth? i)).bind fun b => ((s.launch? b.launch).filter (·.stop.isNone)).map fun l => (b, l)

/-- Change one berth of a CU. -/
def State.updBerth (s : State) (cu i : Nat) (f : Berth → Berth) : State :=
  s.updCu cu fun c => { c with berths := c.berths.modify i fun b => b.bind fun b => (f b).tidy }

/-- BERTH_TIMER_EXPIRY (R269, R270). -/
def execBerthTimerExpiry (cu berth : Nat) (s : State) : Host.Outcome State Fault Refusal :=
  match s.berthLaunch cu berth with
  | some (b, l) => .next (if b.timer then s.updBerth cu berth (·.launchAll l) else s)
  | none => .next s

/-- A group of the launch on the CU counts as running (R269): a thread of it is ready; one that is stalled is not (log 137). -/
def State.runningOn (s : State) (cu lid : Nat) : Bool :=
  s.groups.any fun g => g.cu == cu && g.launch == lid && g.halt.isNone && g.threads.any fun t => t.any (·.wait == .ready)

/-- BERTH_IDLE_LAUNCH (R269, R273). -/
def execBerthIdleLaunch (cu berth : Nat) (s : State) : Host.Outcome State Fault Refusal :=
  match s.berthLaunch cu berth with
  | some (b, l) =>
    .next (if s.runningOn cu l.id || b.entries.isEmpty then s
      else (State.drainAll cu l 1024 s).updBerth cu berth (·.launchAll l))
  | none => .next s

/-- RING_DRAIN (R273). -/
def execRingDrain (cu launch : Nat) (s : State) : Host.Outcome State Fault Refusal :=
  .next (((s.launch? launch).bind (s.drainOne cu)).getD s)

/-- The partition that takes a berth-formed group (R271): the one with the fewest groups, the lower on a tie, that
has a slot and a block after compaction, and hold tiles of the team where the launch has tiles. -/
def State.berthPart (s : State) (cu : Nat) (l : Launch) (t : Team) (b : Nat) : Option Room :=
  let ok := (List.range 4).filter fun p => l.hdr.ht == 0 || t.hold.any (·.part == p)
  let rooms := ((ok.map (s.room cu)).filter (·.qualifies b))
  rooms.foldl (fun best r => match best with
    | none => some r
    | some x => if x.slots.length < r.slots.length then some r else some x) none

/-- NREG of berth-formed groups (R271, R369). -/
def Header.berthRegs (h : Header) : Nat := 8 * (h.bregm + 1)

/-- The threads of a berth-formed group (R229): lane L has the L-th entry. -/
def berthThreads (nreg free : Nat) (entry : Word64) (ds : List Deposit) : List (Option Thread) :=
  (List.range 32).map fun i => (ds[i]?).map fun d =>
    newThread nreg (d.payload.take 8 ++ [d.key] ++ freeRegs (free + 256 * i) (nreg - 9)) entry d.team d.thread

/-- BERTH_GROUP_LAUNCH (R230, R271): the first group that waits is placed where a partition has room now. -/
def execBerthGroupLaunch (cu berth : Nat) (s : State) : Host.Outcome State Fault Refusal :=
  match s.berthLaunch cu berth with
  | none => .next s
  | some (b, l) =>
    match b.due with
    | [] => .next s
    | ds :: rest =>
      let nreg := l.hdr.berthRegs
      match ((ds.head?).bind fun d => s.team? d.owner) with
      | none => .next s
      | some t =>
        match ((s.berthPart cu l t (blockFor nreg)).bind fun r => (r.take (blockFor nreg)).map fun x => (r.part, x)) with
        | none => .next s
        | some (part, slot, base, _) =>
          let g := { newGroup cu part slot base nreg t none 0 0 s.nextOrder with threads := berthThreads nreg s.free b.entry ds }
          .next ({ s with groups := s.groups ++ [g], nextOrder := s.nextOrder + 1, free := s.free + 8192 }.updBerth cu berth
            fun b => { b with due := rest })

end Sys2Proof.Machine
end

