-- ==== Sys2Proof/Machine/Lighter.lean ====
section
/-!
DEFINITION. The lighter (R188 to R195, R290, R292, R457): the issue of CPY, CPYM, CPYO, CPYRW and CSIG, and the
landing of what they copy.
-/
namespace Sys2Proof.Machine

/-! ### Ranges -/

/-- Extend a run by ranges in rising order into maximal contiguous runs (R292). -/
def mergeRuns : Nat → Nat → List (Nat × Nat) → List (Nat × Nat)
  | a, n, [] => [(a, n)]
  | a, n, (b, m) :: r => if b ≤ a + n then mergeRuns a (max (a + n) (b + m) - a) r else (a, n) :: mergeRuns b m r

/-- Maximal contiguous runs of some ranges (R292). -/
def runsCovered (rs : List (Nat × Nat)) : List (Nat × Nat) :=
  match sortBy (fun x y => x.1 ≤ y.1) rs with
  | [] => []
  | (a, n) :: r => mergeRuns a n r

/-- The lines that some ranges touch, each once. -/
def linesCovered (rs : List (Nat × Nat)) : List Nat :=
  (rs.flatMap fun r => linesOf r.1 r.2).foldl insertNat []

/-! ### Issue -/

/-- Put a copy in flight with its DEST entries and its clear lines on every team that it writes (R190, R292);
a command with nothing to land completes at once (R192). -/
def Env.startCopy (e : Env) (s : State) (c : CopyOp) (runs : List (Nat × Nat)) : State :=
  if c.todo.isEmpty then s.decrement e.l.ctx c.counter
  else
    let k := s.nextFlight
    let s1 := c.targets.foldl (fun m t =>
      match m.team? t with
      | none => m
      | some tm => runs.foldl (fun m r => m.clearLines t r.1 r.2)
          (m.takeLocks tm.cu (runs.map fun r => lockOf .dest k t r.1 r.2))) s
    e.fly s1 (.copy c)

/-- The lanes of a CPY: lane, source address, destination (R191). -/
def Env.cpyLanes (e : Env) (d o : BitVec 7) (b : BitVec 3) : List (Nat × Int × Nat) :=
  (e.takers .lane).map fun p => (p.1, e.ea b (regsNat (e.words (.code o 1) p.2)), e.val d 1 p.2)

/-- Bytes of a CPY size (R191). -/
def copyBytes : CopySize → Nat
  | .four => 4
  | .eight => 8
  | .sixteen => 16

/-- The destination runs of a CPY (R191, R292). -/
def Env.cpyRuns (e : Env) (d o : BitVec 7) (b : BitVec 3) (z : CopySize) : List (Nat × Nat) :=
  runsCovered ((e.cpyLanes d o b).map fun x => (x.2.2, copyBytes z))

/-- CPY (R191). Of two lanes that name the same destination byte the higher one's copy remains (log 118). -/
def execCpy (d o : BitVec 7) (b : BitVec 3) (l : BitVec 4) (z : CopySize) (s : State) : Host.Outcome State Fault Refusal :=
  let n := copyBytes z
  runWord s (.cpy d o b l z)
    (fun e _ =>
      let xs := e.cpyLanes d o b
      let sm := (e.sampled e.s (xs.map (·.2.1))).1
      xs.flatMap fun x => rangeConds sm x.1 n n x.2.1 ++ e.scrConds n n false [(x.1, (x.2.2 : Int))])
    fun e s1 =>
      let xs := e.cpyLanes d o b
      let (sm, s2) := e.sampled s1 (xs.map (·.2.1))
      match s2.markedEntry e.l.ctx sm with
      | some a => .freezes a
      | none =>
        let ps := xs.filterMap fun x => ((goodVA x.2.1).bind sm.ref).map fun r => { ref := r, scr := x.2.2, len := n : Piece }
        let runs := e.cpyRuns d o b z
        .go (e.startCopy s2
          { kind := .cpy, pieces := ps, rows := none, targets := [e.team.id],
            todo := (linesCovered runs).map fun k => (e.team.id, k), counter := e.h.counter, buf := [] } runs)

/-- Length and offset of the operands of CPYM and CPYO (R192, R193): a field outside its limits. -/
def badLen (v : Nat) : Bool := field v 20 12 != 0 || field v 32 32 % 16 != 0 || field v 32 32 < 16 || 2 ^ 20 < field v 32 32

/-- A length clamped to its limits, so that an address range is judged within them. -/
def goodLen (v : Nat) : Nat := max 1 (min (field v 32 32) (2 ^ 20))

/-- Conditions of a scratchpad range of a command (R165). -/
def Env.rangeIn (e : Env) (take : List Nat) (off size align : Nat) : List Cond :=
  condIf (off % align != 0) 0x11 (e.low take) ++ condIf (e.team.scr < off + size) 0x12 (e.low take)

/-- The teams that a multicast writes (R2, R192). -/
def Env.castTeams (e : Env) (masks : Nat) : List Team :=
  e.s.teams.filter fun t => t.launch == e.l.id && t.cu / 64 == e.iss.cu / 64 &&
    bitOf masks (t.cu / 8 % 8) && bitOf masks (8 + t.cu % 8)

/-- CPYM (R192). -/
def execCpym (a b c : BitVec 6) (l : BitVec 4) (s : State) : Host.Outcome State Fault Refusal :=
  runWord s (.cpym a b c l)
    (fun e take =>
      let vb := e.sv b.toNat
      rangeConds (e.sampled e.s [(e.sv a.toNat : Int)]).1 (e.low take) 16 (goodLen vb) (e.sv a.toNat) ++
      e.rangeIn take (field vb 0 20) (field vb 32 32) 16 ++
      condIf (badLen vb || field (e.sv c.toNat) 16 48 != 0) 0x17 (e.low take))
    fun e s1 =>
      let vb := e.sv b.toNat
      let dst := field vb 0 20
      let n := field vb 32 32
      let (sm, s2) := e.sampled s1 [(e.sv a.toNat : Int)]
      match s2.markedEntry e.l.ctx sm with
      | some a => .freezes a
      | none =>
        let ts := (e.castTeams (e.sv c.toNat)).map (·.id)
        .go (e.startCopy s2
          { kind := .cpym, pieces := [⟨(sm.ref (e.sv a.toNat)).getD (.mem 0), dst, n⟩], rows := none, targets := ts,
            todo := ts.flatMap fun t => (linesOf dst n).map fun k => (t, k), counter := e.h.counter, buf := [] } [(dst, n)])

/-- CPYO (R193): its source is locked until its last byte is read. -/
def execCpyo (a b : BitVec 6) (l : BitVec 4) (s : State) : Host.Outcome State Fault Refusal :=
  runWord s (.cpyo a b l)
    (fun e take =>
      let va := e.sv a.toNat
      let vb := e.sv b.toNat
      let last := va + goodLen vb - 1
      condIf (!canonical va || isView va || !canonical last || isView last) 0x10 (e.low take) ++
      condIf (va % 16 != 0) 0x11 (e.low take) ++ e.rangeIn take (field vb 0 20) (field vb 32 32) 16 ++
      condIf (badLen vb) 0x17 (e.low take))
    fun e s1 =>
      let vb := e.sv b.toNat
      let src := field vb 0 20
      let n := field vb 32 32
      .go (e.fly (s1.takeLocks e.iss.cu [lockOf .src s1.nextFlight e.team.id src n])
        (.copy { kind := .cpyo, pieces := [⟨.mem (e.sv a.toNat), src, n⟩], rows := none, targets := [e.team.id],
                 todo := (linesOf src n).map fun k => (e.team.id, k), counter := e.h.counter, buf := [] }))

/-- The operands of CPYRW (R194). -/
def rowCopyOf (vb vc : Nat) (base : MemRef) : RowCopy :=
  { rows := field vb 40 17, man := field vb 0 20, dst := field vb 20 20, kmax := field vc 48 16, rowlen := field vc 32 16,
    stride := field vc 0 32, base := base }

/-- An operand of CPYRW lies outside its limits, or its manifest overlaps its destination (R194, R294). -/
def RowCopy.badField (r : RowCopy) (vb : Nat) : Bool :=
  field vb 57 7 != 0 || r.rows == 0 || 65536 < r.rows || r.kmax == 0 || r.rowlen < 16 || r.rowlen % 16 != 0 ||
  r.stride % 16 != 0 || overlap r.man (manMS r.rows) r.dst (r.kmax * r.rowlen)

/-- CPYRW (R194). -/
def execCpyrw (a b c : BitVec 6) (l : BitVec 4) (s : State) : Host.Outcome State Fault Refusal :=
  let op := fun (e : Env) (base : MemRef) => rowCopyOf (e.sv b.toNat) (e.sv c.toNat) base
  runWord s (.cpyrw a b c l)
    (fun e take =>
      let r := op e (.mem 0)
      let va := e.sv a.toNat
      let sm := (e.sampled e.s [(va : Int)]).1
      condIf (!canonical va) 0x10 (e.low take) ++ condIf (canonical va && (sm.ref va).isNone && !sm.marked.contains (viewNum va)) 0x14 (e.low take) ++
      condIf (e.team.scr < r.dst + r.kmax * r.rowlen || e.team.scr < r.man + manMS r.rows) 0x12 (e.low take) ++
      condIf (r.badField (e.sv b.toNat)) 0x17 (e.low take))
    fun e s1 =>
      let (sm, s2) := e.sampled s1 [(e.sv a.toNat : Int)]
      match s2.markedEntry e.l.ctx sm with
      | some a => .freezes a
      | none =>
        let r := op e ((sm.ref (e.sv a.toNat)).getD (.mem 0))
        .go (e.startCopy s2
          { kind := .cpyrw, pieces := [], rows := some r, targets := [e.team.id],
            todo := (linesOf r.dst (r.kmax * r.rowlen)).map fun k => (e.team.id, k), counter := e.h.counter, buf := [] }
          [(r.dst, r.kmax * r.rowlen)])

/-- CSIG (R195): earlier accesses are performed; the counter goes down by the amount. -/
def execCsig (a b : BitVec 6) (l : BitVec 4) (s : State) : Host.Outcome State Fault Refusal :=
  runWord s (.csig a b l) (fun e take => condIf (field (e.sv a.toNat) 15 49 != 0) 0x17 (e.low take)) fun e s1 =>
    .go (s1.changeCounter e.l.ctx (field (e.sv a.toNat) 0 12) fun v => v - BitVec.ofNat 32 (e.sv b.toNat))

/-! ### Landing -/

/-- The part of a piece that lies in a line. -/
def Piece.inLine (p : Piece) (line : Nat) : Option Piece :=
  let lo := max p.scr (128 * line)
  let hi := min (p.scr + p.len) (128 * line + 128)
  if lo < hi then some ⟨p.ref.add (lo - p.scr), lo, hi - lo⟩ else none

/-- A run of memory that fails the conditions of R457 by its address. -/
def Piece.badAddr (p : Piece) : Option Nat :=
  match p.ref with
  | .mem va => if canonical va && !isView va && canonical (va + p.len - 1) && !isView (va + p.len - 1) then none else some va
  | .view _ _ _ => none

/-- Read the runs of a line (R188, R457). -/
def State.readPieces (s : State) (cu : Nat) (l : Launch) (via : Via) (ps : List Piece) : EngRead :=
  ps.foldl (fun m p => m.append (match p.badAddr with
    | some va => .late va
    | none => s.engineRead cu l via p.ref p.len)) (.ok [])

/-- Cut the bytes of a line into its runs. -/
def cutRuns : List Piece → MarkedBytes → List (Nat × MarkedBytes)
  | [], _ => []
  | p :: ps, bs => (p.scr, bs.take p.len) :: cutRuns ps (bs.drop p.len)

/-- The rows that a manifest in scratchpad lists (R194, R220): none for a manifest error. -/
def RowCopy.list (r : RowCopy) (bs : List Byte) : Option (List Nat) :=
  let c := numAt bs (manMB r.rows + manIL r.rows) 4
  let idx := (List.range (min c (r.kmax + 1))).map fun m => numAt bs (manMB r.rows + 2 * m) 2
  if r.kmax < c || r.rows < c || idx.any (r.rows ≤ ·) || !(idx.zip idx.tail).all fun p => p.1 < p.2 then none else some idx

/-- The runs that a list of rows gives (R194). -/
def RowCopy.pieces (r : RowCopy) (idx : List Nat) : List Piece :=
  idx.zipIdx.map fun j => ⟨r.base.add (j.1 * r.stride), r.dst + j.2 * r.rowlen, r.rowlen⟩

/-- The command with its runs known (R194): itself; or, once the manifest of a CPYRW is present, its rows; none
while it waits; an address for a manifest error. -/
def State.opened (s : State) (f : Flight) (c : CopyOp) : Option (Except Nat CopyOp) :=
  match c.rows with
  | none => some (.ok c)
  | some r =>
    if (linesOf r.man (manMS r.rows)).any fun n => s.flights.any fun g => g.id != f.id && g.pendingLines.contains (f.team, n) then none
    else
      match r.list (s.scrRead f.team r.man (manMS r.rows)).1 with
      | none => some (.error r.man)
      | some idx => some (.ok { c with rows := none, pieces := r.pieces idx })

/-- Bytes of the command are still to land in a line of a team. -/
def CopyOp.owes (c : CopyOp) (team : Nat) : Bool :=
  c.todo.any fun x => x.1 == team && c.pieces.any fun p => (p.inLine x.2).isSome

/-- Change the command of a flight. -/
def State.setCopy (s : State) (k : Nat) (c : CopyOp) : State := s.updFlight k fun f => { f with op := .copy c }

/-- Land what was read for a line of a team (R190). -/
def State.land (s : State) (f : Flight) (c : CopyOp) (team line : Nat) (ps : List Piece) (bs : MarkedBytes) : State :=
  let todo := c.todo.filter (· != (team, line))
  let c1 := { c with todo := todo,
                     buf := if c.kind = .cpym && todo.any (·.2 == line) then insertKey c.buf line bs else c.buf.filter (·.1 != line) }
  let s1 := ((s.engineWrite f.id team (cutRuns ps bs)).setCopy f.id c1).setPresent team [line]
  if c1.owes team then s1 else s1.dropLocks f.id fun k => k.team == team

/-- A lighter command is in flight (R188). -/
def FlightOp.isCopy : FlightOp → Bool
  | .copy _ => true
  | _ => false

/-- An earlier command of the same lighter that is stalled writes into the destination of this one (R399). -/
def State.behindStalled (s : State) (f : Flight) : Bool :=
  s.flights.any fun g => g.id < f.id && g.cu == f.cu && g.fault.isSome && g.op.isCopy &&
    s.cus.any fun c => c.locks.any fun k => k.kind == .dest && k.owner == f.id &&
      c.locks.any fun j => j.kind == .dest && j.owner == g.id && j.team == k.team && overlap j.lo j.len k.lo k.len

/-- A line of a copy into scratchpad lands (R190, R192, R194), its data taken as `via` says (R440). None while it
cannot land. -/
def State.landLine (s : State) (f : Flight) (l : Launch) (c : CopyOp) (via : Via) (team line : Nat) : Option Eng :=
  if !c.todo.contains (team, line) || s.behindStalled f then none
  else
    match s.opened f c with
    | none => none
    | some (.error a) => some (.late a)
    | some (.ok c) =>
      let whole := c.pieces.filter fun p => (p.inLine line).isSome
      let ps := whole.filterMap (·.inLine line)
      if ps.isEmpty then some (.go (s.setCopy f.id c))
      else if ps.any fun p => s.landingHeld f.id team p.scr p.len then none
      else
        match lookupKey c.buf line with
        | some bs => some (.go (s.land f c team line ps bs))
        | none =>
          match whole.findSome? Piece.badAddr with
          | some va => some (.late va)
          | none => some ((s.readPieces f.cu l via ps).bind 1 (team, line) fun bs => .go (s.land f c team line ps bs))

/-! ### CPYO -/

/-- Write bytes with marks to physical memory, sector by sector (R433). -/
def State.storeMarked (s : State) (p : PAddr) (bs : MarkedBytes) : State :=
  (runsOf 32 p.addr bs.length).foldl (fun m r =>
    let part := (bs.drop (r.1 - p.addr)).take r.2
    m.storePhys ⟨p.space, r.1⟩ (part.map (·.1)) (part.any (·.2))) s

/-- Write bytes to virtual memory for a unit (R188, R193): every page translates first. -/
def State.writeMarked (s : State) (unit ctx va : Nat) (bs : MarkedBytes) (agent : Nat) : Eng :=
  let runs := runsOf 4096 va bs.length
  match runs.findSome? fun r => match s.translate unit ctx r.1 .write with
    | .ok _ => none
    | .fault k => some (Eng.stall k r.1 .write false agent)
    | .poison => some (Eng.freezes r.1) with
  | some e => e
  | none => .go (runs.foldl (fun m r => match s.translate unit ctx r.1 .write with
      | .ok p => m.storeMarked p ((bs.drop (r.1 - va)).take r.2)
      | _ => m) s)

/-- Bytes of a team's scratchpad with their marks. -/
def State.scrMarked (s : State) (team off n : Nat) : MarkedBytes :=
  match s.team? team with
  | none => []
  | some t => (t.mem.read off n).zipIdx.map fun b => (b.1, marked t.bad (off + b.2) 1)

/-- Source lines that CPYO has neither read nor written out. -/
def CopyOp.unread (c : CopyOp) : List (Nat × Nat) := c.todo.filter fun x => (lookupKey c.buf x.2).isNone

/-- A ready source line of CPYO is written out (R193); its SRC entry goes with the last byte read (R190). -/
def State.outLine (s : State) (f : Flight) (c : CopyOp) (team line : Nat) : Option Eng :=
  if !c.todo.contains (team, line) then none
  else
    match c.pieces.findSome? fun p => p.inLine line with
    | none => none
    | some p =>
      let src := match lookupKey c.buf line with
        | some bs => some bs
        | none => if s.linesReady f.id team (128 * line) 128 .src then some (s.scrMarked team p.scr p.len) else none
      match src, p.ref with
      | some bs, .mem va =>
        (match s.writeMarked f.cu f.ctx va bs 1 with
         | .go t =>
           let c1 := { c with todo := c.todo.filter (· != (team, line)), buf := c.buf.filter (·.1 != line) }
           let t1 := t.setCopy f.id c1
           some (.go (if c1.unread.isEmpty then t1.dropLocks f.id fun _ => true else t1))
         | e => some e)
      | _, _ => none

/-- The last source read of CPYO (R190, R193): every line that is left is read, and its SRC entry goes. -/
def State.drainSource (s : State) (f : Flight) (c : CopyOp) : Option Eng :=
  if c.kind != .cpyo || c.unread.isEmpty then none
  else if !(c.unread.all fun x => s.linesReady f.id x.1 (128 * x.2) 128 .src) then none
  else
    let got := c.unread.filterMap fun x => (c.pieces.findSome? fun p => p.inLine x.2).map fun p => (x.2, s.scrMarked x.1 p.scr p.len)
    some (.go ((s.setCopy f.id { c with buf := c.buf ++ got }).dropLocks f.id fun _ => true))

/-! ### The events -/

/-- LINE_LANDS (R190, R193). -/
def execLineLands (k team line : Nat) (s : State) : Host.Outcome State Fault Refusal :=
  runFlight s k fun f =>
    match f.op, s.launch? f.launch with
    | .copy c, some l => if c.kind = .cpyo then s.outLine f c team line else s.landLine f l c .home team line
    | _, _ => none

/-- The end of a command (R189, R190, R194): lines that it kept absent without writing them set, its entries go,
its counter is decremented. -/
def State.endCopy (s : State) (f : Flight) (c : CopyOp) : State :=
  let s1 := (s.dropLocks f.id fun _ => true).dropFlight f.id
  (c.todo.foldl (fun m x => m.setPresent x.1 [x.2]) s1).decrement f.ctx c.counter

/-- COPY_COMMAND_COMPLETE (R189). -/
def execCopyCommandComplete (k : Nat) (s : State) : Host.Outcome State Fault Refusal :=
  runFlight s k fun f =>
    match f.op with
    | .copy c =>
      (match s.opened f c with
       | none => none
       | some (.error a) => some (.late a)
       | some (.ok c) => if (c.todo.map (·.1)).any c.owes then none else some (.go (s.endCopy f c)))
    | _ => none

end Sys2Proof.Machine
end

