-- ==== Sys2Proof/Machine/Graph.lean ====
section
/-!
DEFINITION. Queues and task graphs: what the harbourmaster reads (R385, R386), the walk of a queue through its
graph (R387), parking (R384), node statuses (R386, R428), and the nodes that need nothing but memory and
counters (R387). Preservation of pages and SNAPSHOT nodes (R443, R446).
-/
namespace Sys2Proof.Machine

/-! ### Reads of the harbourmaster -/

/-- Why the harbourmaster does not go on with a node. -/
inductive HmStop where
  | fault (cause va : Nat) (acc : Access)
  /-- What it reads is marked (R434). -/
  | marked (va : Nat)
  /-- A page-table entry is marked (R434). -/
  | table (va : Nat)
  /-- The record or the node is refused with this STATUS (R374, R386). -/
  | refuse (status : Nat)
  deriving DecidableEq, Repr

/-- Read memory of a context with its marks (R386). -/
def State.hmMarked (s : State) (ctx va n : Nat) : Except HmStop MarkedBytes :=
  match (runsOf 4096 va n).foldl (fun (m : EngRead) r => m.append (s.readPage 256 ctx r.1 r.2)) (EngRead.ok []) with
  | .ok bs => .ok bs
  | .stall k a _ _ => .error (.fault k a .read)
  | .late a => .error (.table a)
  | .consume a => .error (.marked a)
  | .freezes a => .error (.table a)
  | .hash a => .error (.marked a)

/-- Read memory of a context (R386, R434). -/
def State.hmRead (s : State) (ctx va n : Nat) : Except HmStop (List Byte) :=
  match s.hmMarked ctx va n with
  | .ok bs => if bs.any (·.2) then .error (.marked va) else .ok (bs.map (·.1))
  | .error e => .error e

/-- An address that may be translated (R374, R386, R393). -/
def plainVA (a : Nat) : Bool := canonical a && !isView a

/-! ### Queues -/

/-- A queue of a context that lives. -/
def State.queue? (s : State) (ctx q : Nat) : Option (Ctx × Queue) := (s.ctx? ctx).bind fun c => (c.queues[q]?).map fun x => (c, x)

/-- Change a queue. -/
def State.updQueue (s : State) (ctx q : Nat) (f : Queue → Queue) : State :=
  s.updCtx ctx fun c => { c with queues := c.queues.mapIdx fun i x => if i = q then f x else x }

/-- Change the walk of a queue. -/
def State.updWalk (s : State) (ctx q : Nat) (f : Walk → Walk) : State :=
  s.updQueue ctx q fun x => { x with walk := x.walk.map f }

/-- An entry of the queue table; none where it fails its checks (R385). -/
def queueEntryOf (bs : List Byte) : Option QEntry :=
  let size := numAt bs 8 4
  let ok := size != 0 && size ≤ 2 ^ 20 && 2 ^ Nat.log2 size == size && numAt bs 12 1 ≤ 7 && numAt bs 13 1 ≤ 1 &&
    numAt bs 0 8 % 64 == 0 && (bs.drop 14).all (· == 0)
  if ok then some { addr := numAt bs 0 8, size := size, prio := numAt bs 12 1, enabled := numAt bs 13 1 == 1 } else none

/-- Read entry q of a queue table (R385): its bytes and their mark. -/
def State.readQueueEntry (s : State) (qtbase q : Nat) : List Byte × Bool := s.loadPhys ⟨.dram, qtbase + 32 * q⟩ 32

/-- A record about a queue (R429). -/
def State.queueRec (s : State) (q cls source action node stat2 : Nat) : ErrRec :=
  { ErrRec.of s cls source action with queue := some q, node := node, stat2 := stat2 }

/-- A queue parks with a status (R384, R385, R386): one record of class 5; none in a frozen context (R428). -/
def State.parkQueue (s : State) (ctx q node st : Nat) : State :=
  if (s.ctx? ctx).any (·.frozen) then s
  else (s.updQueue ctx q fun x => { x with parked := true }).report (some ctx) (s.queueRec q 5 0x11 6 node st)

/-- A queue parks because what the harbourmaster read of it was marked (R434). -/
def State.parkMarked (s : State) (ctx q node va : Nat) : State :=
  (s.updQueue ctx q fun x => { x with parked := true }).report (some ctx)
    { s.queueRec q 2 0x0C 6 node 0 with addr := va }

/-- A marked page table freezes the context (R434). -/
def State.freezeTable (s : State) (ctx q node va : Nat) : State :=
  s.freeze ctx { s.queueRec q 3 0x16 7 node 0 with addr := va }

/-- A status that waits to be written. -/
def State.owe (s : State) (ctx q node st : Nat) : State := s.updQueue ctx q fun x => { x with owed := x.owed ++ [(node, st)] }

/-- Write a node's STATUS (R386): a write that faults stalls the queue and waits for the host, with those that follow; in
a frozen context it is dropped (R428). -/
def State.setStatus (s : State) (ctx q node st : Nat) : State :=
  if (s.ctx? ctx).any (·.frozen) then s
  else if (s.queue? ctx q).any fun x => !x.2.owed.isEmpty then s.owe ctx q node st
  else match s.writeVirt ctx (node + 4) (leBytes 4 st) with
    | .ok t => t
    | .error k =>
      if k = 0 then s.freezeTable ctx q node (node + 4)
      else (s.owe ctx q node st).stallQueue ctx q .status k (node + 4) .write

/-! ### The walk (R387) -/

/-- Go to a successor: 0 returns to the WHILE node around, or ends the graph. -/
def Walk.goto (w : Walk) (next : Nat) : Walk :=
  { w with node := if next = 0 then w.stack.headD 0 else next, phase := .fresh, next := 0, waiting := none, released := false }

/-- A node of a queue has made progress: the harbourmaster watchdog starts again (R447). -/
def State.progress (s : State) (ctx q : Nat) : State := { s with hmExpired := s.hmExpired.filter (· != .queue ctx q) }

/-- The graph of a queue has ended and every node has completed: HEAD advances (R385, R387). -/
def State.endGraph (s : State) (ctx q : Nat) : State :=
  match s.queue? ctx q with
  | none => s
  | some (c, x) =>
    if c.frozen || x.parked || !x.owed.isEmpty || !(x.walk.any fun w => w.node == 0 && w.asyncs.isEmpty) then s
    else
      let head := s.dram.num x.entry.addr 8
      (s.storePhys ⟨.dram, x.entry.addr⟩ (leBytes 8 (head + 1)) false).updQueue ctx q fun x => { x with walk := none }

/-- A node of a walk takes its leave of the walk that its queue stands in: that walk, where it is the node's own, goes on where
it stood at the node, else the node is no longer outstanding. -/
def Walk.leave (w : Walk) (run node : Nat) (isAsync : Bool) : Walk :=
  if w.run != run then w
  else if isAsync then { w with asyncs := w.asyncs.erase node }
  else if w.node = node ∧ w.phase = .running then w.goto w.next else w

/-- A node of walk `run` that has started completes (R387). -/
def State.completeNode (s : State) (ctx q run node : Nat) (isAsync : Bool) (st : Nat) : State :=
  (((s.progress ctx q).setStatus ctx q node st).updWalk ctx q (·.leave run node isAsync)).endGraph ctx q

/-- A node of walk `run` that has started ends with a status that parks its queue (R384). -/
def State.failNode (s : State) (ctx q run node : Nat) (isAsync : Bool) (st : Nat) : State :=
  (((s.progress ctx q).setStatus ctx q node st).updWalk ctx q (·.leave run node isAsync)).parkQueue ctx q node st

/-- A node that the walk stands at completes at once and goes on at `next` (R387). -/
def State.passNode (s : State) (ctx q node next : Nat) : State :=
  (((s.progress ctx q).setStatus ctx q node 1).updWalk ctx q (·.goto next)).endGraph ctx q

/-- A node that the walk stands at is a graph error (R386): the walk stays at it. -/
def State.rejectNode (s : State) (ctx q node : Nat) : State := (s.setStatus ctx q node 13).parkQueue ctx q node 13

/-- The node that the walk stands at starts and runs on by itself (R387); no STATUS is written as it starts (log 129). -/
def State.startNode (s : State) (ctx q node next : Nat) (isAsync : Bool) : State :=
  s.updWalk ctx q fun w => if isAsync then { w with asyncs := node :: w.asyncs }.goto next else { w with phase := .running, next := next }

/-- The harbourmaster cannot go on with the node that the walk stands at and that has started (R386, R399, R434); `next` is where the
walk stands once the queue has parked with it. A frozen context gives it STATUS 14 (R428). -/
def State.stopNode (s : State) (ctx q node next : Nat) (e : HmStop) : State :=
  let reading := s.updWalk ctx q fun w => { w with phase := .reading, next := next }
  match e with
  | .fault k va acc => reading.stallQueue ctx q .node k va acc
  | .marked va => ((s.setStatus ctx q node 9).updWalk ctx q (·.goto next)).parkMarked ctx q node va
  | .table va => reading.freezeTable ctx q node va
  | .refuse st => ((s.setStatus ctx q node st).updWalk ctx q (·.goto next)).parkQueue ctx q node st

/-! ### Nodes (R386) -/

/-- Body bytes that a kind uses. -/
def nodeBody (kind : Nat) : List (Nat × Nat) :=
  if kind = 1 then [(16, 24)] else if kind = 2 then [(16, 42)] else if kind = 3 then [(16, 50)]
  else if kind = 4 ∨ kind = 5 then [(16, 29), (32, 40)] else if kind = 6 then [(16, 19), (20, 24)]
  else if kind = 7 then [(16, 18)] else if kind = 8 then [(16, 29)] else []

/-- Offsets of the addresses in a node of a kind. -/
def nodeAddrs (kind : Nat) : List Nat :=
  8 :: (if kind = 1 ∨ kind = 8 then [16] else if kind = 2 then [16, 24] else if kind = 4 ∨ kind = 5 then [16, 32] else [])

/-- A range of addresses all of which may be translated (R243, R386, R393). -/
def plainRange (a n : Nat) : Bool := plainVA a && plainVA (a + max n 1 - 1) && n ≤ 2 ^ 56

/-- The values of a node's body lie within their limits. -/
def nodeLimits (kind : Nat) (r : List Byte) : Bool :=
  if kind = 2 then
    let n := numAt r 32 8
    numAt r 16 8 % 16 == 0 && numAt r 24 8 % 16 == 0 && n % 16 == 0 && n != 0 &&
      plainRange (numAt r 16 8) n && plainRange (numAt r 24 8) n
  else if kind = 4 ∨ kind = 5 then numAt r 16 8 % 4 == 0 && numAt r 28 1 ≤ 9
  else if kind = 6 then numAt r 18 1 ≤ 1
  else if kind = 7 then numAt r 16 2 < 4096
  else if kind = 8 then numAt r 28 1 ≤ 2 && numAt r 16 8 % 8 == 0
  else true

/-- A node keeps the limits of R386. -/
def nodeOk (r : List Byte) : Bool :=
  let kind := numAt r 0 1
  1 ≤ kind && kind ≤ 8 && numAt r 1 1 ≤ 1 && (numAt r 1 1 == 0 || kind ≤ 3) && numAt r 2 2 == 0 &&
  (r.zipIdx.all fun b => b.2 < 16 || b.1 == 0 || (nodeBody kind).any fun u => u.1 ≤ b.2 && b.2 < u.2) &&
  ((nodeAddrs kind).all fun o => plainVA (numAt r o 8)) && nodeLimits kind r

/-- A queue whose walk can start the node that it stands at: it neither is parked nor stalls, and its context is not
frozen. -/
def State.standing (s : State) (ctx q : Nat) : Option (Ctx × Queue × Walk) :=
  match s.queue? ctx q with
  | none => none
  | some (c, x) =>
    if c.frozen || x.parked || x.fault.isSome || !x.owed.isEmpty then none
    else x.walk.bind fun w => if w.node != 0 && w.phase != .running then some (c, x, w) else none

/-- An address at which a node can stand (R386). -/
def nodeAddrOk (a : Nat) : Bool := plainVA a && a % 64 == 0

/-- The harbourmaster reaches a node of a kind (R386): it reads it, and acts where the node is well formed. A node that has started,
and is read again after a stall, receives STATUS 9 where it is marked then (R434). -/
def nodeEvent (s : State) (ctx q kind : Nat) (act : Walk → List Byte → State) : Host.Outcome State Fault Refusal :=
  match s.standing ctx q with
  | none => .next s
  | some (_, _, w) =>
    if !nodeAddrOk w.node then .next s
    else match s.hmRead ctx w.node 64 with
      | .error (.fault k va acc) => .next (s.stallQueue ctx q .node k va acc)
      | .error (.marked va) =>
        .next (if w.phase = .reading then s.stopNode ctx q w.node w.next (.marked va) else s.parkMarked ctx q w.node va)
      | .error (.table va) => .next (s.freezeTable ctx q w.node va)
      | .error (.refuse _) => .next s
      | .ok r => if numAt r 0 1 = kind && nodeOk r then .next (act w r) else .next s

/-- MALFORMED_NODE (R386): STATUS 13 where the bytes of STATUS have an address, also where the node is not 64-aligned, and the
queue parks. -/
def execMalformedNode (ctx queue : Nat) (s : State) : Host.Outcome State Fault Refusal :=
  match s.standing ctx queue with
  | none => .next s
  | some (_, _, w) =>
    if !(plainVA w.node && plainVA (w.node + 7)) then .next (s.parkQueue ctx queue w.node 13)
    else if !nodeAddrOk w.node then .next (s.rejectNode ctx queue w.node)
    else match s.hmRead ctx w.node 64 with
      | .ok r => if nodeOk r then .next s else .next (s.rejectNode ctx queue w.node)
      | .error _ => .next s

/-- Fields of every node. -/
def nodeNext (r : List Byte) : Nat := numAt r 8 8
def nodeAsync (r : List Byte) : Bool := numAt r 1 1 == 1

/-! ### QUEUE_SUBMIT (R385) -/

/-- Start the graph of the entry at HEAD (R385); one of 0 ends at once (log 139). -/
def State.startGraph (s : State) (ctx q : Nat) (e : QEntry) (head : Nat) : State :=
  let p : PAddr := ⟨.dram, e.addr + 64 + 8 * (head % e.size)⟩
  let r := s.loadPhys p 8
  if r.2 then s.parkMarked ctx q 0 p.addr
  else
    let run := ((s.queue? ctx q).map (·.2.nextRun)).getD 0
    let w : Walk := { run := run, node := leNat r.1, phase := .fresh, next := 0, stack := [], asyncs := [], waiting := none, released := false }
    (s.updQueue ctx q fun x => { x with walk := some w, nextRun := run + 1 }).endGraph ctx q

/-- QUEUE_SUBMIT (R385): a write of TAIL wakes the harbourmaster, which reads the table entry again, and starts the
next graph where none runs. Queue memory with a nonzero reserved byte parks the queue as an entry that fails does (R16, log 109). -/
def execQueueSubmit (ctx queue : Nat) (s : State) : Host.Outcome State Fault Refusal :=
  match s.queue? ctx queue with
  | none => .next s
  | some (c, x) =>
    if c.frozen || x.parked || x.fault.isSome || !x.owed.isEmpty then .next s
    else
      let r := s.readQueueEntry c.desc.qtbase queue
      if r.2 then .next (s.parkMarked ctx queue 0 (c.desc.qtbase + 32 * queue))
      else match queueEntryOf r.1 with
        | none => .next (s.parkQueue ctx queue 0 13)
        | some e =>
          let s1 := s.updQueue ctx queue fun x => { x with entry := e }
          let head := s.dram.num e.addr 8
          let used := s.queueUsed e.addr
          let reserved := ((s.loadPhys ⟨.dram, e.addr⟩ 64).1.drop 16).any (· != 0)
          if e.enabled && (e.size < used || reserved) then .next (s1.parkQueue ctx queue 0 13)
          else if e.enabled && used != 0 && x.walk.isNone then .next (s1.startGraph ctx queue e head)
          else .next s1

/-! ### COPY, COND, WHILE, SIGNAL and WAIT (R387) -/

/-- Write memory of a context with marks: every page translates first. -/
def State.hmWrite (s : State) (ctx va : Nat) (bs : MarkedBytes) : Except HmStop State :=
  match s.writeMarked 256 ctx va bs 5 with
  | .go t => .ok t
  | .stall k a acc _ _ => .error (.fault k a acc)
  | .late a => .error (.table a)
  | .consume a => .error (.marked a)
  | .freezes a => .error (.table a)
  | .hash _ va => .error (.marked va)

/-- Copy bytes between memory addresses of a context, with their marks (R193, R387, R433). -/
def State.copyBytes (s : State) (ctx src dst n : Nat) : Except HmStop State :=
  match s.hmMarked ctx src n with
  | .ok bs => s.hmWrite ctx dst bs
  | .error e => .error e

/-- COPY_NODE (R387). -/
def execCopyNode (ctx queue : Nat) (s : State) : Host.Outcome State Fault Refusal :=
  nodeEvent s ctx queue 2 fun w r =>
    match s.copyBytes ctx (numAt r 16 8) (numAt r 24 8) (numAt r 32 8) with
    | .error e => s.stopNode ctx queue w.node w.node e
    | .ok t => (t.decrement ctx (doneCounter (numAt r 40 2))).passNode ctx queue w.node (nodeNext r)

/-- Condition codes of COND and WHILE (R90, R386). -/
def nodeCond (code word value : Nat) : Bool := (ICmp.ofCode code).any fun c => icmpHolds c 32 word value

/-- COND and WHILE read their word (R387). -/
def State.nodeWord (s : State) (ctx q : Nat) (w : Walk) (r : List Byte) (act : Bool → State) : State :=
  match s.hmRead ctx (numAt r 16 8) 4 with
  | .error e => s.stopNode ctx q w.node w.node e
  | .ok bs => act (nodeCond (numAt r 28 1) (leNat bs) (numAt r 24 4))

/-- COND_NODE (R387). -/
def execCondNode (ctx queue : Nat) (s : State) : Host.Outcome State Fault Refusal :=
  nodeEvent s ctx queue 4 fun w r => s.nodeWord ctx queue w r fun c =>
    s.passNode ctx queue w.node (if c then numAt r 32 8 else nodeNext r)

/-- WHILE_NODE (R387): a ninth nesting is a graph error. Each visit gives it STATUS 1, and a TARGET of 0 returns to the node itself
(log 129). -/
def execWhileNode (ctx queue : Nat) (s : State) : Host.Outcome State Fault Refusal :=
  nodeEvent s ctx queue 5 fun w r => s.nodeWord ctx queue w r fun c =>
    let inside := w.stack.head? == some w.node
    if c && !inside && 8 ≤ w.stack.length then s.rejectNode ctx queue w.node
    else
      let stack := if inside then (if c then w.stack else w.stack.drop 1) else (if c then w.node :: w.stack else w.stack)
      (s.updWalk ctx queue fun w => { w with stack := stack }).passNode ctx queue w.node (if c then numAt r 32 8 else nodeNext r)

/-- SIGNAL nodes: the counter changes where VALID = 1. -/
def signalNode (s : State) (ctx queue op : Nat) : Host.Outcome State Fault Refusal :=
  nodeEvent s ctx queue 6 fun w r =>
    if numAt r 18 1 != op then s
    else
      let v := BitVec.ofNat 32 (numAt r 20 4)
      let s1 := match doneCounter (numAt r 16 2) with
        | none => s
        | some (i, _) => s.changeCounter ctx i fun old => if op = 0 then old - v else v
      s1.passNode ctx queue w.node (nodeNext r)

/-- SIGNAL_SUBTRACT (R195, R387). -/
def execSignalSubtract (ctx queue : Nat) (s : State) : Host.Outcome State Fault Refusal := signalNode s ctx queue 0

/-- SIGNAL_SET (R387). -/
def execSignalSet (ctx queue : Nat) (s : State) : Host.Outcome State Fault Refusal := signalNode s ctx queue 1

/-- WAIT_NODE (R300, R387): it starts to wait, and completes once the counter has been at or below zero. A started
WAIT goes on in a parked queue (R384). -/
def execWaitNode (ctx queue : Nat) (s : State) : Host.Outcome State Fault Refusal :=
  match s.queue? ctx queue with
  | none => .next s
  | some (c, x) =>
    if c.frozen || x.fault.isSome || !x.owed.isEmpty then .next s
    else match x.walk with
      | some w =>
        if w.waiting.isSome then
          (if w.released then .next (s.completeNode ctx queue w.run w.node false 1) else .next s)
        else nodeEvent s ctx queue 7 fun w r =>
          let i := numAt r 16 2
          let s1 := s.updWalk ctx queue fun w => { w with phase := .running, next := nodeNext r, waiting := some i }
          if counterDone (c.counter i) then s1.completeNode ctx queue w.run w.node false 1 else s1
      | none => .next s

/-! ### Preservation (R437, R443, R446) -/

/-- An entry of a range list (R437); none where it fails. Its shadow, its tree and its replica lie whole in addresses that translate (R393;
log 112). -/
def rangeOf (r : List Byte) : Option Range :=
  let x : Range := { va := numAt r 0 8, npages := numAt r 8 4, kind := numAt r 12 1, aux := numAt r 16 8, replica := numAt r 24 8,
                     root := (r.drop 32).take 32 }
  let ok := x.va % 4096 == 0 && 1 ≤ x.npages && x.npages ≤ 2 ^ 20 && x.kind ≤ 1 && numAt r 13 3 == 0 &&
    plainVA x.va && plainVA (x.va + 4096 * x.npages - 1) && plainVA x.aux && plainVA x.replica &&
    (if x.kind = 0 then x.aux % 4096 == 0 && x.replica == 0 && x.root.all (· == 0) && plainVA (x.aux + 4096 * x.npages - 1)
     else x.aux % 32 == 0 && x.replica % 4096 == 0 && plainVA (x.aux + 64 * treeLeaves x.npages - 1) &&
       (x.replica == 0 || plainVA (x.replica + 4096 * x.npages - 1)))
  if ok then some x else none

/-- Two ranges overlap. -/
def Range.meets (a b : Range) : Bool := overlap a.va (4096 * a.npages) b.va (4096 * b.npages)

/-- A list keeps the limits of R437. -/
def rangesOf (bs : List Byte) (n : Nat) : Option (List Range) :=
  let xs := (List.range n).map fun i => rangeOf ((bs.drop (64 * i)).take 64)
  let rs := xs.filterMap id
  if rs.length = n && rs.zipIdx.all fun a => rs.zipIdx.all fun b => a.2 == b.2 || !a.1.meets b.1 then some rs else none

/-- The pages of a range lie in device memory, where they translate (R437). -/
def State.rangeInDram (s : State) (ctx : Nat) (r : Range) : Bool :=
  (List.range r.npages).all fun i => match s.translate 256 ctx (r.va + 4096 * i) .read with
    | .ok p => p.space == .dram
    | _ => true

/-- Read a list (R437): refused with a status where an entry fails, a page outside device memory included. For a launch that
is STATUS 2; for a SNAPSHOT node, whose list R437 gives no status, it is that of a malformed node (log 120). -/
def State.readRanges (s : State) (ctx va n status : Nat) : Except HmStop (List Range) :=
  if n = 0 then .ok []
  else if !plainVA (va + 64 * n - 1) then .error (.refuse status)
  else match s.hmRead ctx va (64 * n) with
    | .error e => .error e
    | .ok bs => match rangesOf bs n with
      | some rs => if rs.all (s.rangeInDram ctx) then .ok rs else .error (.refuse status)
      | none => .error (.refuse status)

/-- A range, hashed or not, overlaps an active preservation of the context (R446). -/
def Ctx.preserved (c : Ctx) (rs : List Range) : Bool :=
  c.preserves.any fun v => v.ranges.any fun a => rs.any fun b => a.kind == 0 && a.meets b

/-- The pages of the ranges to preserve, with their shadows (R443): every page translates first. -/
def State.preservePages (s : State) (ctx : Nat) (rs : List Range) : Except HmStop (List PageCopy) :=
  let pairs := (rs.filter (·.kind == 0)).flatMap fun r => (List.range r.npages).map fun i => (r.va + 4096 * i, r.aux + 4096 * i)
  pairs.foldl (fun m p =>
    match m with
    | .error e => .error e
    | .ok xs =>
      match s.translate 256 ctx p.1 .read, s.translate 256 ctx p.2 .write with
      | .ok a, .ok b => .ok (xs ++ [⟨a, b, false⟩])
      | .fault k, _ => .error (.fault k p.1 .read)
      | .poison, _ => .error (.table p.1)
      | _, .fault k => .error (.fault k p.2 .write)
      | _, .poison => .error (.table p.2)) (.ok [])

/-- Write one page back: a write like any other, which another active preservation of the page copies first (R443). -/
def State.restorePage (s : State) (g : PageCopy) : State := (s.preserveFor g.page 4096).copyPage g.shadow g.page

/-- Write the copied pages of a preservation back (R444, R446). -/
def State.writeBack (s : State) (v : Preserve) : State :=
  v.pages.foldl (fun t g => if g.copied then t.restorePage g else t) s

/-- The preservation that a list address names. -/
def Ctx.snapshot? (c : Ctx) (list : Nat) : Option Preserve := c.preserves.find? fun v => v.list == list && v.launch.isNone

/-- A SNAPSHOT node of an operation (R446). -/
def snapshotNode (s : State) (ctx queue op : Nat) (act : Ctx → Walk → List Byte → Except HmStop State) :
    Host.Outcome State Fault Refusal :=
  nodeEvent s ctx queue 8 fun w r =>
    if numAt r 28 1 != op then s
    else match s.ctx? ctx with
      | none => s
      | some c => match act c w r with
        | .ok t => t.passNode ctx queue w.node (nodeNext r)
        | .error (.refuse _) => s.rejectNode ctx queue w.node
        | .error e => s.stopNode ctx queue w.node w.node e

/-- SNAPSHOT_TAKE (R446): a list that fails R437 gives the node STATUS 13 (log 120). -/
def execSnapshotTake (ctx queue : Nat) (s : State) : Host.Outcome State Fault Refusal :=
  snapshotNode s ctx queue 0 fun c _ r =>
    match s.readRanges ctx (numAt r 16 8) (numAt r 24 4) 13 with
    | .error e => .error e
    | .ok rs =>
      if (rs.any (·.kind != 0)) || c.preserved rs || 16 ≤ c.preserves.length then .error (.refuse 13)
      else match s.preservePages ctx rs with
        | .error e => .error e
        | .ok ps => .ok (s.updCtx ctx fun c => { c with preserves := c.preserves ++ [⟨numAt r 16 8, none, rs, ps⟩] })

/-- SNAPSHOT_RESTORE (R446): preservation continues from the restored contents. -/
def execSnapshotRestore (ctx queue : Nat) (s : State) : Host.Outcome State Fault Refusal :=
  snapshotNode s ctx queue 1 fun c _ r =>
    match c.snapshot? (numAt r 16 8) with
    | none => .error (.refuse 13)
    | some v =>
      let fresh := fun (x : Preserve) =>
        if x.list = v.list ∧ x.launch = none then { x with pages := x.pages.map fun g => { g with copied := false } } else x
      .ok ((s.writeBack v).updCtx ctx fun c => { c with preserves := c.preserves.map fresh })

/-- SNAPSHOT_DISCARD (R446). -/
def execSnapshotDiscard (ctx queue : Nat) (s : State) : Host.Outcome State Fault Refusal :=
  snapshotNode s ctx queue 2 fun c _ r =>
    match c.snapshot? (numAt r 16 8) with
    | none => .error (.refuse 13)
    | some v => .ok (s.endPreserves ctx fun x => x.list == v.list && x.launch.isNone)

end Sys2Proof.Machine
end

