-- ==== Sys2Proof/Machine/Convoy.lean ====
section
/-!
DEFINITION. The convoy (R242 to R247, R413 to R415): the operands of a collective, its sequence number and ticket,
what members receive, the combination, failures, CVQRY, and CVOY nodes (R387).
-/
namespace Sys2Proof.Machine

/-! ### Operands (R242, R243, R413) -/

/-- An entry of the convoy group table (R413): P, this module's rank, the node ids by rank. -/
structure ConvoyGroup where
  members : Nat
  rank : Nat
  nodes : List Nat
  deriving DecidableEq, Repr

/-- What the table says of a group. -/
inductive GroupEntry where
  | good (g : ConvoyGroup)
  | bad
  /-- The entry or its list is marked. -/
  | marked (addr : Nat)
  deriving DecidableEq, Repr

/-- Read a group's entry (R413). -/
def State.convoyGroup (s : State) (c : Ctx) (g : Nat) : GroupEntry :=
  let at_ := c.desc.cgbase + 16 * g
  let r := s.loadPhys ⟨.dram, at_⟩ 16
  let e := r.1
  let p := field (numAt e 0 2) 0 12 + 1
  let rank := numAt e 2 2
  let list := numAt e 8 8
  if r.2 then .marked at_
  else if !bitOf (numAt e 0 2) 15 || field (numAt e 0 2) 12 3 != 0 || numAt e 4 4 != 0 || p ≤ rank || list % 2 != 0 then .bad
  else
    let m := s.loadPhys ⟨.dram, list⟩ (2 * p)
    let nodes := (List.range p).map fun q => numAt m.1 (2 * q) 2
    if m.2 then .marked list else if nodes.getD rank 0 = s.bar0.nodeid then .good ⟨p, rank, nodes⟩ else .bad

/-- The four operand words of a collective (R242). -/
structure ConvoyArgs where
  src : Nat
  dst : Nat
  norma : Nat
  w : Nat
  deriving DecidableEq, Repr

def ConvoyArgs.op (a : ConvoyArgs) : Nat := field a.w 60 4
def ConvoyArgs.type (a : ConvoyArgs) : Nat := field a.w 57 3
def ConvoyArgs.norm (a : ConvoyArgs) : Bool := bitOf a.w 56
def ConvoyArgs.group (a : ConvoyArgs) : Nat := field a.w 40 12
def ConvoyArgs.len (a : ConvoyArgs) : Nat := field a.w 0 40

/-- Bytes that this member's DST receives (R244). -/
def destLen (op len members : Nat) : Nat := if op = 1 then len / members else if op = 2 then members * len else len

/-- The operand-field condition (R243); a group that is not configured has no member. -/
def ConvoyArgs.badField (a : ConvoyArgs) (g : Option ConvoyGroup) : Bool :=
  let p := (g.map (·.members)).getD 1
  3 ≤ a.op || 4 ≤ a.type || field a.w 52 4 != 0 || (a.norm && (a.op != 1 || a.type != 0)) || (!a.norm && a.norma != 0) ||
  g.isNone || a.len == 0 || a.len % 16 != 0 || (a.op == 1 && a.len % (16 * p) != 0) ||
  overlap a.src a.len a.dst (destLen a.op a.len p)

/-- An address condition (R243). -/
def ConvoyArgs.badAddr (a : ConvoyArgs) (g : Option ConvoyGroup) : Bool :=
  let p := (g.map (·.members)).getD 1
  !plainRange a.src a.len || !plainRange a.dst (destLen a.op a.len p) || (a.norm && !plainRange a.norma 8)

/-- An alignment condition (R243). -/
def ConvoyArgs.misaligned (a : ConvoyArgs) : Bool := a.src % 16 != 0 || a.dst % 16 != 0 || (a.norm && a.norma % 8 != 0)

/-- A configured group. -/
def GroupEntry.good? : GroupEntry → Option ConvoyGroup
  | .good g => some g
  | _ => none

/-! ### Sequence numbers and tickets (R244, R247, R415) -/

/-- The next sequence number of a group. -/
def Ctx.seqOf (c : Ctx) (g : Nat) : Nat := (lookupKey c.seqs g).getD 0

/-- Take the next sequence number; the status of the last 256 is kept (R247). -/
def Ctx.takeSeq (c : Ctx) (g : Nat) : Ctx :=
  let n := c.seqOf g
  let next := (n + 1) % 4294967296
  let kept := c.tickets.filter fun t => t.1 != g || (next + 4294967296 - t.2.1) % 4294967296 ≤ 256
  { c with seqs := insertKey c.seqs g next, tickets := kept ++ [(g, n, 0, 0)] }

/-- Set the status of a ticket. -/
def Ctx.setTicket (c : Ctx) (g seq st code : Nat) : Ctx :=
  { c with tickets := c.tickets.map fun t => if t.1 = g ∧ t.2.1 = seq then (g, seq, st, code) else t }

/-- A collective as it starts. -/
def ConvoyArgs.start (a : ConvoyArgs) (g : ConvoyGroup) (seq : Nat) (counter : Option (Nat × Scope)) (node : Option (Nat × Nat × Nat × Bool)) :
    ConvoyOp :=
  { group := a.group, seq := seq, op := a.op, type := a.type, norm := a.norm, len := a.len, src := a.src, dst := a.dst,
    norma := a.norma, members := g.members, rank := g.rank, nodes := g.nodes, got := [], wrote := [], fail := 0, counter := counter, node := node }

/-- The operands of CVOY (R242). -/
def Env.convoyArgs (e : Env) (a : BitVec 6) : ConvoyArgs :=
  { src := e.sv a.toNat, dst := e.sv (a.toNat + 1), norma := e.sv (a.toNat + 2), w := e.sv (a.toNat + 3) }

/-- CVOY (R242 to R244): the ticket is written at issue; a marked group entry or list freezes the context (log 143). -/
def execCvoy (a b c : BitVec 6) (l : BitVec 4) (s : State) : Host.Outcome State Fault Refusal :=
  let entry := fun (e : Env) => ((e.s.ctx? e.l.ctx).map fun c => e.s.convoyGroup c (e.convoyArgs a).group).getD .bad
  runWord s (.cvoy a b c l)
    (fun e take =>
      let x := e.convoyArgs a
      let g := (entry e).good?
      let marked := !(entry e == .bad) && g.isNone
      condIf (x.badAddr g) 0x10 (e.low take) ++ condIf x.misaligned 0x11 (e.low take) ++
      condIf ((!marked && x.badField g) || field (e.sv b.toNat) 16 48 != 0) 0x17 (e.low take))
    fun e s1 =>
      match entry e with
      | .marked at_ => .freezes at_
      | .bad => .go s1
      | .good g =>
        let x := e.convoyArgs a
        let vb := e.sv b.toNat
        let seq := ((s1.ctx? e.l.ctx).map (·.seqOf x.group)).getD 0
        let ctr := if bitOf vb 15 then some (field vb 0 12, Scope.ofCode (field vb 12 3)) else none
        let s2 := s1.updCtx e.l.ctx (·.takeSeq x.group)
        .go (e.upd (e.flyAt s2 x.src (.convoy (x.start g seq ctr none))) fun h => h.setS c.toNat (x.group * 4294967296 + seq))

/-- CVQRY (R247). -/
def execCvqry (a c : BitVec 6) (l : BitVec 4) (s : State) : Host.Outcome State Fault Refusal :=
  runWord s (.cvqry a c l) noMore fun e s1 =>
    let t := e.sv a.toNat
    let found := (e.s.ctx? e.l.ctx).bind fun x => x.tickets.find? fun k => k.1 * 4294967296 + k.2.1 == t
    .go (e.upd s1 fun g => g.setS c.toNat (match found with
      | some k => k.2.2.1 + 256 * k.2.2.2
      | none => 3))

/-! ### What members send (R244, R246, R414) -/

/-- A flight is the collective that a flit belongs to. -/
def Flight.takesFlit (f : Flight) (ctx : Nat) (x : Flit) : Bool :=
  match f.op with
  | .convoy c => f.ctx == ctx && c.group == x.group && c.seq == x.seq
  | _ => false

/-- The collective after a flit: one from a node other than the ring predecessor, or of another shape, fails it. -/
def ConvoyOp.take (c : ConvoyOp) (x : Flit) : ConvoyOp :=
  let pred := c.nodes.getD ((c.rank + c.members - 1) % c.members) 0
  let wrong := x.node != pred || x.op != c.op || x.type != c.type || x.norm != c.norm || x.len != c.len
  if c.fail != 0 then c
  else if wrong then { c with fail := 1 }
  else if x.fail != 0 then { c with fail := x.fail }
  else if x.rank < c.members && x.rank != c.rank && x.offset + x.data.length ≤ c.len then
    { c with got := c.got ++ [(x.rank, x.offset, x.data, x.marked)] }
  else c

/-- CONVOY_FLIT_RECEIVE (R414): a flit waits until this module has issued its collective. -/
def execConvoyFlitReceive (flit : Flit) (s : State) : Host.Outcome State Fault Refusal :=
  match s.ctxs.find? fun c => bitOf c.desc.fabtag 15 && field c.desc.fabtag 0 12 == flit.ctx with
  | none => .next s
  | some c =>
    match s.flights.find? (·.takesFlit c.id flit) with
    | none => .next s
    | some f => .next (s.updFlight f.id fun g => { g with op := match g.op with
        | .convoy x => .convoy (x.take flit)
        | o => o })

/-- The byte of a member's data that has come, with the mark of its source. -/
def ConvoyOp.byte? (c : ConvoyOp) (q i : Nat) : Option (Byte × Bool) :=
  c.got.findSome? fun g => if g.1 = q && g.2.1 ≤ i then (g.2.2.1[i - g.2.1]?).map fun b => (b, g.2.2.2) else none

/-- A member's data with its marks, where all of it has come; `own` is this member's. -/
def ConvoyOp.data (c : ConvoyOp) (own : MarkedBytes) (q : Nat) : Option MarkedBytes :=
  if q = c.rank then some own
  else
    let bs := (List.range c.len).filterMap fun i => c.byte? q i
    if bs.length = c.len then some bs else none

/-! ### The combination (R244, R245) -/

/-- One step of Combine on patterns of a type. -/
def combineStep (type c x : Nat) : Nat :=
  if type = 0 then (addFP fp32 .rne (fp32.decode c) (fp32.decode x)).pat
  else if type = 1 then (c + x) % 4294967296
  else if type = 2 then (c + x) % 18446744073709551616
  else (minMaxFP fp32 true c x).pat

/-- Combine of the members' elements in ascending rank (R244). -/
def combine (type : Nat) : List Nat → Nat
  | [] => 0
  | c :: xs => xs.foldl (combineStep type) c

/-- Bytes of an element of a type. -/
def elemBytes (type : Nat) : Nat := if type = 2 then 8 else 4

/-- Combine over `n` bytes from offset `off` of every member's data. -/
def combineBytes (type : Nat) (data : List (List Byte)) (off n : Nat) : List Byte :=
  let w := elemBytes type
  (List.range (n / w)).flatMap fun i => leBytes w (combine type (data.map fun d => numAt d (off + w * i) w))

/-- a + b in binary64 (R245). -/
def add64 (a b : Nat) : Nat := (addFP fp64 .rne (fp64.decode a) (fp64.decode b)).pat

/-- The square of an FP32 pattern in binary64 (R245). -/
def square64 (x : Nat) : Nat := (mulFP fp64 .rne (fp32.decode x) (fp32.decode x)).pat

/-- The sum of the squares of FP32 elements in ascending order (R245). -/
def sumSquares (bs : List Byte) : Nat := (List.range (bs.length / 4)).foldl (fun m i => add64 m (square64 (numAt bs (4 * i) 4))) 0

/-- The norm of a reduce-scatter (R245): the members' sums, added in ascending rank. -/
def normOf (type members len : Nat) (data : List (List Byte)) : Nat :=
  let n := len / members
  match (List.range members).map fun q => sumSquares (combineBytes type data (q * n) n) with
  | [] => 0
  | c :: xs => xs.foldl add64 c

/-- What this member's DST receives (R244), each byte with its mark: an element combined from a marked source of any member is
marked (R433). -/
def ConvoyOp.result (c : ConvoyOp) (data : List MarkedBytes) : MarkedBytes :=
  let w := elemBytes c.type
  let n := c.len / c.members
  if c.op = 2 then data.flatMap id
  else
    let off := if c.op = 1 then c.rank * n else 0
    (combineBytes c.type (data.map fun d => d.map (·.1)) off (if c.op = 1 then n else c.len)).zipIdx.map fun b =>
      (b.1, data.any fun d => ((d.drop (off + b.2 / w * w)).take w).any (·.2))

/-! ### The end of a collective (R244, R246) -/

/-- The translation unit of the convoy that carries a collective out: the base die of the issuing CU. -/
def Flight.convoyUnit (f : Flight) : Nat := 256 + f.cu / 64

/-- Bytes of DST that a collective writes on this member (R244). -/
def ConvoyOp.destLen (c : ConvoyOp) : Nat :=
  if c.op = 0 then c.len else if c.op = 1 then c.len / c.members else c.len * c.members

/-- One byte of the destination of a failed collective: as it was, or a free value (R246; log 15). -/
def State.mixByte (s : State) (f : Flight) (c : ConvoyOp) (t : State) (k : Nat) : State :=
  if Config.freeMix (s.free + k) then
    match t.writeMarked f.convoyUnit f.ctx (c.dst + k) [(Config.freeByte (s.free + k), false)] 4 with
    | .go u => u
    | _ => t
  else t

/-- DST of a failed collective holds any mix of old and new bytes (R246). -/
def State.mixDest (s : State) (f : Flight) (c : ConvoyOp) : State :=
  let t := (List.range c.destLen).foldl (s.mixByte f c) s
  { t with free := s.free + c.destLen }

/-- A collective fails on this member (R246): its counter is not decremented, a record is written; the queue of a CVOY
node parks (R374), a launch goes on unless its fault was abandoned (code 3, R400). -/
def State.failConvoy (s0 : State) (f : Flight) (c : ConvoyOp) (code addr : Nat) : State :=
  let s := s0.mixDest f c
  let s1 := (s.dropFlight f.id).updCtx f.ctx (·.setTicket c.group c.seq 2 code)
  match c.node with
  | none => s1.report (some f.ctx) { s.flightRec f 2 0x15 (if code = 3 then 4 else 0) addr with cu := none }
  | some (q, run, node, isAsync) =>
    if (s1.ctx? f.ctx).any (·.frozen) then s1
    else
      let s2 := (s1.setStatus f.ctx q node 10).updWalk f.ctx q (·.leave run node isAsync)
      (s2.updQueue f.ctx q fun x => { x with parked := true }).report (some f.ctx)
        { s2.queueRec q 2 0x15 6 node 10 with addr := addr }

/-- A collective completes on this member (R244). -/
def State.endConvoy (s : State) (f : Flight) (c : ConvoyOp) : State :=
  let s1 := ((s.dropFlight f.id).updCtx f.ctx (·.setTicket c.group c.seq 1 0)).decrement f.ctx c.counter
  match c.node with
  | none => s1
  | some (q, run, node, isAsync) => s1.completeNode f.ctx q run node isAsync 1

/-- This member's SRC as the convoy reads it. -/
def State.convoySource (s : State) (f : Flight) (c : ConvoyOp) : EngRead :=
  (runsOf 4096 c.src c.len).foldl (fun (m : EngRead) r => m.append (s.readPage f.convoyUnit f.ctx r.1 r.2)) (EngRead.ok [])

/-- What the convoy cannot go on with: it is handed to the operation's end. -/
def EngRead.convoy (r : EngRead) (f : MarkedBytes → Option Eng) : Option Eng :=
  match r with
  | .ok own => f own
  | .stall k va _ _ => some (.stall k va .read false 4)
  | .late va => some (.freezes va)
  | .consume va => some (.freezes va)
  | .freezes va => some (.freezes va)
  | .hash va => some (.freezes va)

/-- This member's data go on to its ring successor, which a port must reach (R411, R414). -/
def State.ringOpen (s : State) (c : ConvoyOp) : Bool :=
  c.members ≤ 1 || s.reachable (c.nodes.getD ((c.rank + 1) % c.members) 0)

/-- Go on with every member's data, once all of it has come: none before (R244). An unreachable successor stalls the
collective (R411), as a read of SRC (log 142). -/
def State.withData (s : State) (f : Flight) (c : ConvoyOp) (act : List MarkedBytes → Option Eng) : Option Eng :=
  if !s.ringOpen c then some (.stall 5 c.src .read false 4)
  else (s.convoySource f c).convoy fun own =>
    let data := (List.range c.members).filterMap (c.data own)
    if data.length != c.members then none else act data

/-- The convoy writes element `k` of DST, where it has not written it yet (R326). -/
def State.putElement (f : Flight) (c : ConvoyOp) (res : MarkedBytes) (e : Eng) (k : Nat) : Eng :=
  let w := elemBytes c.type
  match e with
  | .go t => if c.wrote.contains k then .go t else t.writeMarked f.convoyUnit f.ctx (c.dst + w * k) ((res.drop (w * k)).take w) 4
  | x => x

/-- The writes of DST that are left: all of it at once where none was made before. -/
def State.putDest (s : State) (f : Flight) (c : ConvoyOp) (res : MarkedBytes) : Eng :=
  if c.wrote.isEmpty then s.writeMarked f.convoyUnit f.ctx c.dst res 4
  else (List.range (c.destLen / elemBytes c.type)).foldl (State.putElement f c res) (.go s)

/-- Element `k` of DST lands by itself: elements land in any order, each as one access (R244, R326). -/
def State.landElement (s : State) (id k : Nat) : State :=
  match s.flight? id with
  | none => s
  | some f =>
    match f.op with
    | .convoy c =>
      if f.fault.isSome || f.refetch.isSome || c.fail != 0 || c.destLen / elemBytes c.type ≤ k || c.wrote.contains k then s
      else (match s.withData f c (fun data => some (State.putElement f c (c.result data) (.go s) k)) with
        | none => s
        | some (.go t) => t.updFlight id fun g => { g with op := .convoy { c with wrote := k :: c.wrote } }
        | some e => s.endEng f e)
    | _ => s

/-- This member's writes once every member's data has come; a marked source of any member marks NORMA (R433). -/
def State.finishConvoy (s : State) (f : Flight) (c : ConvoyOp) (data : List MarkedBytes) : Eng :=
  match s.putDest f c (c.result data) with
  | .go t =>
    if !c.norm then .go (t.endConvoy f c)
    else
      let sum := normOf c.type c.members c.len (data.map fun d => d.map (·.1))
      (match t.writeMarked f.convoyUnit f.ctx c.norma ((leBytes 8 sum).map fun b => (b, data.any fun d => d.any (·.2))) 4 with
       | .go u => .go (u.endConvoy f c)
       | e => e)
  | e => e

/-- COLLECTIVE_COMPLETE (R244, R246). -/
def execCollectiveComplete (k : Nat) (s : State) : Host.Outcome State Fault Refusal :=
  runFlight s k fun f =>
    match f.op with
    | .convoy c =>
      if c.fail != 0 then some (.go (s.failConvoy f c c.fail 0)) else s.withData f c fun data => some (s.finishConvoy f c data)
    | _ => none

/-! ### CVOY nodes (R387) -/

/-- The operands of a CVOY node (R386). -/
def nodeConvoyArgs (r : List Byte) : ConvoyArgs :=
  { src := numAt r 16 8, dst := numAt r 24 8, norma := numAt r 32 8, w := numAt r 40 8 }

/-- A collective that a node issues: no launch and no group issues it. -/
def nodeFlight (ctx : Nat) (c : ConvoyOp) (k : Nat) : Flight :=
  { id := k, ctx := ctx, launch := 0, team := 0, cu := 0, part := 0, slot := 0, order := 0, lanes := 0, op := .convoy c, fault := none,
    refetch := none, va := c.src, fenced := false }

/-- CVOY_NODE (R387): it acts as an issue of CVOY by the module; operands that CVOY would refuse are a graph error, but a marked
group entry freezes the context first (log 140). -/
def execCvoyNode (ctx queue : Nat) (s : State) : Host.Outcome State Fault Refusal :=
  nodeEvent s ctx queue 3 fun w r =>
    match s.ctx? ctx with
    | none => s
    | some c =>
      let x := nodeConvoyArgs r
      match s.convoyGroup c x.group with
      | .marked at_ => s.stopNode ctx queue w.node w.node (.table at_)
      | .bad => s.rejectNode ctx queue w.node
      | .good g =>
        if x.badField (some g) || x.badAddr (some g) || x.misaligned then s.rejectNode ctx queue w.node
        else
          let op := x.start g (c.seqOf x.group) (doneCounter (numAt r 48 2)) (some (queue, w.run, w.node, nodeAsync r))
          ((s.updCtx ctx (·.takeSeq x.group)).launchFlight (nodeFlight ctx op)).startNode ctx queue w.node (nodeNext r) (nodeAsync r)

end Sys2Proof.Machine
end

