-- ==== Sys2Proof/Machine/Matrix.lean ====
section
/-!
DEFINITION. The matrix array and the hold (R197 to R214), and the issue of HDRN (R215 to R217).
-/
namespace Sys2Proof.Machine

/-! ### Hold tiles (R43) -/

/-- The hold tiles of a team in a partition. -/
def Team.holdPart (t : Team) (part : Nat) : HoldPart := (t.hold.find? (·.part == part)).getD ⟨part, [], []⟩

/-- Change the hold tiles of a team in a partition. -/
def State.updHold (s : State) (team part : Nat) (f : HoldPart → HoldPart) : State :=
  s.updTeam team fun t => { t with hold := updFirst (·.part == part) f t.hold }

/-- The hold tiles of a team in a partition, as the machine has them. -/
def State.holdPart (s : State) (team part : Nat) : HoldPart := ((s.team? team).map (·.holdPart part)).getD ⟨part, [], []⟩

/-- Byte offset of a row of a tile. -/
def holdRow (tile row : Nat) : Nat := 8192 * tile + 256 * row

/-- The 64 values of a row. -/
def HoldPart.row (h : HoldPart) (tile row : Nat) : List Word :=
  (List.range 64).map fun c => BitVec.ofNat 32 (h.mem.num (holdRow tile row + 4 * c) 4)

/-- Columns of a row that carry a mark (R433). -/
def HoldPart.badCols (h : HoldPart) (tile row : Nat) : List Nat :=
  (List.range 64).filter fun c => h.bad.contains (holdRow tile row / 4 + c)

/-- Write a whole row, with the marks of its columns (R433). -/
def HoldPart.putRow (h : HoldPart) (tile row : Nat) (ws : List Word) (cols : List Nat) : HoldPart :=
  let i := holdRow tile row / 4
  { h with
    mem := h.mem.write (holdRow tile row) (regBytes (ws.take 64))
    bad := cols.foldl (fun m c => insertNat m (i + c)) (h.bad.filter fun k => k < i || i + 64 ≤ k) }

/-- The bytes of a tile, each with the mark of its value. -/
def HoldPart.tile (h : HoldPart) (t : Nat) : MarkedBytes :=
  (h.mem.read (8192 * t) 8192).zipIdx.map fun b => (b.1, h.bad.contains ((8192 * t + b.2) / 4))

/-- Replace a tile by bytes with marks. -/
def HoldPart.putTile (h : HoldPart) (t : Nat) (bs : MarkedBytes) : HoldPart :=
  { h with
    mem := h.mem.write (8192 * t) (bs.map (·.1))
    bad := bs.zipIdx.foldl (fun m b => if b.1.2 then insertNat m ((8192 * t + b.2) / 4) else m)
      (h.bad.filter fun k => k < 2048 * t || 2048 * t + 2048 ≤ k) }

/-- Tiles that an HDRN locks (R213, R217). -/
def HdrnOp.tiles (h : HdrnOp) : List Nat := if h.fn = 0 then [h.gt] else [h.gt, h.st]

/-- An HDRN in flight locks a tile of a team's partition (R213). -/
def State.tileLocked (s : State) (team part tile : Nat) : Bool :=
  s.flights.any fun f => f.team == team && f.part == part && (match f.op with
    | .hdrn h => h.tiles.contains tile
    | _ => false)

/-- The address of a scratchpad operand (R200, R214). -/
def Env.scrBase (e : Env) (b : BitVec 3) : Nat := e.sv b.toNat % 4294967296

/-- Conditions of a tile name (R207, R213, R214); `locks` where a locked tile traps. -/
def Env.tileConds (e : Env) (take : List Nat) (t : BitVec 5) (locks : Bool) : List Cond :=
  if take.isEmpty then []
  else condIf (e.l.hdr.ht ≤ t.toNat) 6 (e.low take) ++
    condIf (locks && e.s.tileLocked e.team.id e.iss.part t.toNat) 0x13 (e.low take)

/-- Conditions of a scratchpad range that the issue uses as a whole (R165, R207, R214). -/
def Env.spanConds (e : Env) (take : List Nat) (base size : Nat) (writes : Bool) : List Cond :=
  if take.isEmpty then [] else e.scrConds size 128 writes [(e.low take, (base : Int))]

/-! ### MMA, MMAH and MMAS -/

/-- Offset of the first malformed line of a sparse B tile (R210). -/
def firstMalformed (bs : List Byte) : Option Nat :=
  ((List.range 64).find? fun n => sparseMalformed ((bs.drop (128 * n)).take 128)).map (128 * ·)

/-- The operation that an MMA issue puts in flight: operands as read at issue (R202, R204, R205). -/
def Env.mmaOf (e : Env) (sparse : Bool) (tile : Option (BitVec 5)) (c a : BitVec 7) (sl : FSlot) (bs : List Byte) : MmaOp :=
  let rows := e.takers .lane
  let areg := 2 * a.toNat
  let na := mmaNA sparse sl
  let acc := fun (n : Nat) (t : Thread) => match tile with
    | some h => (e.s.holdPart e.team.id e.iss.part).row h.toNat n
    | none => t.getRegs ((List.range 64).map (2 * c.toNat + ·))
  { sparse := sparse, slot := sl, tile := tile.map (·.toNat), dreg := 2 * c.toNat,
    arows := rows.map fun p => (p.1, p.2.getRegs ((List.range na).map (areg + ·))),
    accs := rows.map fun p => (p.1, acc p.1 p.2),
    b := bs, aregs := (List.range na).map (areg + ·), locked := true }

/-- Offset in the B tile of the line whose first read the disturbance hit; which of the 64 it is, is a free value (log 117). -/
def State.upsetLine (s : State) : Nat := 128 * ((Config.freeStat s.clock).toNat % 64)

/-- The effect of an MMA issue with a lane that takes part (R202 to R205, R210). -/
def Env.mmaGo (e : Env) (sparse : Bool) (tile : Option (BitVec 5)) (c a : BitVec 7) (sl : FSlot) (base : Nat) (take : List Nat)
    (s1 : State) : Out :=
  let tb := mmaTB sparse sl
  let r := e.s.scrRead e.team.id base tb
  let held := tile.any fun h => take.any fun n => !((e.s.holdPart e.team.id e.iss.part).badCols h.toNat n).isEmpty
  if !e.s.present e.team.id base tb then .wait (.presence base tb)
  else if r.2 || held then .consume base
  else
    match (if sparse then firstMalformed r.1 else none) with
    | some off => .trap { cause := 0x19, lane := e.low take, detail := base + off, code := 0 } e.at_ false
    | none =>
      let s2 := if sparse && e.s.upset == some .line then
          { s1 with upset := none }.corrected e.iss.cu (some e.l.ctx) (e.errRec 1 0x0B 2 (base + e.s.upsetLine))
        else s1
      .go (e.fly (s2.takeLocks e.iss.cu [lockOf .opnd s2.nextFlight e.team.id base tb]) (.mma (e.mmaOf sparse tile c a sl r.1)))

/-- MMA, MMAH and MMAS (R202, R209, R211). -/
def mmaWord (s : State) (i : Instr) (sparse : Bool) (tile : Option (BitVec 5)) (c a : BitVec 7) (b f : BitVec 3) :
    Host.Outcome State Fault Refusal :=
  runWord s i
    (fun e take =>
      (tile.elim [] fun t => e.tileConds take t true) ++
      e.spanConds take (e.scrBase b) (mmaTB sparse (slotAt e.l.slots f)) false)
    fun e s1 =>
      let take := e.take .lane
      if take.isEmpty then .go s1 else e.mmaGo sparse tile c a (slotAt e.l.slots f) (e.scrBase b) take s1

/-- MMA (R202). -/
def execMma (c a : BitVec 7) (b f : BitVec 3) (l : BitVec 4) (r : Bool) (s : State) : Host.Outcome State Fault Refusal :=
  mmaWord s (.mma c a b f l r) false none c a b f

/-- MMAH (R211). -/
def execMmah (t : BitVec 5) (a : BitVec 7) (b f : BitVec 3) (l : BitVec 4) (r : Bool) (s : State) :
    Host.Outcome State Fault Refusal := mmaWord s (.mmah t a b f l r) false (some t) 0 a b f

/-- MMAS (R209). -/
def execMmas (c a : BitVec 7) (b f : BitVec 3) (l : BitVec 4) (r : Bool) (s : State) : Host.Outcome State Fault Refusal :=
  mmaWord s (.mmas c a b f l r) true none c a b f

/-! ### Hold moves (R214) -/

/-- HLD from registers: marks move with the values (R433). -/
def execHldReg (t : BitVec 5) (a : BitVec 7) (l : BitVec 4) (s : State) : Host.Outcome State Fault Refusal :=
  runWord s (.hldReg t a l) (fun e take => e.tileConds take t true) fun e s1 =>
    let v := 2 * a.toNat
    .go ((e.takers .lane).foldl (fun m p => m.updHold e.team.id e.iss.part fun h =>
      h.putRow t.toNat p.1 (p.2.getRegs ((List.range 64).map (v + ·))) ((List.range 64).filter fun c => p.2.bad.contains (v + c))) s1)

/-- HST to registers. -/
def execHstReg (t : BitVec 5) (a : BitVec 7) (l : BitVec 4) (s : State) : Host.Outcome State Fault Refusal :=
  runWord s (.hstReg t a l) (fun e take => e.tileConds take t false) fun e s1 =>
    let v := 2 * a.toNat
    let h := e.s.holdPart e.team.id e.iss.part
    .go (e.onLanes (e.take .lane) s1 fun n _ th =>
      let u := th.putRegs ((List.range 64).map (v + ·)) (h.row t.toNat n)
      { u with bad := (h.badCols t.toNat n).foldl (fun m c => insertNat m (v + c)) u.bad })

/-- HLD from scratchpad: it waits for presence and moves marks (R214, R433); it may read later (R328). -/
def execHldScratch (t : BitVec 5) (b : BitVec 3) (l : BitVec 4) (s : State) : Host.Outcome State Fault Refusal :=
  runWord s (.hldScratch t b l) (fun e take => e.tileConds take t true ++ e.spanConds take (e.scrBase b) 8192 false) fun e s1 =>
    let base := e.scrBase b
    if (e.take .lane).isEmpty then .go s1
    else if !e.s.present e.team.id base 8192 then .wait (.presence base 8192)
    else if e.iss.late then .go (e.fly s1 (.lateHold t.toNat base))
    else
      let bs := ((e.s.scrRead e.team.id base 8192).1).zipIdx.map fun x => (x.1, marked e.team.bad (base + x.2) 1)
      .go (s1.updHold e.team.id e.iss.part fun h => h.putTile t.toNat bs)

/-- HST to scratchpad (R214); its sectors may reach the scratchpad later (R328). -/
def execHstScratch (t : BitVec 5) (b : BitVec 3) (l : BitVec 4) (s : State) : Host.Outcome State Fault Refusal :=
  runWord s (.hstScratch t b l) (fun e take => e.tileConds take t false ++ e.spanConds take (e.scrBase b) 8192 true) fun e s1 =>
    if (e.take .lane).isEmpty then .go s1
    else if e.iss.late then
      let tile := (e.s.holdPart e.team.id e.iss.part).tile t.toNat
      .go (e.hold false 0 s1 ((List.range 256).map fun k =>
        ⟨e.low (e.take .lane), 0, .scr e.team.id (e.scrBase b + 32 * k), (tile.drop (32 * k)).take 32⟩))
    else .go (s1.landBytes e.team.id (((e.s.holdPart e.team.id e.iss.part).tile t.toNat).zipIdx.map fun x =>
      (e.scrBase b + x.2, x.1.1, x.1.2)))

/-- HZERO. -/
def execHzero (t : BitVec 5) (l : BitVec 4) (s : State) : Host.Outcome State Fault Refusal :=
  runWord s (.hzero t l) (fun e take => e.tileConds take t true) fun e s1 =>
    if (e.take .lane).isEmpty then .go s1
    else .go (s1.updHold e.team.id e.iss.part fun h => h.putTile t.toNat (List.replicate 8192 (0, false)))

/-! ### HDRN (R215 to R217) -/

/-- The operands of HDRN in its three s-registers (R215). -/
def hdrnOf (fn va vb vc : Nat) : HdrnOp :=
  { fn := fn, eps := field va 30 8, st := field va 25 5, gt := field va 20 5, waddr := field va 0 20,
    clip := BitVec.ofNat 32 (field vb 32 32), alpha := BitVec.ofNat 32 vb, beta := BitVec.ofNat 32 (field vc 32 32),
    lossScale := BitVec.ofNat 32 vc }

/-- A field of HDRN's operands is wrong (R215). -/
def HdrnOp.badField (h : HdrnOp) (va : Nat) : Bool :=
  field va 38 26 != 0 || (if h.fn = 2 then h.eps == 255 else h.eps != 0) ||
  (if h.fn = 0 then h.st != 0 || h.beta != 0 else h.st == h.gt)

/-- Conditions of HDRN (R215). -/
def Env.hdrnConds (e : Env) (h : HdrnOp) (va : Nat) (take : List Nat) : List Cond :=
  if take.isEmpty then []
  else condIf (h.badField va) 0x17 (e.low take) ++ condIf (h.tiles.any (e.l.hdr.ht ≤ ·)) 6 (e.low take) ++
    e.spanConds take h.waddr 8192 false

/-- The issue of HDRN: its weight tile becomes an engine destination (R217). -/
def hdrnWord (s : State) (i : Instr) (fn : Nat) (a b c : BitVec 6) : Host.Outcome State Fault Refusal :=
  runWord s i (fun e take => e.hdrnConds (hdrnOf fn (e.sv a.toNat) (e.sv b.toNat) (e.sv c.toNat)) (e.sv a.toNat) take) fun e s1 =>
    let h := hdrnOf fn (e.sv a.toNat) (e.sv b.toNat) (e.sv c.toNat)
    .go (e.fly ((s1.takeLocks e.iss.cu [lockOf .dest s1.nextFlight e.team.id h.waddr 8192]).clearLines e.team.id h.waddr 8192)
      (.hdrn h))

/-- HDRN (R216, FN 0). -/
def execHdrn (a b c : BitVec 6) (l : BitVec 4) (s : State) : Host.Outcome State Fault Refusal :=
  hdrnWord s (.hdrn a b c l) 0 a b c

/-- HDRN.MOM (R216, FN 1). -/
def execHdrnMom (a b c : BitVec 6) (l : BitVec 4) (s : State) : Host.Outcome State Fault Refusal :=
  hdrnWord s (.hdrnMom a b c l) 1 a b c

/-- HDRN.SQ (R216, FN 2). -/
def execHdrnSq (a b c : BitVec 6) (l : BitVec 4) (s : State) : Host.Outcome State Fault Refusal :=
  hdrnWord s (.hdrnSq a b c l) 2 a b c

end Sys2Proof.Machine
end

