-- ==== Sys2Proof/Machine/Pilot.lean ====
section
/-!
DEFINITION. The issue of PILOT and MCHK (R218, R221 to R223): operands, conditions, locks.
-/
namespace Sys2Proof.Machine

/-- An accepted range of scratchpad with an alignment (R165, R218, R220). -/
def Env.scrRange (e : Env) (take : List Nat) (off size align : Nat) : List Cond :=
  condIf (off % align != 0) 0x11 (e.low take) ++ condIf (e.team.scr < off + size) 0x12 (e.low take)

/-- The operands of PILOT in its s-registers (R218); its memory references are filled in at issue. -/
def pilotOf (top : Bool) (va vb : Nat) (slots : List FSlot) : PilotOp :=
  { top := top, rk := field va 54 8 + 1, dm := field va 40 14 + 1, maddr := field va 20 20, xaddr := field va 0 20,
    tau := BitVec.ofNat 32 (field vb 32 32), topk := field vb 32 17, slot := slotAt slots (BitVec.ofNat 3 (field vb 16 3)),
    n := field vb 0 16 + 1, p1 := .mem 0, p2 := .mem 0, x := none }

/-- A value outside the limits of R218, or a nonzero zero field. -/
def PilotOp.badField (p : PilotOp) (va vb : Nat) : Bool :=
  field va 62 2 != 0 || p.rk % 32 != 0 || p.dm % 32 != 0 || field vb 19 13 != 0 || p.n % 64 != 0 ||
  (p.top && (p.topk == 0 || p.n < p.topk || field vb 49 15 != 0))

/-- Bytes of P1 and of P2 (R218). -/
def PilotOp.p1Bytes (p : PilotOp) : Nat := columnsBytes p.slot.adesc p.rk p.dm
def PilotOp.p2Bytes (p : PilotOp) : Nat := columnsBytes p.slot.bdesc p.n p.rk

/-- Conditions of PILOT (R218, R220, R294). -/
def Env.pilotConds (e : Env) (p : PilotOp) (va vb p1 p2 : Nat) (take : List Nat) : List Cond :=
  if take.isEmpty then []
  else
    let low := e.low take
    let sm := (e.sampled e.s [(p1 : Int), (p2 : Int)]).1
    condIf (!(pilotKind false (descKind p.slot.adesc) && pilotKind true (descKind p.slot.bdesc))) 1 low ++
    condIf (p.badField va vb || overlap p.maddr (manMS p.n) p.xaddr (2 * p.dm)) 0x17 low ++
    e.scrRange take p.xaddr (2 * p.dm) 16 ++ e.scrRange take p.maddr (manMS p.n) 128 ++
    rangeConds sm low 16 p.p1Bytes p1 ++ rangeConds sm low 16 p.p2Bytes p2

/-- The issue of PILOT (R221). -/
def pilotWord (s : State) (i : Instr) (top : Bool) (a b c : BitVec 6) : Host.Outcome State Fault Refusal :=
  let op := fun (e : Env) => pilotOf top (e.sv a.toNat) (e.sv (a.toNat + 1)) e.l.slots
  runWord s i (fun e take => e.pilotConds (op e) (e.sv a.toNat) (e.sv (a.toNat + 1)) (e.sv b.toNat) (e.sv c.toNat) take) fun e s1 =>
    let p := op e
    let (sm, s2) := e.sampled s1 [(e.sv b.toNat : Int), (e.sv c.toNat : Int)]
    match s2.markedEntry e.l.ctx sm with
    | some a => .freezes a
    | none =>
      let k := s2.nextFlight
      let s3 := s2.takeLocks e.iss.cu [lockOf .src k e.team.id p.xaddr (2 * p.dm), lockOf .dest k e.team.id p.maddr (manMS p.n)]
      .go (e.fly (s3.clearLines e.team.id p.maddr (manMS p.n))
        (.pilot { p with p1 := (sm.ref (e.sv b.toNat)).getD (.mem 0), p2 := (sm.ref (e.sv c.toNat)).getD (.mem 0) }))

/-- PILOT.GT (R218). -/
def execPilotGt (a b c : BitVec 6) (l : BitVec 4) (s : State) : Host.Outcome State Fault Refusal :=
  pilotWord s (.pilotGt a b c l) false a b c

/-- PILOT.TOP (R218). -/
def execPilotTop (a b c : BitVec 6) (l : BitVec 4) (s : State) : Host.Outcome State Fault Refusal :=
  pilotWord s (.pilotTop a b c l) true a b c

/-- The operands of MCHK in its s-registers (R222): `v` holds s(EA) to s(EA + 3). -/
def mchkOf (v : Nat → Nat) (sc : Nat) (slots : List FSlot) : MchkOp :=
  { dm := field (v 0) 40 14 + 1, maddr := field (v 0) 20 20, xaddr := field (v 0) 0 20, pd := field (v 1) 40 3,
    raddr := field (v 1) 20 20, slot := slotAt slots (BitVec.ofNat 3 (field (v 1) 16 3)), n := field (v 1) 0 16 + 1,
    eps := BitVec.ofNat 32 (field (v 2) 32 32), theta := BitVec.ofNat 32 (v 2), h := BitVec.ofNat 32 (v 3), w := .mem 0,
    sc := sc, x := none, map := none }

/-- A value outside the limits of R222, or a nonzero zero field. -/
def MchkOp.badField (m : MchkOp) (v : Nat → Nat) : Bool :=
  field (v 0) 54 10 != 0 || m.dm % 32 != 0 || field (v 1) 43 21 != 0 || field (v 1) 19 1 != 0 || m.n % 64 != 0 ||
  field (v 3) 32 32 != 0

/-- Bytes of the shadow weights (R222). -/
def MchkOp.wBytes (m : MchkOp) : Nat := columnsBytes m.slot.bdesc m.n m.dm

/-- Conditions of MCHK (R222, R294). -/
def Env.mchkConds (e : Env) (m : MchkOp) (v : Nat → Nat) (w : Nat) (take : List Nat) : List Cond :=
  if take.isEmpty then []
  else
    let low := e.low take
    let sm := (e.sampled e.s [(w : Int)]).1
    let ms := manMS m.n
    condIf (!pilotKind true (descKind m.slot.bdesc)) 1 low ++
    condIf (m.badField v || overlap m.raddr ms m.maddr ms || overlap m.raddr ms m.xaddr (2 * m.dm)) 0x17 low ++
    e.scrRange take m.xaddr (2 * m.dm) 16 ++ e.scrRange take m.maddr ms 128 ++ e.scrRange take m.raddr ms 128 ++
    rangeConds sm low 16 m.wBytes w

/-- MCHK (R222, R223): its issue takes x and the prediction manifest as sources. -/
def execMchk (a b c : BitVec 6) (l : BitVec 4) (s : State) : Host.Outcome State Fault Refusal :=
  let v := fun (e : Env) (k : Nat) => e.sv (a.toNat + k)
  runWord s (.mchk a b c l) (fun e take => e.mchkConds (mchkOf (v e) c.toNat e.l.slots) (v e) (e.sv b.toNat) take) fun e s1 =>
    let m := mchkOf (v e) c.toNat e.l.slots
    let (sm, s2) := e.sampled s1 [(e.sv b.toNat : Int)]
    match s2.markedEntry e.l.ctx sm with
    | some a => .freezes a
    | none =>
      let k := s2.nextFlight
      let s3 := s2.takeLocks e.iss.cu
        [lockOf .src k e.team.id m.xaddr (2 * m.dm), lockOf .src k e.team.id m.maddr (manMS m.n),
         lockOf .dest k e.team.id m.raddr (manMS m.n)]
      .go (e.fly (s3.clearLines e.team.id m.raddr (manMS m.n)) (.mchk { m with w := (sm.ref (e.sv b.toNat)).getD (.mem 0) }))

end Sys2Proof.Machine
end

