-- ==== Sys2Proof/Machine/Complete.lean ====
section
/-!
DEFINITION. What completes after its issue: returning loads and atomics (R167, R176), parked lanes (R42, R171), matrix
operations (R202, R204), HDRN (R217), the pilot unit (R221, R223), the last read of a locked source (R190), and the
refetch procedure (R410, R436, R440).
-/
namespace Sys2Proof.Machine

/-! ### Returning data (R167, R176) -/

/-- A returning operation writes its registers and flags in one lane. -/
def Thread.deliver (ws : List LaneWrite) (lane : Nat) (t : Thread) : Thread :=
  match ws.find? (·.lane == lane) with
  | none => t
  | some w => (t.putRegs w.regs w.vals).orFx false w.fx

/-- Returning data is written to the threads of the issue. -/
def State.deliver (s : State) (f : Flight) (ws : List LaneWrite) : State :=
  (s.updFlightGroup f fun g => { g with threads := g.threads.mapIdx fun n t => t.map (Thread.deliver ws n) }).dropFlight f.id

/-- A read where a held-back access lies: the bytes, their mark, and the machine after it. -/
def State.readSite (s : State) (cu : Nat) (sc : Scope) (x : LateSite) (n : Nat) : List Byte × Bool × State :=
  match x with
  | .mem p => s.loadCached cu sc p n
  | .scr t off => let r := s.scrRead t off n; (r.1, r.2, s)

/-- The data of SLD is written to its s-register (R128). -/
def State.deliverS (s : State) (f : Flight) (r : Nat) (v : Word64) : State := (s.updFlightGroup f fun g => g.setS r v.toNat).dropFlight f.id

/-- What a late load of one lane reads of what it has not read yet (R313, R328): its bytes, where a marked sector was read, and the
machine after it. -/
def State.readParts (s : State) (cu : Nat) (sc : Scope) : List LatePart → List Byte × FirstBad × State
  | [] => ([], none, s)
  | p :: r =>
    match p.place, p.got with
    | none, _ => let y := s.readParts cu sc r; (List.replicate p.len 0 ++ y.1, y.2.1, y.2.2)
    | some _, some bs => let y := s.readParts cu sc r; (bs ++ y.1, y.2.1, y.2.2)
    | some a, none =>
      let x := s.readSite cu sc a p.len
      let y := x.2.2.readParts cu sc r
      (x.1 ++ y.1, if x.2.1 then some p.va else y.2.1, y.2.2)

/-- What late loads read, lane by lane. -/
def State.readLate (s : State) (cu : Nat) (sc : Scope) : List LateLoad → List LaneWrite × FirstBad × State
  | [] => ([], none, s)
  | l :: r =>
    let x := s.readParts cu sc l.parts
    let y := x.2.2.readLate cu sc r
    ({ lane := l.lane, regs := l.regs, vals := wordsOf x.1 l.regs.length, fx := 0 } :: y.1, x.2.1.orElse fun _ => y.2.1, y.2.2)

/-- Go on with what a held-back access has read; a mark in it stops the launch (R328, R434). `t` is the machine that the reads
leave, with an L1 that held a marked line discarded (R302). -/
def State.lateRead (t : State) (f : Flight) (bad : FirstBad) (act : State → State) : State :=
  match bad with
  | some va => (t.dropFlight f.id).stopConsumed f.launch { t.flightRec f 2 0x0C 4 va with slot := some f.slot }
  | none => act t

/-- Late loads read memory now: go on with what they read. -/
def State.readNow (s : State) (f : Flight) (sc : Scope) (ls : List LateLoad) (act : State → List LaneWrite → State) : State :=
  let x := s.readLate f.cu sc ls
  x.2.2.lateRead f x.2.1 fun t => act t x.1

/-- The read of SLD is made now (R128, R328). -/
def State.readUni (s : State) (f : Flight) (parts : List LatePart) (act : State → Word64 → State) : State :=
  let x := s.readParts f.cu .thread parts
  x.2.2.lateRead f x.2.1 fun t => act t (BitVec.ofNat 64 (leNat x.1))

/-- HLD reads its 8,192 bytes now; marks move with the values (R214, R328, R433). -/
def State.readHold (s : State) (f : Flight) (tile base : Nat) : State :=
  (s.updHold f.team f.part fun h => h.putTile tile (s.scrMarked f.team base 8192)).dropFlight f.id

/-- One read-modify-write where a held-back atomic lies (R177): old value, mark, machine after. Where it meets a mark, nothing is
written (R434). -/
def State.rmwSite (s : State) (cu : Nat) (p : LatePart) (f : Nat → Nat) : Nat × Bool × State :=
  match p.place with
  | none => (0, false, s)
  | some (.mem a) => let x := s.rmw cu a p.len f; (x.1, x.2.1, if x.2.1 then s else x.2.2)
  | some (.scr t off) =>
    let x := s.scrRead t off p.len
    let old := leNat x.1
    (old, x.2, if x.2 then s else s.scrWrite t off (leBytes p.len (f old)) false)

/-- The atomics of an issue that have not been performed yet are performed in ascending lane order (R177, R328). -/
def State.rmwRest (s : State) (cu : Nat) : List LateRmw → List LateRmw × FirstBad × State
  | [] => ([], none, s)
  | o :: r =>
    if o.got.isSome then let y := s.rmwRest cu r; (o :: y.1, y.2.1, y.2.2)
    else
      let x := s.rmwSite cu o.part o.rmw.new
      if x.2.1 then (o :: r, some o.part.va, x.2.2)
      else
        let y := x.2.2.rmwRest cu r
        ({ o with got := some x.1 } :: y.1, y.2.1, y.2.2)

/-- What a performed atomic returns (R176). -/
def LateRmw.write (o : LateRmw) : LaneWrite := { lane := o.lane, regs := o.regs, vals := natRegs o.regs.length (o.got.getD 0), fx := o.fx }

/-- Held-back atomics are performed now: go on with what they return. -/
def State.rmwNow (s : State) (f : Flight) (ops : List LateRmw) (act : State → List LaneWrite → State) : State :=
  let x := s.rmwRest f.cu ops
  x.2.2.lateRead f x.2.1 fun t => act t (x.1.map LateRmw.write)

/-- LOAD_DATA_RETURN (R128, R167, R214); a late load reads as it returns (R328). -/
def execLoadDataReturn (k : Nat) (s : State) : Host.Outcome State Fault Refusal :=
  runFlight s k fun f =>
    match f.op with
    | .load ws => some (.go (s.deliver f ws))
    | .lateLoad sc ls => some (.go (s.readNow f sc ls fun t ws => t.deliver f ws))
    | .sload r v => some (.go (s.deliverS f r v))
    | .lateSload r ps => some (.go (s.readUni f ps fun t v => t.deliverS f r v))
    | .lateHold h base => some (.go (s.readHold f h base))
    | _ => none

/-- ATOMIC_RETURN (R176); late atomics that have not been performed are performed as they return (R328). -/
def execAtomicReturn (k : Nat) (s : State) : Host.Outcome State Fault Refusal :=
  runFlight s k fun f =>
    match f.op with
    | .atomic ws => some (.go (s.deliver f ws))
    | .lateAtomic ops => some (.go (s.rmwNow f ops fun t ws => t.deliver f ws))
    | _ => none

/-! ### Parked lanes (R42, R171, R172) -/

/-- PARKED_LANE_RESUME (R42, R171): for what the setting of the presence bit has left parked (log 131). -/
def execParkedLaneResume (cu part slot lane : Nat) (s : State) : Host.Outcome State Fault Refusal := .next (s.unparkLane cu part slot lane)

/-! ### Matrix operations -/

/-- The results of an array operation: for each row its words and flags (R202, R209, R211). -/
def MmaOp.results (m : MmaOp) : List (Nat × List Word × Nat) :=
  m.arows.map fun r => (r.1, mmaRow m.sparse m.slot r.2 ((lookupKey m.accs r.1).getD []) m.b)

/-- What an array operation writes (R202, R203, R211). -/
def State.mmaWrite (s : State) (f : Flight) (m : MmaOp) : State :=
  let rs := m.results
  let dst := (List.range 64).map (m.dreg + ·)
  let lane := fun (n : Nat) (t : Thread) => (lookupKey rs n).elim t fun r =>
    Thread.orFx (if m.tile.isSome then t else t.putRegs dst r.1) false r.2
  let s1 := s.updFlightGroup f fun g => { g with threads := g.threads.mapIdx fun n t => t.map (lane n) }
  match m.tile with
  | none => s1
  | some h => s1.updHold f.team f.part fun p => rs.foldl (fun p r => p.putRow h r.1 r.2.1 []) p

/-- MMA_COMPLETE (R202, R442). -/
def execMmaComplete (k : Nat) (s : State) : Host.Outcome State Fault Refusal :=
  runFlight s k fun f =>
    match f.op with
    | .mma m =>
      if s.upset == some .residue then some (.go (s.residueStop f))
      else some (.go (((s.mmaWrite f m).dropLocks f.id fun _ => true).dropFlight f.id))
    | _ => none

/-- Tiles of the issuing partition that an operation in flight uses (R212, R213). -/
def FlightOp.tiles : FlightOp → List Nat
  | .mma m => m.tile.toList
  | .hdrn h => h.tiles
  | .lateHold h _ => [h]
  | _ => []

/-- An earlier operation of the partition on one of these tiles is outstanding (R212). -/
def State.tileBefore (s : State) (f : Flight) (ts : List Nat) : Bool :=
  s.flights.any fun g => g.id < f.id && g.team == f.team && g.part == f.part && g.cu == f.cu && g.op.tiles.any ts.contains

/-- An engine operation that wrote a range ends: its entries go, its lines set. -/
def State.endEngine (s : State) (f : Flight) (lo len : Nat) : State :=
  ((s.dropLocks f.id fun _ => true).dropFlight f.id).setPresent f.team (linesOf lo len)

/-- Flags are ORed into the lanes of the issue (R216, R219, R223). -/
def State.flightFx (s : State) (f : Flight) (fx : Nat) : State :=
  s.updFlightGroup f fun g => g.mapLanes f.lanes fun _ t => t.orFx false fx

/-- The bytes of new elements, none of them marked. -/
def cleanWords (xs : List Nat) : MarkedBytes := xs.flatMap fun x => (leBytes 4 x).map fun b => (b, false)

/-- HDRN's effect (R216, R217). -/
def State.hdrnGo (s : State) (f : Flight) (h : HdrnOp) : Eng :=
  let part := s.holdPart f.team f.part
  let g := part.tile h.gt
  let st := if h.fn = 0 then g else part.tile h.st
  let w := s.scrMarked f.team h.waddr 8192
  if (g ++ st ++ w).any (·.2) then .consume h.waddr
  else
    let num := fun (bs : List Byte) (k : Nat) => numAt bs (4 * k) 4
    let gb := g.map (·.1)
    let sb := st.map (·.1)
    let wb := w.map (·.1)
    let rs := (List.range 2048).map fun k => hdrnElem h (num gb k) (num sb k) (num wb k)
    let s1 := s.engineWrite f.id f.team [(h.waddr, cleanWords (rs.map (·.2.1)))]
    let s2 := if h.fn = 0 then s1 else s1.updHold f.team f.part fun p => p.putTile h.st (cleanWords (rs.map (·.1)))
    .go ((s2.flightFx f (rs.foldl (fun m r => m ||| r.2.2) 0)).endEngine f h.waddr 8192)

/-- HDRN_COMPLETE (R212, R217): its weights are read once earlier writers have landed, its tiles in issue order. -/
def execHdrnComplete (k : Nat) (s : State) : Host.Outcome State Fault Refusal :=
  runFlight s k fun f =>
    match f.op with
    | .hdrn h =>
      if !s.linesReady f.id f.team h.waddr 8192 .dest || s.landingHeld f.id f.team h.waddr 8192 || s.tileBefore f h.tiles then none
      else some (s.hdrnGo f h)
    | _ => none

/-! ### The pilot unit (R219 to R223) -/

/-- Read a scratchpad source of an engine, once its lines are ready (R171, R221, R223, R434). -/
def State.readSource (s : State) (f : Flight) (off n : Nat) : Option (Except Nat (List Byte)) :=
  if !s.linesReady f.id f.team off n .src then none
  else let r := s.scrRead f.team off n; some (if r.2 then .error off else .ok r.1)

/-- Release the SRC entries of an operation (R190). -/
def State.dropSources (s : State) (f : Flight) : State := s.dropLocks f.id fun k => k.kind == .src

/-- The pilot unit reads x. -/
def State.pilotSource (s : State) (f : Flight) (p : PilotOp) : Option Eng :=
  if p.x.isSome then none
  else match s.readSource f p.xaddr (2 * p.dm) with
    | none => none
    | some (.error a) => some (.consume a)
    | some (.ok x) => some (.go ((s.updFlight f.id fun f => { f with op := .pilot { p with x := some x } }).dropSources f))

/-- The pilot unit reads x and the prediction manifest's bitmap. -/
def State.mchkSource (s : State) (f : Flight) (m : MchkOp) : Option Eng :=
  if m.x.isSome then none
  else match s.readSource f m.xaddr (2 * m.dm), s.readSource f m.maddr (manMB m.n) with
    | some (.error a), some _ => some (.consume a)
    | some _, some (.error a) => some (.consume a)
    | some (.ok x), some (.ok b) =>
      some (.go ((s.updFlight f.id fun f => { f with op := .mchk { m with x := some x, map := some b } }).dropSources f))
    | _, _ => none

/-- LAST_SOURCE_READ (R190, R193, R204, R221, R223). -/
def execLastSourceRead (k : Nat) (s : State) : Host.Outcome State Fault Refusal :=
  runFlight s k fun f =>
    match f.op with
    | .mma m =>
      if m.locked then
        some (.go ((s.updFlight f.id fun f => { f with op := .mma { m with locked := false } }).dropLocks f.id fun _ => true))
      else none
    | .copy c => s.drainSource f c
    | .pilot p => s.pilotSource f p
    | .mchk m => s.mchkSource f m
    | _ => none

/-- Operand bytes of the pilot unit, which must not be marked (R434). -/
def EngRead.operand (r : EngRead) (f : Flight) (va : Nat) (act : List Byte → Eng) : Eng :=
  r.bind 2 (f.team, 0) fun bs => if bs.any (·.2) then .consume va else act (bs.map (·.1))

/-- The address that a memory reference names. -/
def MemRef.va : MemRef → Nat
  | .mem a => a
  | .view v _ off => viewVA v off

/-- A manifest is written and its writer ends (R220, R221). -/
def State.putManifest (s : State) (f : Flight) (at_ n : Nat) (rows : List Nat) (fx : Nat) : State :=
  ((s.engineWrite f.id f.team [(at_, (manifestBytes n rows).map fun b => (b, false))]).flightFx f fx).endEngine f at_ (manMS n)

/-- PILOT scores its rows (R219, R221, R442); none until x is read and the manifest may land. -/
def State.pilotGo (s : State) (f : Flight) (l : Launch) (via : Via) (p : PilotOp) : Option Eng :=
  match p.x with
  | none => none
  | some x =>
    if s.landingHeld f.id f.team p.maddr (manMS p.n) then none
    else some ((s.engineRead f.cu l via p.p1 p.p1Bytes).operand f p.p1.va fun b1 =>
      (s.engineRead f.cu l via p.p2 p.p2Bytes).operand f p.p2.va fun b2 =>
        if s.upset == some .residue then .go (s.residueStop f)
        else let r := pilotSelect p x b1 b2; .go (s.putManifest f p.maddr p.n r.1 r.2))

/-- PILOT_COMPLETE (R219, R221). -/
def execPilotComplete (k : Nat) (s : State) : Host.Outcome State Fault Refusal :=
  runFlight s k fun f =>
    match f.op, s.launch? f.launch with
    | .pilot p, some l => s.pilotGo f l .home p
    | _, _ => none

/-- MCHK's result register and predicate (R223). -/
def State.mchkResult (s : State) (f : Flight) (m : MchkOp) (count : Nat) (rep : Bool) : State :=
  s.updFlightGroup f fun g =>
    (g.mapLanes f.lanes fun _ t => t.setP m.pd rep).setS m.sc (count + if rep then 4294967296 else 0)

/-- MCHK's effect (R223, R442). It reads the weights of the whole range, so that a fault or a mark of a column that no row of
the bitmap uses takes effect too (log 123). -/
def State.mchkGo (s : State) (f : Flight) (l : Launch) (via : Via) (m : MchkOp) : Option Eng :=
  match m.x, m.map with
  | some x, some map =>
    if s.landingHeld f.id f.team m.raddr (manMS m.n) then none
    else some ((s.engineRead f.cu l via m.w m.wBytes).operand f m.w.va fun w =>
      if s.upset == some .residue then .go (s.residueStop f)
      else
        let r := mchkSelect m x map w
        .go ((s.mchkResult f m r.1.length r.2.1).putManifest f m.raddr m.n r.1 r.2.2))
  | _, _ => none

/-- MCHK_COMPLETE (R223). -/
def execMchkComplete (k : Nat) (s : State) : Host.Outcome State Fault Refusal :=
  runFlight s k fun f =>
    match f.op, s.launch? f.launch with
    | .mchk m, some l => s.mchkGo f l .home m
    | _, _ => none

/-! ### Links and the refetch procedure (R410, R436, R440) -/

/-- A retransmission is a corrected event and counts at its port (R410, R409); `addr` is the physical address of its packet (R429). -/
def State.retransmit (s : State) (port addr : Nat) : State :=
  let n := (lookupKey s.bar0.retries port).getD 0
  let bar := { s.bar0 with retries := insertKey s.bar0.retries port (min (n + 1) 65535) }
  State.corrected { s with bar0 := bar } (256 + port / 6) none { ErrRec.of s 1 0x06 1 with addr := addr }

/-- The team and the line whose part an operation has under way, and the virtual address of that part (R429). -/
def Flight.reading (f : Flight) : Nat × Nat × Nat :=
  match f.op with
  | .copy c =>
    let x := c.todo.headD (f.team, 0)
    (x.1, x.2, (c.pieces.findSome? fun p => p.inLine x.2).elim 0 (·.ref.va))
  | .pilot p => (f.team, 0, p.p1.va)
  | .mchk m => (f.team, 0, m.w.va)
  | _ => (f.team, 0, f.va)

/-- Where a held-back access lies in memory. -/
def LatePart.addr? (p : LatePart) : Option Nat :=
  match p.place with
  | some (.mem a) => some a.addr
  | _ => none

/-- The first physical address that an operation holds back. -/
def FlightOp.addr? : FlightOp → Option Nat
  | .lateLoad _ ls => (ls.flatMap (·.parts)).findSome? LatePart.addr?
  | .lateSload _ ps => ps.findSome? LatePart.addr?
  | .lateAtomic ops => ops.findSome? fun o => o.part.addr?
  | .lateStore _ ls => ls.findSome? fun l => match l.place with
    | .mem a => some a.addr
    | _ => none
  | _ => none

/-- The physical address at which a memory reference begins, where it has one: of a view, that of its first element (R311). -/
def State.refAddr (s : State) (f : Flight) (r : MemRef) : Option Nat :=
  match r with
  | .mem va => (match s.translate f.cu f.ctx va .read with
    | .ok p => if isView va then none else some p.addr
    | _ => none)
  | .view _ d off => (match s.mapElem f.cu f.cu f.ctx .module .read d off 1 with
    | .at_ p _ _ => some p.addr
    | _ => none)

/-- The physical address of the memory that an operation accesses next (R429); none of one that accesses none, or that does not know
yet which. -/
def State.physOf (s : State) (f : Flight) : Option Nat :=
  match f.op with
  | .copy c => (c.pieces.findSome? fun p => p.inLine (c.todo.headD (f.team, 0)).2).bind fun p => s.refAddr f p.ref
  | .pilot p => s.refAddr f p.p1
  | .mchk m => s.refAddr f m.w
  | .view v => if v.fn = 0 then s.refAddr f (.mem v.eb.toNat) else (s.ctx? f.ctx).map fun c => c.desc.vtbase + 128 * v.view
  | .load _ => s.refAddr f (.mem f.va)
  | .sload _ _ => s.refAddr f (.mem f.va)
  | .atomic _ => s.refAddr f (.mem f.va)
  | .convoy _ => s.refAddr f (.mem f.va)
  | op => op.addr?

/-- The physical address of the packets of an operation (R429): a free value where it has none (log 128). -/
def State.linkAddr (s : State) (f : Option Flight) : Nat := (f.bind s.physOf).getD (Config.freeAddr s.free).toNat

/-- FLIT_CHECK_FAIL (R410, R436): the link retransmits; where three retransmissions have failed, each of them counted, the
victim's data goes to the refetch procedure, and a victim that writes is sent once more. -/
def execFlitCheckFail (port : Nat) (victim : Option Nat) (s : State) : Host.Outcome State Fault Refusal :=
  if 24 ≤ port then .next s
  else
    let a := s.linkAddr (victim.bind s.flight?)
    let again := ({ s with free := s.free + 1 }).retransmit port a
    match victim.bind s.flight? with
    | none => .next again
    | some f =>
      if f.fault.isSome || f.refetch.isSome then .next s
      else
        let r := f.reading
        .next (((again.retransmit port a).retransmit port a).updFlight f.id fun f => { f with refetch := some ⟨r.1, r.2.1, .link port, a⟩ })

/-- An operation in flight has read something, or will. -/
def FlightOp.readsData : FlightOp → Bool
  | .lateStore _ _ => false
  | _ => true

/-- The sender's check of what an operation reads fails at the boundary of the DRAM, the LLC, or the L1 or scratchpad (R430, R436): the data
is discarded, and the read goes to the refetch procedure. ADDR is physical where DRAM or the LLC found it. -/
def State.readFail (s : State) (k source : Nat) : State :=
  match s.flight? k with
  | none => s
  | some f =>
    if source = 0 || 3 < source || f.fault.isSome || f.refetch.isSome || !f.op.readsData then s
    else
      let r := f.reading
      State.updFlight { s with free := s.free + 1 } k fun f =>
        { f with refetch := some ⟨r.1, r.2.1, .boundary source, if source = 3 then r.2.2 else s.linkAddr (some f)⟩ }

/-- The unit at whose boundary the sender's check fails: a CU, or the base die of a device address (R430, R432). -/
def boundaryUnit (source cu addr : Nat) : Nat := if source = 3 then cu else 256 + addr / 2 ^ 36 / 3

/-- The SOURCE of a refetch and the unit whose window counts its success (R430, R432). -/
def Refetch.source (r : Refetch) : Nat :=
  match r.why with
  | .hash => 0x0A
  | .link _ => 0x06
  | .boundary x => x
def Refetch.unit (r : Refetch) (f : Flight) : Nat :=
  match r.why with
  | .hash => f.cu
  | .link p => 256 + p / 6
  | .boundary x => boundaryUnit x f.cu r.addr

/-- Do again, from `via`, the part of an operation whose data failed. -/
def State.redo (s : State) (f : Flight) (r : Refetch) (via : Via) : Option Eng :=
  match f.op, s.launch? f.launch with
  | .copy c, some l =>
    if c.kind = .cpyo then (if via = .home then s.outLine f c r.team r.line else none) else s.landLine f l c via r.team r.line
  | .pilot p, some l => s.pilotGo f l via p
  | .mchk m, some l => s.mchkGo f l via m
  | _, _ => none

/-- The data of a refetch has come (R440): the operation goes on, and one corrected event is counted. -/
def State.refetched (s : State) (f : Flight) (r : Refetch) (action : Nat) (e : Eng) : State :=
  match e with
  | .go t => t.corrected (r.unit f) (some f.ctx) (s.flightRec f 1 r.source action r.addr)
  | e => s.endEng f e

/-- The refetch procedure gives up (R436, R440, R246). -/
def State.refetchFails (s : State) (f : Flight) (r : Refetch) : State :=
  match f.op with
  | .convoy c => s.failConvoy f c 2 r.addr
  | _ => (s.stopConsumed f.launch (s.flightRec f 2 r.source 4 r.addr)).abandon f

/-- The second step of the procedure: the replica. -/
def State.fromReplica (s : State) (f : Flight) (r : Refetch) : State :=
  match s.redo f r (if r.why = .hash then .either else .replica) with
  | some (.hash _ _) => s.refetchFails f r
  | some e => s.refetched f r 3 e
  | none => s.refetchFails f r

/-- An operation that takes the data that its access gave: it does no part again. -/
def FlightOp.plain : FlightOp → Bool
  | .copy _ => false
  | .pilot _ => false
  | .mchk _ => false
  | _ => true

/-- REFETCH (R440): the same address, then the replica, then the report; `linkOk` says whether the link or the
boundary delivers the refetch. A part that may not be done now waits. -/
def execRefetch (k : Nat) (linkOk : Bool) (s : State) : Host.Outcome State Fault Refusal :=
  match s.flight? k, (s.flight? k).bind (·.refetch) with
  | some f0, some r =>
    let f := { f0 with refetch := none }
    let s1 := s.updFlight k fun f => { f with refetch := none }
    let lost := r.why != .hash && !linkOk
    if f.op.plain then .next (if lost then s1.refetchFails f r else s1.refetched f r 2 (.go s1))
    else match s1.redo f r .home with
      | none => .next s
      | some (.hash _ _) => .next (s1.fromReplica f r)
      | some e => .next (if lost then s1.fromReplica f r else s1.refetched f r 2 e)
  | _, _ => .next s

end Sys2Proof.Machine
end

