-- ==== Sys2Proof/Machine/Uniform.lean ====
section
/-!
DEFINITION. Uniform instructions (R125 to R127): one execution for the issuing key, on 64-bit values modulo
2^64.
-/
namespace Sys2Proof.Machine

/-- Shift left by an unsigned amount (R126). -/
def shl64 (a n : Nat) : Nat := if 64 ≤ n then 0 else a * 2 ^ n % 2 ^ 64

/-- Shift right by an unsigned amount (R126). -/
def shr64 (a n : Nat) : Nat := if 64 ≤ n then 0 else a / 2 ^ n

/-- Arithmetic shift right by an unsigned amount (R126). -/
def sar64 (a n : Nat) : Nat := wrap 64 (signed 64 a / (2 : Int) ^ (min n 63))

/-- SADD (R126). -/
def execSadd (d a b : BitVec 6) (s : State) : Host.Outcome State Fault Refusal :=
  uniOp s (.sadd d a b) d fun e => (e.sv a.toNat + e.sv b.toNat) % 2 ^ 64

/-- SSUB (R126). -/
def execSsub (d a b : BitVec 6) (s : State) : Host.Outcome State Fault Refusal :=
  uniOp s (.ssub d a b) d fun e => wrap 64 ((e.sv a.toNat : Int) - e.sv b.toNat)

/-- SMUL (R126). -/
def execSmul (d a b : BitVec 6) (s : State) : Host.Outcome State Fault Refusal :=
  uniOp s (.smul d a b) d fun e => e.sv a.toNat * e.sv b.toNat % 2 ^ 64

/-- SAND (R126). -/
def execSand (d a b : BitVec 6) (s : State) : Host.Outcome State Fault Refusal :=
  uniOp s (.sand d a b) d fun e => e.sv a.toNat &&& e.sv b.toNat

/-- SOR (R126). -/
def execSor (d a b : BitVec 6) (s : State) : Host.Outcome State Fault Refusal :=
  uniOp s (.sor d a b) d fun e => e.sv a.toNat ||| e.sv b.toNat

/-- SXOR (R126). -/
def execSxor (d a b : BitVec 6) (s : State) : Host.Outcome State Fault Refusal :=
  uniOp s (.sxor d a b) d fun e => e.sv a.toNat ^^^ e.sv b.toNat

/-- SSHL (R126). -/
def execSshl (d a b : BitVec 6) (s : State) : Host.Outcome State Fault Refusal :=
  uniOp s (.sshl d a b) d fun e => shl64 (e.sv a.toNat) (e.sv b.toNat)

/-- SSHR (R126). -/
def execSshr (d a b : BitVec 6) (s : State) : Host.Outcome State Fault Refusal :=
  uniOp s (.sshr d a b) d fun e => shr64 (e.sv a.toNat) (e.sv b.toNat)

/-- SSAR (R126). -/
def execSsar (d a b : BitVec 6) (s : State) : Host.Outcome State Fault Refusal :=
  uniOp s (.ssar d a b) d fun e => sar64 (e.sv a.toNat) (e.sv b.toNat)

/-- SMOV (R126). -/
def execSmov (d a : BitVec 6) (s : State) : Host.Outcome State Fault Refusal :=
  uniOp s (.smov d a) d fun e => e.sv a.toNat

/-- SCMP (R126): the conditions of ICMP at 64 bits. -/
def execScmp (d a b : BitVec 6) (c : ICmp) (s : State) : Host.Outcome State Fault Refusal :=
  uniOp s (.scmp d a b c) d fun e => if icmpHolds c 64 (e.sv a.toNat) (e.sv b.toNat) then 1 else 0

/-- SSEL (R126). -/
def execSsel (d a b : BitVec 6) (s : State) : Host.Outcome State Fault Refusal :=
  uniOp s (.ssel d a b) d fun e => if e.sv d.toNat ≠ 0 then e.sv a.toNat else e.sv b.toNat

/-- The immediate of SAND.I, SOR.I and SXOR.I: zero-extended (R91), or the wide one (R100). -/
def immSIz (h : Hints) (i : BitVec 13) : Nat := h.wide64 i.toNat i.toNat

/-- SADD with an immediate (R127). -/
def execSaddImm (d a : BitVec 6) (i : BitVec 13) (s : State) : Host.Outcome State Fault Refusal :=
  uniOp s (.saddImm d a i) d fun e => (e.sv a.toNat + immSI e.h i) % 2 ^ 64

/-- SAND with an immediate (R127). -/
def execSandImm (d a : BitVec 6) (i : BitVec 13) (s : State) : Host.Outcome State Fault Refusal :=
  uniOp s (.sandImm d a i) d fun e => e.sv a.toNat &&& immSIz e.h i

/-- SOR with an immediate (R127). -/
def execSorImm (d a : BitVec 6) (i : BitVec 13) (s : State) : Host.Outcome State Fault Refusal :=
  uniOp s (.sorImm d a i) d fun e => e.sv a.toNat ||| immSIz e.h i

/-- SXOR with an immediate (R127). -/
def execSxorImm (d a : BitVec 6) (i : BitVec 13) (s : State) : Host.Outcome State Fault Refusal :=
  uniOp s (.sxorImm d a i) d fun e => e.sv a.toNat ^^^ immSIz e.h i

/-- SSHL by an immediate amount (R127). -/
def execSshlImm (d a : BitVec 6) (n : BitVec 6) (s : State) : Host.Outcome State Fault Refusal :=
  uniOp s (.sshlImm d a n) d fun e => shl64 (e.sv a.toNat) (e.h.amount n.toNat)

/-- SSHR by an immediate amount (R127). -/
def execSshrImm (d a : BitVec 6) (n : BitVec 6) (s : State) : Host.Outcome State Fault Refusal :=
  uniOp s (.sshrImm d a n) d fun e => shr64 (e.sv a.toNat) (e.h.amount n.toNat)

/-- SSAR by an immediate amount (R127). -/
def execSsarImm (d a : BitVec 6) (n : BitVec 6) (s : State) : Host.Outcome State Fault Refusal :=
  uniOp s (.ssarImm d a n) d fun e => sar64 (e.sv a.toNat) (e.h.amount n.toNat)

/-- SMOVI (R127). -/
def execSmovi (d : BitVec 6) (i : BitVec 13) (s : State) : Host.Outcome State Fault Refusal :=
  uniOp s (.smovi d i) d fun e => immSI e.h i

end Sys2Proof.Machine
end

