-- ==== Sys2Proof/Machine/Views.lean ====
section
/-!
DEFINITION. The view instructions (R183 to R188): their issue, and the completion of VSET, VBASE and VQRY.
-/
namespace Sys2Proof.Machine

/-- View number and scope of a view instruction (R183). -/
def viewOf (va : Nat) : Nat := field va 0 12
def viewScope (va : Nat) : Scope := Scope.ofCode (field va 12 3)

/-- Condition of the view operand (R165, R183). -/
def Env.viewCond (e : Env) (a : BitVec 6) (take : List Nat) : List Cond :=
  condIf (field (e.sv a.toNat) 15 49 != 0) 0x17 (e.low take)

/-- Put a view command in flight with its operands as read (R188), and what it sampled of its view. -/
def Env.flyView (e : Env) (s : State) (fn : Nat) (a : BitVec 6) (eb ec : Nat) (c : BitVec 6) (d : Option ViewDesc) : State :=
  e.fly s (.view { fn := fn, view := viewOf (e.sv a.toNat), eb := BitVec.ofNat 64 eb, ec := BitVec.ofNat 64 ec, sd := c.toNat,
                   scope := viewScope (e.sv a.toNat), sampled := d })

/-- VSET (R184): the image's address is checked and translated at issue. -/
def execVset (a b c : BitVec 6) (l : BitVec 4) (s : State) : Host.Outcome State Fault Refusal :=
  runWord s (.vset a b c l)
    (fun e take =>
      let va := e.sv b.toNat
      e.viewCond a take ++ condIf (!canonical va || isView va) 0x10 (e.low take) ++ condIf (va % 128 != 0) 0x11 (e.low take))
    fun e s1 =>
      match s1.translate e.iss.cu e.l.ctx (e.sv b.toNat) .read with
      | .fault k => .stall k (e.sv b.toNat) .read false 3
      | .poison => .freezes (e.sv b.toNat)
      | .ok _ => .go (e.flyView s1 0 a (e.sv b.toNat) 0 c none)

/-- VBASE (R185). -/
def execVbase (a b c : BitVec 6) (l : BitVec 4) (s : State) : Host.Outcome State Fault Refusal :=
  runWord s (.vbase a b c l) (fun e take => e.viewCond a take) fun e s1 => .go (e.flyView s1 1 a (e.sv b.toNat) (e.sv c.toNat) c none)

/-- VINV (R186). -/
def execVinv (a : BitVec 6) (l : BitVec 4) (s : State) : Host.Outcome State Fault Refusal :=
  runWord s (.vinv a l) (fun e take => e.viewCond a take) fun e s1 => .go (s1.dropView e.l.ctx (viewOf (e.sv a.toNat)))

/-- The address of a view entry (R306). -/
def State.viewEntry (s : State) (ctx view : Nat) : PAddr := ⟨.dram, ((s.ctx? ctx).map (·.desc.vtbase)).getD 0 + 128 * view⟩

/-- VQRY (R187): it samples its view at issue (R318). -/
def execVqry (a b c : BitVec 6) (l : BitVec 4) (s : State) : Host.Outcome State Fault Refusal :=
  runWord s (.vqry a b c l)
    (fun e take => e.viewCond a take ++ condIf (field (e.sv b.toNat) 40 24 != 0) 0x17 (e.low take))
    fun e s1 => match s1.sample e.iss.cu e.l.ctx (viewOf (e.sv a.toNat)) with
      | (none, _) => .freezes (s1.viewEntry e.l.ctx (viewOf (e.sv a.toNat))).addr
      | (some d, s2) => .go (e.flyView s2 3 a (e.sv b.toNat) 0 c d)

/-! ### Completion -/

/-- A descriptor image is accepted (R184). -/
def imageOk (self : Nat) (bs : List Byte) : Bool :=
  if (viewOfBytes bs).valid then (viewOfBytes bs).configured self else bs.all (· == 0)

/-- The end of a view command: its result is written and it leaves (R188). -/
def State.endView (s : State) (f : Flight) (v : ViewOp) (res : Nat) : State :=
  (s.updFlightGroup f fun g => g.setS v.sd res).dropFlight f.id

/-- VSET's effect (R184). An image read at DIE scope or wider leaves no older copy in the L1 (R336; log 111). -/
def State.doVset (s : State) (f : Flight) (v : ViewOp) : Eng :=
  match s.translate f.cu f.ctx v.eb.toNat .read with
  | .fault k => .stall k v.eb.toNat .read false 3
  | .poison => .freezes v.eb.toNat
  | .ok p =>
    let parts := (List.range 4).map fun i => s.peek f.cu v.scope ⟨p.space, p.addr + 32 * i⟩ 32
    let bs := parts.flatMap (·.1)
    let s1 := s.acquire f.cu v.scope
    if parts.any (·.2) then .consume v.eb.toNat
    else if imageOk s.bar0.nodeid bs then
      .go (((s1.storePhys (s1.viewEntry f.ctx v.view) bs false).dropView f.ctx v.view).endView f v 0)
    else .go (s1.endView f v 1)

/-- VBASE's effect (R185). -/
def State.doVbase (s : State) (f : Flight) (v : ViewOp) : Eng :=
  let at_ := s.viewEntry f.ctx v.view
  let r := s.loadPhys at_ 128
  let d := viewOfBytes r.1
  let ver := d.version.toNat
  if r.2 then .freezes at_.addr
  else if !(d.configured s.bar0.nodeid && ver == field v.ec.toNat 0 32) then .go (s.endView f v ver)
  else if !d.baseOk v.eb.toNat then .go (s.endView f v (ver + 2 ^ 33))
  else
    .go (((s.storePhys at_ (leBytes 8 v.eb.toNat ++ leBytes 4 (ver + 1)) false).dropView f.ctx v.view).endView f v (ver + 2 ^ 32))

/-- The result for a code of R187. -/
def qryCode (cc : Nat) : Nat := 2 ^ 63 + cc

/-- VQRY's effect (R187), by the sample of its issue (R318). -/
def State.doVqry (s : State) (f : Flight) (v : ViewOp) : Eng :=
  match v.sampled with
  | none => .go (s.endView f v (qryCode 1))
  | some d =>
    match d.coords v.eb.toNat with
    | none => .go (s.endView f v (qryCode 4))
    | some (c, b) =>
      let answer := fun (t : State) (idx : Nat) => match d.place c b idx with
        | .code cc => Eng.go (t.endView f v (qryCode cc))
        | .padded => .go (t.endView f v (qryCode 3))
        | .at_ a => .go (t.endView f v a)
      match d.indexAddr c with
      | none => answer s 0
      | some a =>
        match s.indexWord f.cu f.cu f.ctx v.scope d a with
        | .ok idx => answer (s.acquire f.cu v.scope) idx
        | .error (.xl k va far _) => .stall k va .read far 3
        | .error (.poison va) => .consume va
        | .error (.tablePoison va) => .freezes va
        | .error _ => .go (s.endView f v (qryCode 5))

/-- VIEW_COMMAND_COMPLETE (R184, R185, R187, R188). -/
def execViewCommandComplete (k : Nat) (s : State) : Host.Outcome State Fault Refusal :=
  runFlight s k fun f =>
    match f.op with
    | .view v => some (if v.fn = 0 then s.doVset f v else if v.fn = 1 then s.doVbase f v else s.doVqry f v)
    | _ => none

end Sys2Proof.Machine
end

