-- ==== Sys2Proof/Machine/Late.lean ====
section
/-!
DEFINITION. Late accesses (R322, R328, R330, R335; log 7): the moment at which memory or scratchpad takes a store or performs an
atomic that its issue held back, and what each word of a program settles before it takes effect, so that a thread's accesses keep the order of R328.
-/
namespace Sys2Proof.Machine

/-! ### Landing -/

/-- Two stores lie in one sector of memory. -/
def LateStore.sameSector (a b : LateStore) : Bool :=
  match a.place, b.place with
  | .mem p, .mem q => p.sector == q.sector
  | _, _ => false

/-- Memory, or a team's scratchpad, takes one store, of ZFILL where `zero`; `rest` are those of the operation that are left (R168, R175,
R301, R433). -/
def State.takeStore (s : State) (cu : Nat) (zero : Bool) (rest : List LateStore) (l : LateStore) : State :=
  match l.place with
  | .mem p =>
    let t := s.storeCached cu p (l.bytes.map (·.1))
    if zero && !rest.any l.sameSector then t.endZero cu p else t
  | .scr t off => s.landBytes t (l.bytes.zipIdx.map fun x => (off + x.2, x.1.1, x.1.2))

/-- Memory takes what is left of an operation's stores, in lane order. -/
def State.takeStores (cu : Nat) (zero : Bool) : List LateStore → State → State
  | [], s => s
  | l :: r, s => State.takeStores cu zero r (s.takeStore cu zero r l)

/-- Two ranges share a byte (R328). -/
def LateSite.meets (a : LateSite) (n : Nat) (b : LateSite) (m : Nat) : Bool :=
  match a, b with
  | .mem p, .mem q => p.space == q.space && overlap p.addr n q.addr m
  | .scr t i, .scr u j => t == u && overlap i n j m
  | _, _ => false

/-- A store touches some bytes. -/
def LateStore.meets (l : LateStore) (p : LateSite) (n : Nat) : Bool := l.place.meets l.bytes.length p n

/-- A part of an access touches some bytes. -/
def LatePart.meets (x : LatePart) (p : LateSite) (n : Nat) : Bool := x.place.any fun a => a.meets x.len p n

/-- A part of a load is still to be read. -/
def LatePart.waits (x : LatePart) : Bool := x.place.isSome && x.got.isNone

/-- Part `k` of a lane's load may be read by itself: it has not been, and the lane's earlier element accesses have (R312). -/
def mayReadPart (ps : List LatePart) (k : Nat) : Bool :=
  (ps[k]?).any fun x => x.waits && !ps.any fun m => m.waits && m.elem < x.elem

/-- What part `k` has read. -/
def putPart (ps : List LatePart) (k : Nat) (bs : List Byte) : List LatePart :=
  ps.mapIdx fun i x => if i = k then { x with got := some bs } else x

/-- The load to which part `k` of some loads belongs, counted over their lanes, and which of its parts that is. -/
def latePartAt : List LateLoad → Nat → Option (LateLoad × Nat)
  | [], _ => none
  | l :: r, k => if k < l.parts.length then some (l, k) else latePartAt r (k - l.parts.length)

/-- The loads with what part `k` has read. -/
def putLate (bs : List Byte) : List LateLoad → Nat → List LateLoad
  | [], _ => []
  | l :: r, k =>
    if k < l.parts.length then { l with parts := putPart l.parts k bs } :: r else l :: putLate bs r (k - l.parts.length)

/-- Two atomics of an issue touch a common byte. -/
def LateRmw.meets (o m : LateRmw) : Bool := m.part.place.any fun p => o.part.meets p m.part.len

/-- Atomic `k` of those that an operation holds back is performed, unless an earlier one of the issue on its bytes waits (R177). -/
def State.performRmw (s : State) (f : Flight) (ops : List LateRmw) (k : Nat) : State :=
  match ops[k]? with
  | none => s
  | some o =>
    if o.got.isSome || (ops.take k).any fun m => m.got.isNone && m.meets o then s
    else
      let x := s.rmwSite f.cu o.part o.rmw.new
      x.2.2.lateRead f (if x.2.1 then some o.part.va else none) fun t =>
        t.updFlight f.id fun g => { g with op := .lateAtomic (ops.set k { o with got := some x.1 }) }

/-- Part `k` of a lane's load is read, and the operation goes on with it; a mark in it stops the launch (R315, R326, R328, R434). -/
def State.readPart (s : State) (f : Flight) (sc : Scope) (ps : List LatePart) (k : Nat) (act : List Byte → FlightOp) : State :=
  if !mayReadPart ps k then s
  else match ps[k]? with
    | none => s
    | some x => match x.place with
      | none => s
      | some a =>
        let r := s.readSite f.cu sc a x.len
        r.2.2.lateRead f (if r.2.1 then some x.va else none) fun t => t.updFlight f.id fun g => { g with op := act r.1 }

/-- Part `k` of some late loads is read, where a lane's parts may be read apart. -/
def State.performLoad (s : State) (f : Flight) (sc : Scope) (ls : List LateLoad) (k : Nat) : State :=
  match latePartAt ls k with
  | none => s
  | some (l, j) => if l.apart then s.readPart f sc l.parts j fun bs => .lateLoad sc (putLate bs ls k) else s

/-- A store of an issue may not land before another: they share a byte, and land in lane order (R168), or they belong to element
accesses of one lane, which take effect in ascending view offset (R312). -/
def LateStore.first (m l : LateStore) : Bool := m.meets l.place l.bytes.length || (m.lane == l.lane && m.elem < l.elem)

/-- Memory takes store `k` of those that an operation holds back: stores of one issue land in any order but where one comes first
(R168, R312, R328); or atomic `k` is performed, or part `k` of its loads. A store that its link has to send again waits for
that (R436). -/
def State.landStore (s : State) (id k : Nat) : State :=
  match s.flight? id with
  | none => s
  | some f =>
    if f.refetch.isSome then s
    else match f.op with
    | .lateStore zero ls =>
      (match ls[k]? with
       | none => s
       | some l =>
         if (ls.take k).any fun m => m.first l then s
         else
           let rest := ls.eraseIdx k
           let t := s.takeStore f.cu zero rest l
           if rest.isEmpty then t.dropFlight id else t.updFlight id fun g => { g with op := .lateStore zero rest })
    | .lateAtomic ops => s.performRmw f ops k
    | .lateLoad sc ls => s.performLoad f sc ls k
    | .lateSload r ps => s.readPart f .thread ps k fun bs => .lateSload r (putPart ps k bs)
    | _ => s

/-- An operation holds accesses back. -/
def FlightOp.isLate : FlightOp → Bool
  | .lateLoad _ ls => ls.any fun l => l.parts.any LatePart.waits
  | .lateStore _ _ => true
  | .lateAtomic ops => ops.any (·.got.isNone)
  | .lateSload _ ps => ps.any LatePart.waits
  | .lateHold _ _ => true
  | _ => false

/-- What an operation holds back is performed now: its stores and atomics in lane order, its loads with what they read. -/
def State.settleFlight (s : State) (id : Nat) : State :=
  match s.flight? id with
  | none => s
  | some f =>
    match f.op with
    | .lateStore zero ls => (State.takeStores f.cu zero ls s).dropFlight id
    | .lateLoad sc ls => s.readNow f sc ls fun t ws => t.updFlight id fun g => { g with op := .load ws }
    | .lateAtomic ops => s.rmwNow f ops fun t ws => t.updFlight id fun g => { g with op := .atomic ws }
    | .lateSload r ps => s.readUni f ps fun t v => t.updFlight id fun g => { g with op := .sload r v }
    | .lateHold h base => s.readHold f h base
    | _ => s

/-- Settle the operations that hold accesses back and satisfy `p`, the earliest first. -/
def State.settleLate (s : State) (p : Flight → Bool) : State :=
  (s.flights.filter fun f => f.op.isLate && p f).foldl (fun t f => t.settleFlight f.id) s

/-! ### What a word accesses -/

/-- Some bytes, where they lie. -/
abbrev Places := List (LateSite × Nat)

/-- What a word names: a range of addresses with the kind and the scope of its access, or of the team's scratchpad. -/
inductive Named where
  | mem (acc : Access) (scope : Scope) (ea : Int) (len : Nat)
  | scr (off len : Nat)
  /-- A descriptor of a view (R306). -/
  | view (num : Nat)
  deriving DecidableEq, Repr

/-- The bytes of memory that some elements stand for. -/
def elemPlaces (es : List Elem) : Places :=
  es.filterMap fun e => match e with
    | .at_ p _ n => some (.mem p, n)
    | _ => none

/-- Index words of a range of a view (R314). -/
def State.indexPlaces (s : State) (unit ctx : Nat) (d : ViewDesc) (off n : Nat) : Places :=
  (d.spans off n).filterMap fun r => (d.coords r.1).bind fun c => (d.indexAddr c.1).bind fun a =>
    if !usableVA a then none
    else match s.translateView unit ctx d a .read with
      | .ok p => some (.mem p, 4)
      | _ => none

/-- The memory reference of an address that a word names. -/
def Env.refOf (e : Env) (ea : Int) : Option MemRef := (goodVA ea).bind (e.sampled e.s [ea]).1.ref

/-- The bytes that a word names, as far as they translate now. -/
def Env.places (e : Env) (x : Named) : Places :=
  match x with
  | .scr off n => [(.scr e.team.id off, n)]
  | .view v => [(.mem ⟨.dram, ((e.s.ctx? e.l.ctx).elim 0 (·.desc.vtbase)) + 128 * v⟩, 128)]
  | .mem acc sc ea n =>
    match e.refOf ea with
    | none => []
    | some (.mem a) => elemPlaces ((runsOf 4096 a n).map fun r => e.s.plainElem e.iss.cu e.l.ctx r.1 r.2 acc)
    | some (.view _ d off) => elemPlaces ((d.spans off n).map fun r => e.s.mapElem e.iss.cu e.iss.cu e.l.ctx sc acc d r.1 r.2)

/-- The index words that a word reads (R314, R328). -/
def Env.indexWords (e : Env) (x : Named) : Places :=
  match x with
  | .mem _ _ ea n => (match e.refOf ea with
    | some (.view _ d off) => e.s.indexPlaces e.iss.cu e.l.ctx d off n
    | _ => [])
  | _ => []

/-- Accesses of the lanes of a word. -/
def laneNames (acc : Access) (sc : Scope) (n : Nat) (as : List LaneEA) : List Named := as.map fun a => .mem acc sc a.2 n
def scrNames (n : Nat) (as : List LaneEA) : List Named := as.map fun a => .scr a.2.toNat n

/-- What a CPYRW may read and writes: each row of its range, its manifest, its destination (R194). -/
def RowCopy.names (r : RowCopy) (va : Nat) : List Named :=
  .scr r.man (manMS r.rows) :: .scr r.dst (r.kmax * r.rowlen) ::
    (List.range r.rows).map fun i => .mem .read .module ((va + i * r.stride : Nat) : Int) r.rowlen

/-- What an engine command of the pilot unit accesses (R219, R223). -/
def Env.pilotNames (e : Env) (top : Bool) (a b c : BitVec 6) : List Named :=
  let p := pilotOf top (e.sv a.toNat) (e.sv (a.toNat + 1)) e.l.slots
  [.scr p.xaddr (2 * p.dm), .scr p.maddr (manMS p.n), .mem .read .module (e.sv b.toNat) p.p1Bytes, .mem .read .module (e.sv c.toNat) p.p2Bytes]
def Env.mchkNames (e : Env) (a b c : BitVec 6) : List Named :=
  let m := mchkOf (fun k => e.sv (a.toNat + k)) c.toNat e.l.slots
  [.scr m.xaddr (2 * m.dm), .scr m.maddr (manMS m.n), .scr m.raddr (manMS m.n), .mem .read .module (e.sv b.toNat) m.wBytes]

/-- What a collective accesses on this member (R242, R245). -/
def Env.convoyNames (e : Env) (a : BitVec 6) : List Named :=
  let x := e.convoyArgs a
  let p := (((e.s.ctx? e.l.ctx).map fun c => e.s.convoyGroup c x.group).bind (·.good?)).elim 1 (·.members)
  [.mem .read .pod x.src x.len, .mem .write .pod x.dst (destLen x.op x.len p)] ++ if x.norm then [.mem .write .pod x.norma 8] else []

/-- Entries of the return stack that a word accesses (R41). -/
def Env.stackNames (e : Env) (acc : Access) (as : List LaneEA) : List Named :=
  if e.stackMem then laneNames acc .thread 8 as else scrNames 8 as

/-- The offset of HDRN's weights (R215). -/
def Env.hdrnNames (e : Env) (fn : Nat) (a b c : BitVec 6) : List Named :=
  [.scr (hdrnOf fn (e.sv a.toNat) (e.sv b.toNat) (e.sv c.toNat)).waddr 8192]

/-- The accesses of an instruction word as it would make them now (R322). -/
def Env.names (e : Env) (i : Instr) : List Named :=
  match i with
  | .ldB _ o b _ sc _ => laneNames .read sc 1 (e.eas .lane b (.code o 1))
  | .ldH _ o b _ sc _ => laneNames .read sc 2 (e.eas .lane b (.code o 1))
  | .ldW _ o b _ sc _ => laneNames .read sc 4 (e.eas .lane b (.code o 1))
  | .ldD _ o b _ sc _ => laneNames .read sc 8 (e.eas .lane b (.code o 1))
  | .ldQ _ o b _ sc _ => laneNames .read sc 16 (e.eas .lane b (.code o 1))
  | .stB _ o b _ sc _ => laneNames .write sc 1 (e.eas .lane b (.code o 1))
  | .stH _ o b _ sc _ => laneNames .write sc 2 (e.eas .lane b (.code o 1))
  | .stW _ o b _ sc _ => laneNames .write sc 4 (e.eas .lane b (.code o 1))
  | .stD _ o b _ sc _ => laneNames .write sc 8 (e.eas .lane b (.code o 1))
  | .stQ _ o b _ sc _ => laneNames .write sc 16 (e.eas .lane b (.code o 1))
  | .zfill o b _ sc _ => laneNames .write sc 128 (e.eas .lane b (.code o 1))
  | .atom _ _ v b _ sc _ => laneNames .atomic sc 4 (e.eas .lane b (.block v.toNat 1))
  | .atomFadd _ v b _ sc _ => laneNames .atomic sc 4 (e.eas .lane b (.block v.toNat 1))
  | .atomD _ _ v b _ sc _ => laneNames .atomic sc 8 (e.eas .lane b (.block v.toNat 1))
  | .fxadd _ v b _ sc _ => laneNames .atomic sc 8 (e.eas .lane b (.block v.toNat 1))
  | .sld _ a i => laneNames .read .thread 8 (e.uniEA a i)
  | .sst _ a i => laneNames .write .thread 8 (e.uniEA a i)
  | .ldl _ o b _ z => scrNames (sizeBytes z) (e.sas .lane b (.code o 1))
  | .stl _ o b _ z => scrNames (sizeBytes z) (e.sas .lane b (.code o 1))
  | .ldt _ o b _ => scrNames 16 (e.sas .lane b (.code o 1))
  | .atoml _ o b _ _ => scrNames 4 (e.sas .lane b (.code o 1))
  | .hldScratch _ b _ => [.scr (e.scrBase b) 8192]
  | .hstScratch _ b _ => [.scr (e.scrBase b) 8192]
  | .mma _ _ b f _ _ => [.scr (e.scrBase b) (mmaTB false (slotAt e.l.slots f))]
  | .mmah _ _ b f _ _ => [.scr (e.scrBase b) (mmaTB false (slotAt e.l.slots f))]
  | .mmas _ _ b f _ _ => [.scr (e.scrBase b) (mmaTB true (slotAt e.l.slots f))]
  | .hdrn a b c _ => e.hdrnNames 0 a b c
  | .hdrnMom a b c _ => e.hdrnNames 1 a b c
  | .hdrnSq a b c _ => e.hdrnNames 2 a b c
  | .cpy d o b _ z => (e.cpyLanes d o b).flatMap fun x => [.mem .read .module x.2.1 (copyBytes z), .scr x.2.2 (copyBytes z)]
  | .cpym a b _ _ => [.mem .read .module (e.sv a.toNat) (goodLen (e.sv b.toNat)), .scr (field (e.sv b.toNat) 0 20) (goodLen (e.sv b.toNat))]
  | .cpyo a b _ => [.mem .write .module (e.sv a.toNat) (goodLen (e.sv b.toNat)), .scr (field (e.sv b.toNat) 0 20) (goodLen (e.sv b.toNat))]
  | .cpyrw a b c _ => (rowCopyOf (e.sv b.toNat) (e.sv c.toNat) (.mem 0)).names (e.sv a.toNat)
  | .pilotGt a b c _ => e.pilotNames false a b c
  | .pilotTop a b c _ => e.pilotNames true a b c
  | .mchk a b c _ => e.mchkNames a b c
  | .cvoy a _ _ _ => e.convoyNames a
  | .vqry a _ _ _ => [.view (viewOf (e.sv a.toNat))]
  | .call p n _ => e.stackNames .write (e.callSlots (e.chosen p n))
  | .callr _ => e.stackNames .write (e.callSlots e.lanes)
  | .ret => e.stackNames .read e.retSlots
  | _ => []

/-! ### What a word settles -/

/-- How a word's accesses stand to the accesses of its threads that are held back (R328). -/
inductive MemOrder where
  /-- It orders no accesses; those that it makes read alone. -/
  | reads
  /-- It also writes, or starts an engine command: it comes after what a fence has put before later writes. -/
  | writes
  /-- A FENCE: every earlier load comes before it where `acquire`, and what is held back before every later write where
  `release` (R181, R335). -/
  | fence (acquire release : Bool)
  /-- It comes after every earlier access. -/
  | all
  deriving DecidableEq, Repr

/-- The order of a store or an atomic (R87, R332): a release comes after every earlier access. -/
def writeOrder (r : Bool) : MemOrder := if r then .all else .writes

/-- How a word orders memory (R87, R181, R322, R328, R330, R334, R335). A release side of R334 is a release (log 7). -/
def memOrder (i : Instr) : MemOrder :=
  match i with
  | .stB _ _ _ _ _ r => writeOrder r
  | .stH _ _ _ _ _ r => writeOrder r
  | .stW _ _ _ _ _ r => writeOrder r
  | .stD _ _ _ _ _ r => writeOrder r
  | .stQ _ _ _ _ _ r => writeOrder r
  | .zfill _ _ _ _ r => writeOrder r
  | .atom _ _ _ _ _ _ r => writeOrder r
  | .atomFadd _ _ _ _ _ r => writeOrder r
  | .atomD _ _ _ _ _ _ r => writeOrder r
  | .fxadd _ _ _ _ _ r => writeOrder r
  | .sst _ _ _ | .stl _ _ _ _ _ | .atoml _ _ _ _ _ | .hstScratch _ _ _ | .call _ _ _ | .callr _ => .writes
  | .mma _ _ _ _ _ _ | .mmah _ _ _ _ _ _ | .mmas _ _ _ _ _ _ | .hdrn _ _ _ _ | .hdrnMom _ _ _ _ | .hdrnSq _ _ _ _ => .writes
  | .cpy _ _ _ _ _ | .cpym _ _ _ _ | .cpyo _ _ _ | .cpyrw _ _ _ _ | .pilotGt _ _ _ _ | .pilotTop _ _ _ _ | .mchk _ _ _ _ |
    .cvoy _ _ _ _ | .vqry _ _ _ _ => .writes
  | .fence .acquire _ => .fence true false
  | .fence .release _ => .fence false true
  | .fence .acqRel _ => .all
  | .vset _ _ _ _ | .vbase _ _ _ _ | .vinv _ _ | .csig _ _ _ | .spawn _ _ _ _ | .park _ _ _ _ | .bar _ _ | .bara _ _ | .gbar |
    .shw _ _ _ => .all
  | _ => .reads

/-- An operation was issued by threads of this issue. -/
def Env.mine (e : Env) (f : Flight) : Bool := f.order == e.g.order && (f.lanes &&& e.iss.lanes) != 0

/-- An operation holds back an access to some of these bytes. -/
def FlightOp.touches (op : FlightOp) (ps : Places) : Bool :=
  match op with
  | .lateStore _ ls => ls.any fun l => ps.any fun p => l.meets p.1 p.2
  | .lateLoad _ ls => ls.any fun l => l.parts.any fun x => x.waits && ps.any fun p => x.meets p.1 p.2
  | .lateAtomic ops => ops.any fun o => o.got.isNone && ps.any fun p => o.part.meets p.1 p.2
  | .lateSload _ xs => xs.any fun x => x.waits && ps.any fun p => x.meets p.1 p.2
  | _ => false

/-- The same for what HLD holds back, whose team the flight names. -/
def Flight.touches (f : Flight) (ps : Places) : Bool :=
  f.op.touches ps || (match f.op with
    | .lateHold _ base => ps.any fun p => (LateSite.scr f.team base).meets 8192 p.1 p.2
    | _ => false)

/-- An operation holds back stores alone. -/
def FlightOp.lateStores : FlightOp → Bool
  | .lateStore _ _ => true
  | _ => false

/-- An operation holds back writes. -/
def FlightOp.lateWrites : FlightOp → Bool
  | .lateStore _ _ => true
  | .lateAtomic ops => ops.any (·.got.isNone)
  | _ => false

/-- Scratchpad that a word locks as it issues (R190, R204, R292): what it will write, whose lines it clears, and what it only reads. -/
def Env.claims (e : Env) (i : Instr) : Places × Places :=
  let here := fun (off n : Nat) => (LateSite.scr e.team.id off, n)
  let sv := fun (a : BitVec 6) => e.sv a.toNat
  let hdrn := fun (fn : Nat) (a b c : BitVec 6) => here (hdrnOf fn (sv a) (sv b) (sv c)).waddr 8192
  let pilot := fun (top : Bool) (a : BitVec 6) =>
    let p := pilotOf top (sv a) (e.sv (a.toNat + 1)) e.l.slots
    ([here p.maddr (manMS p.n)], [here p.xaddr (2 * p.dm)])
  match i with
  | .cpy d o b _ z => ((e.cpyRuns d o b z).map fun r => here r.1 r.2, [])
  | .cpym _ b c _ => ((e.castTeams (sv c)).map fun t => (.scr t.id (field (sv b) 0 20), goodLen (sv b)), [])
  | .cpyo _ b _ => ([], [here (field (sv b) 0 20) (goodLen (sv b))])
  | .cpyrw _ b c _ => let r := rowCopyOf (sv b) (sv c) (.mem 0); ([here r.dst (r.kmax * r.rowlen)], [])
  | .hdrn a b c _ => ([hdrn 0 a b c], [])
  | .hdrnMom a b c _ => ([hdrn 1 a b c], [])
  | .hdrnSq a b c _ => ([hdrn 2 a b c], [])
  | .pilotGt a _ _ _ => pilot false a
  | .pilotTop a _ _ _ => pilot true a
  | .mchk a _ c _ =>
    let m := mchkOf (fun k => e.sv (a.toNat + k)) c.toNat e.l.slots
    ([here m.raddr (manMS m.n)], [here m.xaddr (2 * m.dm), here m.maddr (manMS m.n)])
  | .mma _ _ b f _ _ => ([], [here (e.scrBase b) (mmaTB false (slotAt e.l.slots f))])
  | .mmah _ _ b f _ _ => ([], [here (e.scrBase b) (mmaTB false (slotAt e.l.slots f))])
  | .mmas _ _ b f _ _ => ([], [here (e.scrBase b) (mmaTB true (slotAt e.l.slots f))])
  | _ => ([], [])

/-- Any thread's accesses to scratchpad that are held back come before a word locks its bytes (R290, R293, R341): all of them before
their lines are cleared, and those that write before they are only read. -/
def Env.settleClaims (e : Env) (i : Instr) : State :=
  let c := e.claims i
  e.s.settleLate fun f => f.touches c.1 || (f.op.lateWrites && f.touches c.2)

/-! ### Early reads -/

/-- A word of a thread leaves standing what the thread has read early: it orders no later load after it (R328), and brings no value
that another thread has released (R334). -/
def keepsEarly (i : Instr) (sh : Shape) : Bool :=
  match sh.cls with
  | .a => true
  | .l => true
  | .g => true
  | .u => true
  | .m => (match i with
    | .ldB _ _ _ _ _ r => !r
    | .ldH _ _ _ _ _ r => !r
    | .ldW _ _ _ _ _ r => !r
    | .ldD _ _ _ _ _ r => !r
    | .ldQ _ _ _ _ _ r => !r
    | .stB _ _ _ _ _ _ => true
    | .stH _ _ _ _ _ _ => true
    | .stW _ _ _ _ _ _ => true
    | .stD _ _ _ _ _ _ => true
    | .stQ _ _ _ _ _ _ => true
    | .zfill _ _ _ _ _ => true
    | .stl _ _ _ _ _ => true
    | .pref _ _ _ => true
    | .atom _ _ _ _ _ _ r => !r
    | .atomFadd _ _ _ _ _ r => !r
    | .atomD _ _ _ _ _ _ r => !r
    | .fxadd _ _ _ _ _ r => !r
    | _ => false)
  | _ => (match i with
    | .bra _ _ _ => true
    | .jmp _ => true
    | .nop => true
    | _ => false)

/-- The address that a word names lies in a view (R162). -/
def Named.inView : Named → Bool
  | .mem _ _ ea _ => (goodVA ea).any isView
  | .scr _ _ => false
  | .view _ => true

/-- What was read early still stands once a word issues (R328, R329, R334): the word writes no register that its address comes from,
and, but for the load itself, the threads of its lane make no access to its bytes and take no sample of a view. -/
def Env.keeps (e : Env) (i : Instr) (r : EarlyRead) : Bool :=
  let sh := e.shape i
  if r.order != e.g.order then true
  else if meets sh.swr r.sregs then false
  else if !e.lanes.contains r.lane then true
  else
    keepsEarly i sh && !((e.thread r.lane).any fun t => meets (e.namesOf sh.writes t) r.regs) &&
    (r.pc == e.iss.pc || (!(e.names i).any Named.inView && !((e.names i).flatMap e.places).any fun p => r.part.meets p.1 p.2))

/-- What was read early and no longer stands is forgotten. -/
def Env.forgetEarly (e : Env) (i : Instr) : State := { e.s with early := e.s.early.filter (e.keeps i) }

/-! ### The order of an issue -/

/-- What a release fence puts before later writes (R181, R335). -/
def Env.setFences (e : Env) (s : State) : State :=
  { s with flights := s.flights.map fun f => if e.mine f && f.op.isLate then { f with fenced := true } else f }

/-- What the threads of an issue have held back and the word may not pass is performed (R328). -/
def Env.settleFor (e : Env) (i : Instr) : State :=
  let ps := (e.names i).flatMap e.places
  match memOrder i with
  | .reads => e.s.settleLate fun f => e.mine f && f.touches ps
  | .writes => e.s.settleLate fun f => e.mine f && (f.touches ps || f.fenced)
  | .fence acquire release =>
    let s1 := if acquire then e.s.settleLate fun f => e.mine f && !f.op.lateStores else e.s
    if release then e.setFences s1 else s1
  | .all => e.s.settleLate e.mine

/-- The index words that a word reads come after the threads' own accesses to them (R314, R328). -/
def Env.settleIndex (e : Env) (i : Instr) : State :=
  let ps := (e.names i).flatMap e.indexWords
  e.s.settleLate fun f => e.mine f && f.touches ps

/-- Go on with the current issue. -/
def State.withEnv (s : State) (act : Env → State) : State := (s.env?).elim s act

/-- The machine as the current issue finds it for a word (R328): only what was read early goes where nothing is held back. -/
def State.orderFor (s : State) (i : Instr) : State :=
  let t := s.withEnv (·.forgetEarly i)
  if t.flights.any (·.op.isLate) then
    ((t.withEnv (·.settleClaims i)).withEnv (·.settleIndex i)).withEnv (·.settleFor i)
  else t

end Sys2Proof.Machine
end

