-- ==== Sys2Proof/Machine/Fabric.lean ====
section
/-!
DEFINITION. What other modules ask of this one: remote accesses served by the home controller (R321, R412) and packets
forwarded to other nodes (R411).
-/
namespace Sys2Proof.Machine

/-- Answer a remote request (log 14): data with its mark, or nothing for a refusal. -/
def State.answer (s : State) (bs : List Byte) (bad : Bool) : State := { s with reply := bs, replyBad := bad }

/-- A physical remote request lies in device DRAM (R412). -/
def remoteOk (addr len : Nat) : Bool := len != 0 && addr + len ≤ 0xC000000000

/-- A remote atomic of `n` bytes (R177, R412). -/
def State.remoteAtomic (s : State) (addr n : Nat) (f : Nat → Nat) : State :=
  if !remoteOk addr n || addr % n != 0 then s.answer [] true
  else
    let x := s.loadPhys ⟨.dram, addr⟩ n
    if x.2 then s.answer x.1 true
    else (s.storePhys ⟨.dram, addr⟩ (leBytes n (f (leNat x.1))) false).answer x.1 false

/-- Serve a physical read or write within device DRAM. -/
def State.remoteRead (s : State) (addr len : Nat) : State :=
  if !remoteOk addr len then s.answer [] true
  else
    let parts := (runsOf 4096 addr len).map fun r => s.loadPhys ⟨.dram, r.1⟩ r.2
    s.answer (parts.flatMap (·.1)) (parts.any (·.2))
def State.remoteWrite (s : State) (addr : Nat) (bs : List Byte) : State :=
  if remoteOk addr bs.length then (s.storeMarked ⟨.dram, addr⟩ (bs.map fun b => (b, false))).answer [] false else s.answer [] true

/-- The context that a tag names (R412). -/
def State.ctxOfTag (s : State) (tag : Nat) : Option Ctx :=
  s.ctxs.find? fun c => bitOf c.desc.fabtag 15 && field c.desc.fabtag 0 12 == tag

/-- A descriptor that a request carries, as this module maps it (R321): its addresses are addresses here. -/
def farDesc (desc : List Byte) : ViewDesc :=
  let d := viewOfBytes desc
  { d with ctrl := d.ctrl &&& 0x000BFFFF }

/-- A translation fault of a remote request stalls it (R398, R412): ACCESS 4, a walk for another requester. -/
def State.farFault (s : State) (c : Ctx) (r : RemoteReq) (node cause va : Nat) : State :=
  s.addFault c.id false { XFault.of (.remote r) cause va .read 6 with access := 4, node := node }

/-- A point of a view is written in part by the accesses of one issue (R317). -/
def State.farGran (s : State) (c : Ctx) (d : ViewDesc) (accs : List (Nat × Nat)) : Bool :=
  let els := accs.flatMap fun a => (d.elems a.1 a.2).map fun p => (0, 0, d.base, s.elemAddr 256 0 c.id .module d p.1 p.2, p.2)
  let bytes := granBytes els
  d.gran != 0 && !granUnknown els && bytes.any fun b => partPoint bytes 0 d.gran b.2.2

/-- Serve a request of one issue through a remote view (R321): every element access, by offset and length, is checked before
any is performed. A view fault or a format-granule fault is answered, and raised at the issuing instruction. -/
def State.farView (s : State) (r : RemoteReq) (node tag : Nat) (desc : List Byte) (accs : List (Nat × Nat)) (acc : Access)
    (act : List (List Elem) → State) : State :=
  match s.ctxOfTag tag with
  | none => s.answer [] true
  | some c =>
    let d := farDesc desc
    let ess := accs.map fun a => (d.elems a.1 a.2).map fun p => s.mapElem 256 0 c.id .module acc d p.1 p.2
    let es := ess.flatMap id
    if es.contains .viewFault || (acc != .read && (d.readOnly || s.farGran c d accs)) ||
        (acc == .atomic && accs.any fun a => a.2 != 2 ^ d.esz) then s.answer [] true
    else match stallOf acc es with
      | some (.stall k _ _ _ agent) => s.farFault c r node k (if agent = 3 then d.gidx else d.base)
      | some (.freezes a) => s.freeze c.id { ErrRec.of s 3 0x16 7 with addr := a }
      | some _ => s.answer [] true
      | none => act ess

/-- Bytes of mapped elements, and whether a sector of them is marked. -/
def State.farRead (s : State) : List Elem → List Byte × Bool
  | [] => ([], false)
  | .at_ p _ n :: r => let x := s.loadPhys p n; let y := s.farRead r; (x.1 ++ y.1, x.2 || y.2)
  | .pad n :: r => let y := s.farRead r; (List.replicate n 0 ++ y.1, y.2)
  | _ :: r => s.farRead r

/-- Write bytes to mapped elements. -/
def State.farWrite (s : State) : List Elem → List Byte → State
  | [], _ => s
  | .at_ p _ n :: r, bs => (s.storePhys p (bs.take n) false).farWrite r (bs.drop n)
  | .pad n :: r, bs => s.farWrite r (bs.drop n)
  | _ :: r, bs => s.farWrite r bs

/-- Atomics of one issue on mapped elements, in order (R177): the old values, and whether one met a mark. -/
def State.farAtomics (s : State) (n : Nat) : List (List Elem × (Nat → Nat)) → List Byte × Bool × State
  | [] => ([], false, s)
  | (.at_ p _ _ :: _, f) :: r =>
    let x := s.loadPhys p n
    let y := (if x.2 then s else s.storePhys p (leBytes n (f (leNat x.1))) false).farAtomics n r
    (x.1 ++ y.1, x.2 || y.2.1, y.2.2)
  | _ :: r => let y := s.farAtomics n r; (List.replicate n 0 ++ y.1, y.2.1, y.2.2)

/-- What a remote atomic makes of the old value (R176, R178). -/
def farNew (op : LAtomOp) (wide : Bool) (v cmp : BitVec 64) (old : Nat) : Nat :=
  match op with
  | .op o => if wide then atomNew o 64 old v.toNat cmp.toNat else atomNew o 32 old (v.toNat % 2 ^ 32) (cmp.toNat % 2 ^ 32)
  | .fadd => faddNew old (v.toNat % 2 ^ 32)

/-- Serve a request of another module (R177, R179, R321, R412). -/
def State.serveRemote (s : State) (r : RemoteReq) : State :=
  match r with
  | .read _ addr len => s.remoteRead addr len
  | .write _ addr bs => s.remoteWrite addr bs
  | .atomic _ addr op wide v cmp => s.remoteAtomic addr (if wide then 8 else 4) (farNew op wide v cmp)
  | .fxadd _ addr n => s.remoteAtomic addr 8 fun old => fxaddNew old n.toNat
  | .viewRead node tag desc reads =>
    s.farView r node tag desc reads .read fun ess => let x := s.farRead (ess.flatMap id); s.answer x.1 x.2
  | .viewWrite node tag desc writes =>
    s.farView r node tag desc (writes.map fun w => (w.1, w.2.length)) .write fun ess =>
      ((ess.zip writes).foldl (fun t x => t.farWrite x.1 x.2.2) s).answer [] false
  | .viewAtomic node tag desc op wide ops =>
    let n := if wide then 8 else 4
    s.farView r node tag desc (ops.map fun o => (o.1, n)) .atomic fun ess =>
      let x := s.farAtomics n (ess.zip (ops.map fun o => farNew op wide o.2.1 o.2.2))
      x.2.2.answer x.1 x.2.1
  | .viewFxadd node tag desc ops =>
    s.farView r node tag desc (ops.map fun o => (o.1, 8)) .atomic fun ess =>
      let x := s.farAtomics 8 (ess.zip (ops.map fun o => fun old => fxaddNew old o.2.toNat))
      x.2.2.answer x.1 x.2.1

/-- REMOTE_REQUEST (R177, R179, R321, R412). -/
def execRemoteRequest (r : RemoteReq) (s : State) : Host.Outcome State Fault Refusal :=
  .next (if s.power then s.serveRemote r else s)

/-- PACKET_FORWARD (R411): `hops` is the count that is left. The packet leaves with one less; one whose count is used up, or
that has no port to leave by, is dropped, and its requester is told cause 5 (log 14). -/
def execPacketForward (node hops : Nat) (s : State) : Host.Outcome State Fault Refusal :=
  if !s.power || node = s.bar0.nodeid then .next s
  else match s.routePorts node, hops with
    | p :: _, h + 1 => .next { s with sent := s.sent ++ [(p, node, h)] }
    | _, _ => .next (s.answer [5] true)

end Sys2Proof.Machine
end

