-- ==== Sys2Proof/Machine/Launches.lean ====
section
/-!
DEFINITION. Launch records and LAUNCH nodes (R369 to R375, R437, R438), the room that a team needs (R276 to R278,
R377), the placement of teams (R376, R378), the reservation (R377, R378), and the end of a launch (R382 to R384,
R443, R444).
-/
namespace Sys2Proof.Machine

/-! ### The record (R369 to R372) -/

/-- A shared-window declaration (R371). -/
def winOf (x : Nat) : Win :=
  { valid := bitOf x 15, prole := field x 13 2, crole := field x 11 2, pbase := 8 * field x 7 4, cbase := 8 * field x 3 4,
    wn := 8 * (field x 0 3 + 1) }

/-- The header of a record (R369). -/
def headerOf (r : List Byte) : Header :=
  { entry := numAt r 0 8, gx := numAt r 8 4, gy := numAt r 12 4, gz := numAt r 16 4, flags := numAt r 20 4,
    roles := (List.range 4).map fun q => (field (numAt r 24 8) (16 * q + 8) 6, field (numAt r 24 8) (16 * q) 5),
    scr := numAt r 32 4, split := numAt r 36 1, ht := numAt r 37 1,
    wins := (List.range 4).map fun w => winOf (field (numAt r 40 8) (16 * w) 16),
    rsbase := numAt r 48 8, consta := numAt r 56 8, nconst := numAt r 64 4, btimer := numAt r 68 4, ring := numAt r 72 8,
    ringlog := numAt r 80 1, bregm := numAt r 81 1, wdg := numAt r 84 4, snapa := numAt r 88 8, nsnap := numAt r 96 4,
    done0 := numAt r 100 2, done1 := numAt r 102 2, cumask := numAt r 104 8 }

/-- ROLEW keeps its limits (R369, R372). -/
def rolesOk (rolew : Nat) (h : Header) : Bool :=
  let n := h.roles.countP (·.1 != 0)
  (List.range 4).all (fun q => let w := field rolew (16 * q) 16
    field w 14 2 == 0 && field w 5 3 == 0 && field w 8 6 ≤ 32 && ((field w 8 6 != 0) == decide (q < n)) && (q < n || w == 0)) &&
  1 ≤ n && (h.roles.foldl (fun m r => m + r.1) 0) ≤ 32

/-- The header keeps its limits (R369, R370, R374). -/
def headerOk (r : List Byte) (h : Header) : Bool :=
  let zero := fun (a n : Nat) => ((r.drop a).take n).all (· == 0)
  let addr := fun (a : Nat) => a == 0 || plainVA a
  let whole := fun (a n : Nat) => a == 0 || plainVA (a + n - 1)
  zero 38 2 && zero 82 2 && zero 112 16 && plainVA h.entry && h.entry % 4 == 0 &&
  [h.rsbase, h.consta, h.ring, h.snapa, h.cumask].all addr && whole h.cumask 32 && (h.nsnap == 0 || whole h.snapa (64 * h.nsnap)) &&
  h.gx < 2 ^ 21 && h.gy < 2 ^ 21 && h.gz < 2 ^ 21 && h.total ≤ 2 ^ 32 && h.flags < 256 && rolesOk (numAt r 24 8) h &&
  h.scr % 4096 == 0 && h.scr ≤ 2 ^ 20 && 1 ≤ h.split && h.split ≤ 8 && h.ht ≤ 32 &&
  h.consta % 8 == 0 && h.nconst ≤ 8192 && h.ring % 64 == 0 && h.ringlog ≤ 16 && h.bregm ≤ 31 && h.snapa % 8 == 0 && h.nsnap ≤ 256 &&
  (List.range 4).all fun w => bitOf (numAt r 40 8) (16 * w + 15) || field (numAt r 40 8) (16 * w) 16 == 0

/-- Name ranges that declared windows give a role (R371). -/
def Header.winNames (h : Header) (q : Nat) : List (Nat × Nat) :=
  h.wins.flatMap fun w =>
    if !w.valid then [] else (if w.prole = q then [(w.pbase, w.wn)] else []) ++ (if w.crole = q then [(w.cbase, w.wn)] else [])

/-- Ranges that do not overlap. -/
def apart : List (Nat × Nat) → Bool
  | [] => true
  | a :: as => (as.all fun b => !overlap a.1 a.2 b.1 b.2) && apart as

/-- Window declarations keep R38 and R371. -/
def windowsOk (h : Header) : Bool :=
  (h.wins.all fun w => !w.valid ||
    (let a := (h.roles.getD w.prole (0, 0)).1
     let b := (h.roles.getD w.crole (0, 0)).1
     w.prole != w.crole && a != 0 && a == b && w.pbase + w.wn ≤ 84 && w.cbase + w.wn ≤ 84 &&
       w.pbase + w.wn ≤ h.nreg w.prole && w.cbase + w.wn ≤ h.nreg w.crole)) &&
  (List.range 4).all fun q => apart (h.winNames q)

/-! ### The room that a team needs (R276 to R278) -/

/-- The partition as it stands. -/
def Room.fit (r : Room) : Fit :=
  { part := r.part, free := r.free, slots := r.slots.length, fixed := r.fixed,
    sizes := (r.used.filter fun u => !r.fixed.contains u).map (·.2) }

/-- A partition assignment on a CU as it stands, where everything fits after compaction (R278). -/
def State.fitsOn (s : State) (h : Header) (cu : Nat) : Option Assigned :=
  (s.cu? cu).bind fun c =>
    (assign h h.groups ((List.range 4).map fun p => (s.room cu p).fit) []).bind fun r =>
      if ((List.range 4).all fun p => !(r.1.any (·.2 == p)) || h.ht ≤ s.freeTiles cu p) &&
          s.rangeOpens cu h.scr (s.splitFor c h.split * 131072) then some r.1 else none

/-- Teams that a CU takes as it stands, after compaction, beside `k` that it has taken, at most `n` (R278, R379). -/
def State.teamsGo (s : State) (h : Header) (cu limit : Nat) : Nat → Nat → List Fit → List Nat → Nat
  | 0, _, _, _ => 0
  | n + 1, k, fs, tiles =>
    match assign h h.groups fs [] with
    | none => 0
    | some (a, fs1) =>
      let left := tiles.zipIdx.map fun t => (t.1, a.any (·.2 == t.2))
      if (left.any fun t => t.2 && t.1 < h.ht) || !s.rangesOpen cu (List.replicate (k + 1) h.scr) limit then 0
      else 1 + s.teamsGo h cu limit n (k + 1) fs1 (left.map fun t => if t.2 then t.1 - h.ht else t.1)

/-- Teams of a launch that a CU takes as it stands, after compaction (R278, R379). -/
def State.teamsOn (s : State) (h : Header) (cu : Nat) : Nat :=
  (s.cu? cu).elim 0 fun c => s.teamsGo h cu (s.splitFor c h.split * 131072) 64 0
    ((List.range 4).map fun p => (s.room cu p).fit) ((List.range 4).map (s.freeTiles cu))

/-! ### Refusals (R374, R377) -/

/-- The self-test of a CU has failed (R424). -/
def State.cuFailed (s : State) (u : Nat) : Bool :=
  bitOf s.bar0.go2.toNat (u / 64) && !s.stage2Open.contains (s.physicalCu u) && !s.cuReady.contains u

/-- CUs whose capacity counts for a resident launch (R377). -/
def State.countedCus (s : State) (mask : Nat) : List Nat :=
  (List.range 256).filter fun u => bitOf mask u && (s.cuReady.contains u || (!bitOf s.bar0.stage2Ended.toNat (u / 64) && !s.cuFailed u))

/-- The refusals that depend on which CUs start (R374, R377): none for a zero-team launch (R375). -/
def State.cuRefusals (s : State) (h : Header) (mask : Nat) : List Nat :=
  if h.total = 0 then []
  else
    (if bitOf h.flags 0 && h.capacity * (s.countedCus mask).length < h.total then [6] else []) ++
    (if s.bar0.stage2Ended = 15 && !s.cuReady.any (bitOf mask) then [7] else [])

/-- A STATUS of those that apply (log 18). -/
def State.pickRefusal (s : State) (sts : List Nat) : Nat := sts.getD (Config.freeRefusal s.free % sts.length) 2

/-- What a record gives once it is read and checked. -/
structure Record where
  hdr : Header
  slots : List FSlot
  mask : Nat
  ranges : List Range
  deriving DecidableEq, Repr

/-- The statuses that the 512 bytes of a record earn by themselves (R374). -/
def recordFaults (r : List Byte) (h : Header) (slots : List FSlot) : List Nat :=
  (if headerOk r h then [] else [2]) ++ (if slots.all slotOk then [] else [3]) ++
  (if h.split * 131072 < h.scr || h.capacity = 0 then [4] else []) ++ (if windowsOk h then [] else [5])

/-- Read and check a record (R373, R374, R437, R446). A CU mask or range list that faults or is marked stalls or parks the queue
also where a slot or another part of the record would be refused (log 121). SNAPA = 0 means no list (R369). -/
def State.readRecord (s : State) (ctx va : Nat) : Except HmStop Record :=
  if va % 64 != 0 || !plainVA va || !plainVA (va + 511) then .error (.refuse 2)
  else match s.hmRead ctx va 512 with
    | .error e => .error e
    | .ok r =>
      let h := headerOf r
      let slots := (List.range 8).map fun n => slotOfBytes ((r.drop (128 + 48 * n)).take 48)
      let sts := recordFaults r h slots
      if !headerOk r h then .error (.refuse (s.pickRefusal sts))
      else match (if h.cumask = 0 then .ok (leBytes 32 (2 ^ 256 - 1)) else s.hmRead ctx h.cumask 32) with
        | .error e => .error e
        | .ok m =>
          match s.readRanges ctx h.snapa (if h.snapa = 0 then 0 else h.nsnap) 2 with
          | .error (.refuse _) => .error (.refuse (s.pickRefusal (2 :: sts ++ s.cuRefusals h (leNat m))))
          | .error e => .error e
          | .ok rs =>
            let kept := (s.ctx? ctx).any (·.preserved rs)
            let all := (if kept then [2] else []) ++ sts ++ s.cuRefusals h (leNat m)
            if all.isEmpty then .ok ⟨h, slots, leNat m, rs⟩ else .error (.refuse (s.pickRefusal all))

/-- A tree whose root differs from what the list expects (R438). -/
def State.badRoot (s : State) (ctx : Nat) (rs : List Range) : Except HmStop Bool :=
  (rs.filter (·.kind == 1)).foldl (fun m r => match m with
    | .error e => .error e
    | .ok b => match s.hmRead ctx (r.aux + 32) 32 with
      | .error e => .error e
      | .ok bs => .ok (b || bs != r.root)) (.ok false)

/-- Start a launch from its record (R373 to R375, R438, R443): preservation begins, and a wrong root stops it as a
consumed error before a team is placed. -/
def State.beginLaunch (s : State) (ctx q run node record : Nat) (isAsync : Bool) (replays : Nat) : Except HmStop State :=
  match s.readRecord ctx record with
  | .error e => .error e
  | .ok r =>
    match s.badRoot ctx r.ranges, s.preservePages ctx r.ranges with
    | .error e, _ => .error e
    | _, .error e => .error e
    | .ok bad, .ok pages =>
      let id := s.nextLaunch
      let l : Launch :=
        { id := id, ctx := ctx, queue := q, node := node, run := run, record := record, isAsync := isAsync, hdr := r.hdr, slots := r.slots,
          mask := r.mask, ranges := r.ranges, state := .waiting, nextTeam := 0, order := none, gbarPhase := 0, gbarArrived := [],
          replays := replays, replaying := false, stop := none, claims := false, ringTeams := [] }
      let s1 := { s with launches := s.launches ++ [l], nextLaunch := id + 1 }
      let s2 := if (r.ranges.any (·.kind == 0)) then
          s1.updCtx ctx fun c => { c with preserves := c.preserves ++ [⟨r.hdr.snapa, some id, r.ranges, pages⟩] } else s1
      .ok (if bad then s2.stopConsumed id (ErrRec.ofLaunch s2 l 2 0x0A 4) else s2)

/-- A launch that is refused as it starts (R374): the queue goes on only past an ASYNC node. -/
def State.refuseNode (s : State) (ctx q node next st : Nat) (isAsync : Bool) : State :=
  let s1 := (s.setStatus ctx q node st).updWalk ctx q (·.goto next)
  if isAsync then s1.endGraph ctx q else s1.parkQueue ctx q node st

/-- LAUNCH_NODE (R374, R386, R387, R389). -/
def execLaunchNode (ctx queue : Nat) (s : State) : Host.Outcome State Fault Refusal :=
  nodeEvent s ctx queue 1 fun w r =>
    match s.beginLaunch ctx queue w.run w.node (numAt r 16 8) (nodeAsync r) 0 with
    | .ok t => t.startNode ctx queue w.node (nodeNext r) (nodeAsync r)
    | .error (.refuse st) => { s with free := s.free + 1 }.refuseNode ctx queue w.node (nodeNext r) st (nodeAsync r)
    | .error e => s.stopNode ctx queue w.node (nodeNext r) e

/-! ### Placement (R376, R378) -/

/-- Occupied group slots of a CU (R376). -/
def State.load (s : State) (cu : Nat) : Nat := s.groups.countP (·.cu == cu)

/-- The least-loaded of some CUs on which a team fits, the lower number on a tie (R376). -/
def State.leastLoaded (s : State) (h : Header) (cus : List Nat) : Option Nat :=
  (sortBy (fun a b => s.load a < s.load b || (s.load a == s.load b && a ≤ b)) cus).find? fun u => (s.fitsOn h u).isSome

/-- The launch holds the reservation (R377, R378). -/
def State.holdsReservation (s : State) (l : Launch) : Bool := s.reservation.any (·.launch == l.id)

/-- CUs that the reservation of a launch holds. -/
def State.reservedCus (s : State) (l : Launch) : List Nat :=
  (s.reservation.map fun r => if r.launch = l.id then r.cus else []).getD []

/-- The CUs on which the next team of a nonresident launch may be placed (R376): a holder's team goes to the CU that it
reserved (R378). -/
def State.openCus (s : State) (l : Launch) : List Nat :=
  (s.cus.map (·.num)).filter fun u => s.eligible l u && (!s.holdsReservation l || (s.reservedCus l).contains u)

/-- The CU that takes the next team of a nonresident launch (R376). -/
def State.targetCu (s : State) (l : Launch) : Option Nat := s.leastLoaded l.hdr (s.openCus l)

/-- A saved team of the launch is restored first (R381). -/
def State.hasSaved (s : State) (l : Launch) : Bool := s.saved.any (·.team.launch == l.id)

/-- Put the groups of a new team on their partitions, into slots and blocks that are free now (R254, R277). -/
def placeGroups (rooms : List Room) (a : Assigned) : List (Nat × Nat × Nat) → Option (List (Nat × Nat × Nat × Nat × Nat × Nat))
  | [] => some []
  | (q, i, n) :: r =>
    (a.part q i).bind fun p => (rooms.find? (·.part == p)).bind fun room => (room.take (blockFor n)).bind fun x =>
      (placeGroups (rooms.map fun m => if m.part = p then x.2.2 else m) a r).map fun rest => (q, i, n, p, x.1, x.2.1) :: rest

/-- The threads of a team group (R21). -/
def teamThreads (free : Nat) (h : Header) (nreg linear team : Nat) : List (Option Thread) :=
  (List.range 32).map fun n => some (newThread nreg (freeRegs (free + 256 * n) nreg) (BitVec.ofNat 64 h.entry) team (32 * linear + n))

/-- Place a team on a CU where everything is free now (R276 to R278, R287, R291): the CU's L1 is discarded (R19,
R334), and the first team of a launch finds no cached view entry of its context (R306). -/
def State.placeTeam (s : State) (l : Launch) (cu linear : Nat) : Option State :=
  (s.cu? cu).bind fun c => (s.fitsOn l.hdr cu).bind fun a =>
    let split := s.splitFor c l.hdr.split
    (placeGroups ((List.range 4).map (s.room cu)) a l.hdr.groups).bind fun gs =>
      (takeRange (s.ranges cu fun _ => true) l.hdr.scr (split * 131072)).map fun base =>
        let id := s.nextTeamId
        let parts := (List.range 4).filter fun p => gs.any (·.2.2.2.1 == p)
        let t : Team :=
          { id := id, ctx := l.ctx, launch := l.id, linear := linear, cu := cu, base := base, scr := l.hdr.scr, mem := [], bad := [],
            absent := [], hold := if l.hdr.ht = 0 then [] else parts.map fun p => ⟨p, [], []⟩,
            bars := List.replicate 16 (Bar.start 0), wins := [], order := s.nextOrder }
        let made := gs.zipIdx.map fun g =>
          let (q, i, n, p, slot, blk) := g.1
          { newGroup cu p slot blk n t (some q) i g.2 (s.nextOrder + 1 + g.2) with
            threads := teamThreads (s.free + 8192 * g.2) l.hdr n g.2 linear }
        let s1 := { s with
          teams := s.teams ++ [t], groups := s.groups ++ made, nextTeamId := id + 1,
          nextOrder := s.nextOrder + 1 + gs.length, free := s.free + 8192 * gs.length }
        let s2 := if linear = 0 then { s1 with viewCache := s1.viewCache.filter (·.ctx != l.ctx) } else s1
        (s2.updCu cu fun c => { c with split := split, ctx := some l.ctx, l1 := [] }).updLaunch l.id fun l =>
          { l with state := .running, nextTeam := linear + 1, order := some (l.order.getD s.nextOrder) }

/-- Place the teams of a resident grid on reserved CUs, all or none (R377). -/
def State.placeGrid (l : Launch) (cus : List Nat) : Nat → State → Option State
  | 0, s => some s
  | n + 1, s => (s.leastLoaded l.hdr cus).bind fun u => (s.placeTeam l u (l.hdr.total - (n + 1))).bind fun t => t.placeGrid l cus n

/-- Everything that the launch's next placement needs fits now (R376, R377). -/
def State.placeable (s : State) (l : Launch) : Bool :=
  l.waits && !s.hasSaved l &&
  if l.resident then
    l.hdr.total ≤ l.hdr.capacity * (s.reservedCus l).length && (s.placeGrid l (s.reservedCus l) l.hdr.total).isSome
  else (s.targetCu l).isSome

/-- The pair of a launch has been served (R378). -/
def State.serve (s : State) (l : Launch) : State :=
  { s with served := (s.prioOf l, l.ctx, l.queue) :: s.served.filter (·.1 != s.prioOf l) }

/-- TEAM_PLACE (R376 to R378): the next team of a launch, or the whole of a resident grid; a pair is served with each team (log 129). -/
def execTeamPlace (launch : Nat) (s : State) : Host.Outcome State Fault Refusal :=
  match s.launch? launch with
  | none => .next s
  | some l =>
    if !s.placeable l || !s.firstWith l s.placeable then .next s
    else
      let placed := if l.resident then s.placeGrid l (s.reservedCus l) l.hdr.total
        else (s.targetCu l).bind fun u => s.placeTeam l u l.nextTeam
      .next ((placed.map fun t => ((t.serve l).updLaunch l.id fun l => { l with claims := false }).endReservation l.id).getD s)

/-! ### The reservation (R377, R378) -/

/-- RESERVATION_CLAIM (R377, R378): a nonresident launch that has waited 10 ms becomes a claimant; a free reservation goes to
the claimant that comes first; its holder keeps the CUs that it has and claims others that have become eligible. -/
def execReservationClaim (launch : Nat) (s : State) : Host.Outcome State Fault Refusal :=
  match s.launch? launch with
  | none => .next s
  | some l =>
    if !l.waits || (!l.resident && s.placeable l) then .next s
    else if s.holdsReservation l then .next { s with reservation := some ⟨l.id, s.claimCus l (s.reservedCus l)⟩ }
    else .next ((s.updLaunch l.id fun l => { l with claims := !l.resident }).passReservation)

/-- Take a launch and its preservation out. -/
def State.dropLaunch (s : State) (l : Launch) : State :=
  (State.endReservation { s with launches := s.launches.filter (·.id != l.id) } l.id).endPreserves l.ctx (·.launch == some l.id)

/-- A waiting resident launch can no longer be placed (R377): it is refused with status 6 at that moment. -/
def State.refuseWaiting (s : State) (l : Launch) : State :=
  let s1 := ((s.dropLaunch l).setStatus l.ctx l.queue l.node 6).updWalk l.ctx l.queue (·.leave l.run l.node l.isAsync)
  if l.isAsync then s1.endGraph l.ctx l.queue else s1.parkQueue l.ctx l.queue l.node 6

/-- Refuse every waiting resident launch whose capacities no longer cover its grid (R377). -/
def State.refuseUncovered (s : State) : State :=
  (s.launches.filter fun l => l.waits && l.state == .waiting && (s.cuRefusals l.hdr l.mask).contains 6).foldl (·.refuseWaiting ·) s

/-! ### The end of a launch (R382 to R384, R444) -/

/-- Nothing of the launch is left on a CU or in flight (R274, R283, R382). -/
def State.drained (s : State) (l : Launch) : Bool :=
  !s.teams.any (·.launch == l.id) && !s.groups.any (·.launch == l.id) && !s.flights.any (·.launch == l.id) && !s.hasSaved l &&
  l.ringTeams.isEmpty && s.cus.all fun c => c.berths.all fun b => !b.any (·.launch == l.id)

/-- LAUNCH_COMPLETE (R382, R383): completion, or the end of a stop that is no consumed error. -/
def execLaunchComplete (launch : Nat) (s : State) : Host.Outcome State Fault Refusal :=
  match s.launch? launch with
  | none => .next s
  | some l =>
    if !s.drained l then .next s
    else match l.stop with
      | none =>
        if l.nextTeam < l.hdr.total then .next s
        else .next ((((s.decrement l.ctx (doneCounter l.hdr.done0)).decrement l.ctx (doneCounter l.hdr.done1)).dropLaunch l).completeNode
          l.ctx l.queue l.run l.node l.isAsync 1)
      | some st =>
        if st.consumed then .next s else .next ((s.dropLaunch l).failNode l.ctx l.queue l.run l.node l.isAsync st.status)

/-- Copied pages return to their launch-start contents (R444). -/
def State.restorePages (s : State) (l : Launch) : State :=
  match s.ctx? l.ctx with
  | none => s
  | some c => (c.preserves.filter fun v => v.launch == some l.id).foldl (·.writeBack ·) s

/-- A replay reads the record afresh (R384, R444). -/
def State.replayLaunch (s : State) (l : Launch) : State :=
  match s.beginLaunch l.ctx l.queue l.run l.node l.record l.isAsync (l.replays + 1) with
  | .ok t => t.dropLaunch l
  | .error (.refuse st) => (State.dropLaunch { s with free := s.free + 1 } l).failNode l.ctx l.queue l.run l.node l.isAsync st
  | .error (.marked va) => ((((s.dropLaunch l).setStatus l.ctx l.queue l.node 9).updWalk l.ctx l.queue
      (·.leave l.run l.node l.isAsync))).parkMarked l.ctx l.queue l.node va
  | .error (.table va) => s.freezeTable l.ctx l.queue l.node va
  | .error (.fault k va acc) => s.stallQueue l.ctx l.queue (.replay l.id) k va acc

/-- The read of a launch for its replay waits for the host (R384, R399). -/
def State.replayStalled (s : State) (l : Launch) : Bool :=
  (s.ctx? l.ctx).any fun c => c.faults.any fun x => x.who == .queue l.queue (.replay l.id)

/-- LAUNCH_REPLAY (R384, R431, R444): pages are written back, then the replay begins, with a record of CLASS 2 and
the SOURCE of the stop (log 145), or the queue parks. -/
def execLaunchReplay (launch : Nat) (s : State) : Host.Outcome State Fault Refusal :=
  match s.launch? launch, (s.launch? launch).bind (·.stop) with
  | some l, some st =>
    let q := s.queue? l.ctx l.queue
    if !st.consumed || !s.drained l || s.replayStalled l then .next s
    else if q.any (·.1.frozen) then .next (s.dropLaunch l)
    else if l.replaying then (if q.any fun c => c.1.errq.isEmpty then .next (s.replayLaunch l) else .next s)
    else
      let s1 := (s.restorePages l).endPreserves l.ctx (·.launch == some l.id)
      if l.replays < field l.hdr.flags 4 2 then
        .next ((s1.report (some l.ctx) (ErrRec.ofLaunch s1 l 2 st.source 5)).updLaunch l.id fun l => { l with replaying := true })
      else .next ((s1.dropLaunch l).failNode l.ctx l.queue l.run l.node l.isAsync 9)
  | _, _ => .next s

end Sys2Proof.Machine
end

