-- ==== Sys2Proof/Machine/Commands.lean ====
section
/-!
DEFINITION. The command queue of a context (R401 to R404): the command at HEAD, its checks, its STATUS, and the effect of
each command. What a resumed or abandoned translation fault does to its requester (R166, R386, R399, R400).
-/
namespace Sys2Proof.Machine

/-! ### The queue (R401) -/

/-- Physical address of the command at HEAD. -/
def State.commandAt (s : State) (c : Ctx) : Nat :=
  c.desc.cmdbase + 64 + 64 * (s.dram.num c.desc.cmdbase 8 % 2 ^ c.desc.cqlog)

/-- The command at HEAD, while one waits; none of a queue whose header has a nonzero reserved byte (R16; log 109). A
mark on it is ignored (log 144). -/
def State.command? (s : State) (c : Ctx) : Option (List Byte) :=
  if !s.headerClean c.desc.cmdbase || s.dram.num c.desc.cmdbase 8 = s.dram.num (c.desc.cmdbase + 8) 8 then none else some (s.dram.read (s.commandAt c) 64)

/-- STATUS, then HEAD (R401). -/
def State.answerCommand (s : State) (c : Ctx) (st : Nat) : State :=
  let head := s.dram.num c.desc.cmdbase 8
  (s.storePhys ⟨.dram, s.commandAt c + 4⟩ (leBytes 4 st) false).storePhys ⟨.dram, c.desc.cmdbase⟩ (leBytes 8 (head + 1)) false

/-- First byte past the body of a command; none for a reserved OP (R402). -/
def commandEnd (op : Nat) : Option Nat :=
  if op = 1 then some 24 else if op = 2 then some 13 else if op = 3 ∨ op = 4 then some 9 else if op = 5 then some 12
  else if op = 6 then some 8 else none

/-- The values of a command's body are in range (R402). -/
def commandLimits (r : List Byte) : Bool :=
  let op := numAt r 0 1
  if op = 1 then numAt r 8 8 % 4096 == 0 && canonical (numAt r 8 8) && numAt r 16 8 != 0 && numAt r 16 8 % 4096 == 0
  else if op = 2 then numAt r 12 1 ≤ 1
  else if op = 3 ∨ op = 4 then numAt r 8 1 ≤ 15
  else if op = 5 then numAt r 8 2 < 1024 && numAt r 10 1 ≤ 15 && numAt r 11 1 ≤ 2
  else true

/-- A command is well formed (R402). -/
def commandOk (r : List Byte) : Bool :=
  (commandEnd (numAt r 0 1)).any fun n => numAt r 1 3 == 0 && (r.drop n).all (· == 0) && commandLimits r

/-- A well-formed command that satisfies `p` runs: `act` gives the machine and the STATUS. -/
def commandEvent (s : State) (ctx : Nat) (p : List Byte → Bool) (act : Ctx → List Byte → State × Nat) :
    Host.Outcome State Fault Refusal :=
  match s.ctx? ctx with
  | none => .next s
  | some c => match s.command? c with
    | none => .next s
    | some r =>
      if commandOk r && p r then let t := act c r; .next (t.1.answerCommand c t.2) else .next s

/-- MALFORMED_COMMAND (R402): STATUS 2. -/
def execMalformedCommand (ctx : Nat) (s : State) : Host.Outcome State Fault Refusal :=
  match s.ctx? ctx with
  | none => .next s
  | some c => match s.command? c with
    | none => .next s
    | some r => if commandOk r then .next s else .next (s.answerCommand c 2)

/-! ### INVPT and VINVALL -/

/-- Drop every translation-cache entry of a context that meets a range (R404). -/
def State.invalidate (s : State) (ctx va len : Nat) : State :=
  { s with tlb := s.tlb.filter fun t => !(t.ctx == ctx && overlap t.va t.size va len) }

/-- INVPT (R404): what the context's threads have held back has been performed before it completes. -/
def execInvpt (ctx : Nat) (s : State) : Host.Outcome State Fault Refusal :=
  commandEvent s ctx (fun r => numAt r 0 1 == 1) fun _ r =>
    ((s.settleLate (·.ctx == ctx)).invalidate ctx (numAt r 8 8) (numAt r 16 8), 1)

/-- VINVALL (R402). -/
def execVinvall (ctx : Nat) (s : State) : Host.Outcome State Fault Refusal :=
  commandEvent s ctx (fun r => numAt r 0 1 == 6) fun _ _ => ({ s with viewCache := s.viewCache.filter (·.ctx != ctx) }, 1)

/-! ### FRESUME (R400) -/

/-- A pending fault of a context. -/
def Ctx.fault? (c : Ctx) (fid : Nat) : Option XFault := c.faults.find? (·.fid == fid)

/-- The fault is answered. -/
def State.dropFault (s : State) (ctx fid : Nat) : State :=
  s.updCtx ctx fun c => { c with faults := c.faults.filter (·.fid != fid) }

/-- A thread that a fault stalls issues again (R166). -/
def Thread.unstall (fid : Nat) (t : Thread) : Thread := if t.wait = .fault fid then { t with wait := .ready } else t

/-- The threads of a group that a fault stalls issue again. -/
def Group.unstall (fid : Nat) (g : Group) : Group := { g with threads := g.threads.map (Option.map (Thread.unstall fid)) }

/-- The threads of an issue that a fault stalls issue again, those of saved groups too. -/
def State.unstallIssue (s : State) (ctx fid : Nat) : State :=
  let own := fun (g : Group) => (s.launch? g.launch).any (·.ctx == ctx)
  let wake := fun (g : Group) => if own g then g.unstall fid else g
  { s with groups := s.groups.map wake, saved := s.saved.map fun v => { v with groups := v.groups.map wake } }

/-- An operation in flight goes on, in a saved team too. -/
def State.unstallFlight (s : State) (k : Nat) : State :=
  let free := fun (f : Flight) => if f.id = k then { f with fault := none } else f
  { s with flights := s.flights.map free, saved := s.saved.map fun v => { v with flights := v.flights.map free } }

/-- A queue goes on with what a fault has held up: the node is read again, a replay reads its record again, or the statuses that
the queue owes are written again (R384, R386). -/
def State.unstallQueue (s : State) (ctx q : Nat) (work : QueueWork) : State :=
  match work with
  | .node => s.updQueue ctx q fun x => { x with fault := none }
  | .replay _ => s
  | .status =>
    let owed := ((s.queue? ctx q).map (·.2.owed)).getD []
    (owed.foldl (fun t x => t.setStatus ctx q x.1 x.2) (s.updQueue ctx q fun x => { x with owed := [] })).endGraph ctx q

/-- RETRY (R400): the requester runs again. -/
def State.retryFault (s : State) (ctx : Nat) (x : XFault) : State :=
  let s1 := s.dropFault ctx x.fid
  match x.who with
  | .issue _ _ _ _ => s1.unstallIssue ctx x.fid
  | .flight k => s1.unstallFlight k
  | .queue q work => s1.unstallQueue ctx q work
  | .ring _ _ => s1
  | .remote r => s1.serveRemote r

/-- The end of an abandoned fault of a launch (R400). -/
def stop11 : Stop := { status := 11, consumed := false, source := 0x11 }

/-- ABANDON of an operation in flight (R246, R400). -/
def State.abandonFlight (s : State) (k addr : Nat) : State :=
  match s.flight? k with
  | none => s
  | some f => match f.op with
    | .convoy c => (s.failConvoy f c 3 addr).stopLaunch f.launch stop11
    | _ => (s.stopLaunch f.launch stop11).abandon f

/-- ABANDON of a read of a node, or of what it names (R386, R389, R400): a node that started ends with STATUS 11; the queue parks. -/
def State.abandonNode (s : State) (ctx q : Nat) : State :=
  let s1 := s.updQueue ctx q fun x => { x with fault := none }
  match (s.queue? ctx q).bind (·.2.walk) with
  | none => s1.parkQueue ctx q 0 11
  | some w =>
    if w.phase = .reading then ((s1.setStatus ctx q w.node 11).updWalk ctx q fun w => w.goto w.next).parkQueue ctx q w.node 11
    else s1.parkQueue ctx q w.node 11

/-- ABANDON of a write of a STATUS (R386): it is lost to STAT2, and the queue parks; those that wait behind it are written. -/
def State.abandonStatus (s : State) (ctx q : Nat) : State :=
  match (s.queue? ctx q).elim [] (·.2.owed) with
  | [] => s
  | o :: os =>
    let s1 := (s.updQueue ctx q fun x => { x with owed := [] }).parkQueue ctx q o.1 o.2
    os.foldl (fun t x => t.setStatus ctx q x.1 x.2) s1

/-- ABANDON of the read of a launch for its replay (R384): the launch's node ends with STATUS 11. -/
def State.abandonReplay (s : State) (ctx q launch : Nat) : State :=
  match s.launch? launch with
  | none => s
  | some l => (s.dropLaunch l).failNode ctx q l.run l.node l.isAsync 11

/-- ABANDON of a harbourmaster access (R384, R386, R389, R400), by what the fault met. -/
def State.abandonQueue (s : State) (ctx q : Nat) (work : QueueWork) : State :=
  match work with
  | .node => s.abandonNode ctx q
  | .replay l => s.abandonReplay ctx q l
  | .status => s.abandonStatus ctx q

/-- ABANDON (R400). -/
def State.abandonFault (s : State) (ctx : Nat) (x : XFault) : State :=
  let s1 := s.dropFault ctx x.fid
  match x.who with
  | .issue _ _ _ _ => x.launch.elim s1 fun l => s1.stopLaunch l stop11
  | .flight k => x.launch.elim s1 fun l => (s1.abandonFlight k x.va).stopLaunch l stop11
  | .queue q work => s1.abandonQueue ctx q work
  | .ring _ l => s1.stopLaunch l stop11
  | .remote _ => s1.answer [] true

/-- The far host answers a fault that its module reported for a request of this one (R412). -/
def State.farResume (s : State) (ctx fid : Nat) (abandon : Bool) : State :=
  match (s.ctx? ctx).bind fun c => c.fault? fid with
  | none => s
  | some x => if fid < 4294967296 then s else if abandon then s.abandonFault ctx x else s.retryFault ctx x

/-- FRESUME with RETRY. A fault that a far module reported has no FID of this context, so none names it (R400, R412). -/
def execFresumeRetry (ctx : Nat) (s : State) : Host.Outcome State Fault Refusal :=
  commandEvent s ctx (fun r => numAt r 0 1 == 2 && numAt r 12 1 == 0) fun c r =>
    match c.fault? (numAt r 8 4) with
    | none => (s, 3)
    | some x => (s.retryFault ctx x, 1)

/-- FRESUME with ABANDON. -/
def execFresumeAbandon (ctx : Nat) (s : State) : Host.Outcome State Fault Refusal :=
  commandEvent s ctx (fun r => numAt r 0 1 == 2 && numAt r 12 1 == 1) fun c r =>
    match c.fault? (numAt r 8 4) with
    | none => (s, 3)
    | some x => (s.abandonFault ctx x, 1)

/-- The queue that a command names, while it is parked and its context lives on (R402, R428). -/
def Ctx.parkedQueue? (c : Ctx) (q : Nat) : Option Queue := if c.frozen then none else (c.queues[q]?).filter (·.parked)

/-- QRESUME (R384, R402). -/
def execQresume (ctx : Nat) (s : State) : Host.Outcome State Fault Refusal :=
  commandEvent s ctx (fun r => numAt r 0 1 == 3) fun c r =>
    let q := numAt r 8 1
    match c.parkedQueue? q with
    | none => (s, 3)
    | some _ => ((s.updQueue ctx q fun x => { x with parked := false }).endGraph ctx q, 1)

/-- The current graph of a queue ends, HEAD advances, and the queue goes on (R402). -/
def State.endQueueGraph (s : State) (ctx q : Nat) (x : Queue) : State :=
  let head := s.dram.num x.entry.addr 8
  (s.storePhys ⟨.dram, x.entry.addr⟩ (leBytes 8 (head + 1)) false).updQueue ctx q fun x => { x with walk := none, parked := false }

/-- QABORT (R402). -/
def execQabort (ctx : Nat) (s : State) : Host.Outcome State Fault Refusal :=
  commandEvent s ctx (fun r => numAt r 0 1 == 4) fun c r =>
    let q := numAt r 8 1
    match c.parkedQueue? q with
    | none => (s, 3)
    | some x => (s.endQueueGraph ctx q x, 1)

/-! ### GRESUME (R267) -/

/-- The halted group that a command names, with its launch (R402). -/
def State.haltedGroup? (s : State) (ctx cu slot : Nat) : Option (Group × Launch × Halt) :=
  (s.group? (cu % 256) (cu / 256) slot).bind fun g => (s.launch? g.launch).bind fun l =>
    if l.ctx = ctx ∧ l.stop = none then g.halt.map fun h => (g, l, h) else none

/-- GRESUME of one action. -/
def groupResume (s : State) (ctx action : Nat) (how : Resume) : Host.Outcome State Fault Refusal :=
  commandEvent s ctx (fun r => numAt r 0 1 == 5 && numAt r 11 1 == action) fun _ r =>
    match s.haltedGroup? ctx (numAt r 8 2) (numAt r 10 1) with
    | none => (s, 3)
    | some (g, l, h) => (s.resumeGroup g l h how, 1)

/-- GRESUME with RETRY (R267). -/
def execGresumeRetry (ctx : Nat) (s : State) : Host.Outcome State Fault Refusal := groupResume s ctx 0 .retry

/-- GRESUME with SKIP (R267). -/
def execGresumeSkip (ctx : Nat) (s : State) : Host.Outcome State Fault Refusal := groupResume s ctx 1 .skip

/-- GRESUME with ABORT (R267). -/
def execGresumeAbort (ctx : Nat) (s : State) : Host.Outcome State Fault Refusal := groupResume s ctx 2 .abort

end Sys2Proof.Machine
end

