-- ==== Sys2Proof/Machine/Contexts.lean ====
section
/-!
DEFINITION. Contexts: CREATE and DESTROY (R391, R392, R426), and the report of a translation fault (R398).
-/
namespace Sys2Proof.Machine

/-! ### The descriptor (R391) -/

/-- A context descriptor as its 256 bytes give it. -/
def descOf (r : List Byte) : Desc :=
  { ptroot := numAt r 0 8, vtbase := numAt r 8 8, qtbase := numAt r 16 8, savepool := numAt r 24 8, saveslots := numAt r 32 4,
    fqbase := numAt r 40 8, fqlog := numAt r 48 1, cqlog := numAt r 49 1, eqlog := numAt r 50 1, fabtag := numAt r 52 2,
    cmdbase := numAt r 56 8, eqbase := numAt r 64 8, cgbase := numAt r 72 8 }

/-- The tables that a descriptor names: address, alignment, bytes. -/
def Desc.tables (d : Desc) : List (Nat × Nat × Nat) :=
  [(d.ptroot, 4096, 4096), (d.vtbase, 4096, 4096 * 128), (d.qtbase, 32, 512), (d.savepool, 4096, d.saveslots * 0x440000),
   (d.fqbase, 64, 64 + 32 * 2 ^ d.fqlog), (d.cmdbase, 64, 64 + 64 * 2 ^ d.cqlog), (d.eqbase, 64, 64 + 64 * 2 ^ d.eqlog),
   (d.cgbase, 4096, 4096 * 16)]

/-- The limits of a descriptor (R16, R391). -/
def descLimits (r : List Byte) (d : Desc) : Bool :=
  let zero := fun (a n : Nat) => ((r.drop a).take n).all (· == 0)
  zero 36 4 && zero 51 1 && zero 54 2 && zero 80 176 && d.saveslots ≤ 256 && 4 ≤ d.fqlog && d.fqlog ≤ 16 && 2 ≤ d.cqlog &&
  d.cqlog ≤ 12 && 4 ≤ d.eqlog && d.eqlog ≤ 16 && field d.fabtag 12 3 == 0 && d.tables.all fun t => t.1 % t.2.1 == 0

/-- Device memory that its stacks serve: the range lies in ready stacks (R303, R426). -/
def State.memReady (s : State) (a n : Nat) : Bool :=
  a + n ≤ 0xC000000000 && (List.range 12).all fun k => !overlap (k * 2 ^ 36) (2 ^ 36) a n || bitOf s.stackReady.toNat k

/-- The descriptor of a context, where it and its tables pass every check of CREATE (R392). -/
def State.readDesc (s : State) (n : Nat) : Option (Desc × List QEntry) :=
  let at_ := s.bar0.ctxtab + 256 * n
  let r := s.loadPhys ⟨.dram, at_⟩ 256
  let d := descOf r.1
  if !s.memReady at_ 256 || r.2 || !descLimits r.1 d || d.tables.any (fun t => !s.memReady t.1 t.2.2) then none
  else
    let es := (List.range 16).filterMap fun q =>
      let e := s.readQueueEntry d.qtbase q
      if e.2 then none else queueEntryOf e.1
    if es.length = 16 then some (d, es) else none

/-! ### CREATE and DESTROY (R392) -/

/-- Nothing of a context is cached (R392). -/
def State.forgetCtx (s : State) (n : Nat) : State :=
  { s with tlb := s.tlb.filter (·.ctx != n), viewCache := s.viewCache.filter (·.ctx != n) }

/-- A queue as CREATE leaves it. -/
def newQueue (e : QEntry) : Queue := { entry := e, nextRun := 0, walk := none, parked := false, owed := [], fault := none }

/-- A context as CREATE leaves it (R388, R392; log 11). -/
def newCtx (n : Nat) (d : Desc) (es : List QEntry) : Ctx :=
  { id := n, desc := d, counters := [], queues := es.map newQueue, faults := [], nextFid := 0, nextFar := 0, errq := [], lost := 0, seqs := [],
    tickets := [], preserves := [], frozen := false, saveUsed := [] }

/-- Set bit n of CTXERR. -/
def State.ctxError (s : State) (n : Nat) : State :=
  { s with bar0 := { s.bar0 with ctxerr := s.bar0.ctxerr ||| BitVec.ofNat 64 (2 ^ n) } }

/-- CONTEXT_CREATE (R392). -/
def execContextCreate (ctx : Nat) (s : State) : Host.Outcome State Fault Refusal :=
  if !s.power || 64 ≤ ctx then .next s
  else if (s.ctx? ctx).isSome then .next (s.ctxError ctx)
  else match s.readDesc ctx with
    | none => .next (s.ctxError ctx)
    | some (d, es) =>
      let s1 := s.forgetCtx ctx
      .next { s1 with ctxs := s1.ctxs ++ [newCtx ctx d es] }

/-- A CU without anything of a context (R19, R392). -/
def Cu.leaveCtx (n : Nat) (teams lids : List Nat) (c : Cu) : Cu :=
  let c1 := { c with
    locks := c.locks.filter fun k => !teams.contains k.team
    berths := c.berths.map fun b => b.filter fun b => !lids.contains b.launch }
  if c.ctx = some n then { c1 with ctx := none, l1 := [], wdExpired := false } else c1

/-- CONTEXT_DESTROY (R392): the moment at which every CU and engine has left the context. A reservation that a launch of it held
passes on (R378). -/
def execContextDestroy (ctx : Nat) (s : State) : Host.Outcome State Fault Refusal :=
  match s.ctx? ctx with
  | none => .next s
  | some _ =>
    let lids := (s.launches.filter (·.ctx == ctx)).map (·.id)
    let teams := (s.teams.filter (·.ctx == ctx)).map (·.id)
    let mine := fun (w : HmWait) => match w with
      | .queue c _ => c == ctx
      | .cu _ => false
    let held := s.reservation.any fun r => lids.contains r.launch
    let t := State.forgetCtx { s with
      launches := s.launches.filter (·.ctx != ctx)
      groups := s.groups.filter fun g => !lids.contains g.launch
      teams := s.teams.filter (·.ctx != ctx)
      saved := s.saved.filter (·.team.ctx != ctx)
      flights := s.flights.filter (·.ctx != ctx)
      reservation := s.reservation.filter fun r => !lids.contains r.launch
      hmExpired := s.hmExpired.filter fun w => !mine w
      cus := s.cus.map (Cu.leaveCtx ctx teams lids)
      ctxs := s.ctxs.filter (·.id != ctx) } ctx
    .next (if held then t.passReservation else t)

/-- CTXERR_CLEAR (R409). -/
def execCtxerrClear (mask : BitVec 64) (s : State) : Host.Outcome State Fault Refusal :=
  .next { s with bar0 := { s.bar0 with ctxerr := s.bar0.ctxerr &&& ~~~mask } }

/-! ### The fault queue (R398) -/

/-- The 32 bytes of a fault-queue entry. -/
def XFault.bytes (x : XFault) : List Byte :=
  leBytes 8 x.va ++ leBytes 4 x.fid ++ leBytes 1 x.cause ++ leBytes 1 x.access ++ leBytes 1 x.agent ++ leBytes 1 x.slot ++
  leBytes 2 x.cu ++ leBytes 2 x.node ++ List.replicate 12 0

/-- Write a fault at TAIL, advance TAIL, raise vector 2n. -/
def State.writeFault (s : State) (c : Ctx) (x : XFault) : State :=
  let tail := s.dram.num (c.desc.fqbase + 8) 8
  let s1 := s.storePhys ⟨.dram, c.desc.fqbase + 64 + 32 * (tail % 2 ^ c.desc.fqlog)⟩ x.bytes false
  let s2 := s1.storePhys ⟨.dram, c.desc.fqbase + 8⟩ (leBytes 8 (tail + 1)) false
  let told := fun (y : XFault) => if y.fid = x.fid then { y with reported := true } else y
  (s2.updCtx c.id fun c => { c with faults := c.faults.map told }).raise (2 * c.id)

/-- FAULT_REPORT (R398): while the queue is full the fault waits, and while its header has a nonzero reserved byte (log 109). -/
def execFaultReport (ctx fid : Nat) (s : State) : Host.Outcome State Fault Refusal :=
  match s.ctx? ctx with
  | none => .next s
  | some c => match c.faults.find? fun x => x.fid == fid && !x.reported with
    | none => .next s
    | some x => if s.headerClean c.desc.fqbase && s.queueUsed c.desc.fqbase < 2 ^ c.desc.fqlog then .next (s.writeFault c x) else .next s

end Sys2Proof.Machine
end

