-- ==== Sys2Proof/Machine/Host.lean ====
section
/-!
DEFINITION. The host link: BAR0 registers (R409, R425), accesses to device memory over CXL.mem (R406, R426), snoops
over CXL.cache (R407), and the mailbox (R449).
-/
namespace Sys2Proof.Machine

/-- A field of a register. -/
def regField (v : BitVec 64) (lo n : Nat) : Nat := field v.toNat lo n

/-- NODEID_WRITE (R409): accepted only while no context lives. -/
def execNodeidWrite (value : BitVec 64) (s : State) : Host.Outcome State Fault Refusal :=
  if s.power && s.ctxs.isEmpty then .next { s with bar0 := { s.bar0 with nodeid := regField value 0 12 } } else .next s

/-- The value of PORTSTAT p (R409). -/
def State.portStat (s : State) (p : Nat) : Nat :=
  (if bitOf s.linkReady.toNat p then 1 else 0) + ((lookupKey s.bar0.lanesUp p).getD 0) * 2 ^ 4 +
  ((lookupKey s.bar0.retries p).getD 0) * 2 ^ 16

/-- PORTSTAT_READ (R409): the retry count starts again. -/
def execPortstatRead (port : Nat) (s : State) : Host.Outcome State Fault Refusal :=
  if !s.power || 24 ≤ port then .next s
  else .next { s with
    reply := leBytes 8 (s.portStat port), replyBad := false
    bar0 := { s.bar0 with retries := s.bar0.retries.filter (·.1 != port) } }

/-- The reserved bits [14:6] of the four entries of SPAREMAP read as zero (R16, R425). -/
def spareValue (v : BitVec 64) : Word64 := v &&& 0x803F803F803F803F

/-- BAR0 after a write of a register that has no row of its own in the table (R409, R425): reserved bits are ignored, and
so is a write that no register takes. -/
def Bar0.write (b : Bar0) (off : Nat) (v : BitVec 64) : Bar0 :=
  if off = 0x0008 then { b with ctxtab := v.toNat / 4096 * 4096 }
  else if 0x0048 ≤ off ∧ off < 0x0068 ∧ off % 8 = 0 then { b with sparemap := b.sparemap.set ((off - 0x48) / 8) (spareValue v) }
  else if off = 0x0080 then { b with wdcu := BitVec.ofNat 32 v.toNat }
  else if off = 0x0088 then { b with wdhm := BitVec.ofNat 32 v.toNat }
  else if off = 0x0090 then { b with wdarm := BitVec.ofNat 3 v.toNat }
  else if off = 0x00A0 then { b with deveqbase := v.toNat / 64 * 64 }
  else if off = 0x00A8 then { b with deveqlog := regField v 0 4 }
  else if off = 0x00B0 then (if 1500 ≤ regField v 0 12 ∧ regField v 0 12 ≤ 3200 then { b with powercap := regField v 0 12 } else b)
  else if 0x2000 ≤ off ∧ off < 0x2040 ∧ off % 8 = 0 then { b with mbcmd := patch b.mbcmd (off - 0x2000) (leBytes 8 v.toNat) }
  else if 0x10000 ≤ off ∧ off < 0x14000 ∧ off % 4 = 0 then
    let e := regField v 0 24 + (if bitOf v.toNat 31 then 2 ^ 31 else 0)
    let k := (off - 0x10000) / 4
    { b with route := if e = 0 then b.route.filter (·.1 != k) else insertKey b.route k e }
  else b

/-- REGISTER_WRITE (R409, R425). -/
def execRegisterWrite (offset : Nat) (value : BitVec 64) (s : State) : Host.Outcome State Fault Refusal :=
  if s.power then .next { s with bar0 := s.bar0.write offset value } else .next s

/-! ### Memory (R406, R407, R426) -/

/-- The device address that the HDM decoder gives for a host physical address (R406): none where it decodes none. -/
def State.hdmAddr (s : State) (addr : Nat) : Option Nat :=
  if s.hdmbase ≤ addr ∧ addr - s.hdmbase < 0xC000000000 then some (addr - s.hdmbase) else none

/-- The host programs the HDM decoder (R406). -/
def State.setHdmBase (s : State) (base : Nat) : State := { s with hdmbase := base }

/-- HOST_MEM_READ (R406) of host physical addresses: memory of a stack that is not ready reads as poison. -/
def execHostMemRead (addr len : Nat) (s : State) : Host.Outcome State Fault Refusal :=
  if !s.power then .next s
  else match s.hdmAddr addr with
    | none => .next s
    | some a =>
      if !s.memReady a len then .next { s with reply := List.replicate len 0, replyBad := true }
      else
        let parts := (runsOf 4096 a len).map fun r => s.loadPhys ⟨.dram, r.1⟩ r.2
        .next { s with reply := parts.flatMap (·.1), replyBad := parts.any (·.2) }

/-- HOST_MEM_WRITE (R406) at host physical addresses: to memory of a stack that is not ready it is dropped. -/
def execHostMemWrite (addr : Nat) (bytes : List (BitVec 8)) (s : State) : Host.Outcome State Fault Refusal :=
  match s.hdmAddr addr with
  | none => .next s
  | some a => if s.power && s.memReady a bytes.length then .next (s.storeMarked ⟨.dram, a⟩ (bytes.map fun b => (b, false))) else .next s

/-- HOST_SNOOP (R407): the slice's copy of a host line is answered; a copy in an L1 is not snooped, and stays as it is. -/
def execHostSnoop (addr : Nat) (s : State) : Host.Outcome State Fault Refusal :=
  if !s.power then .next s
  else
    let r := s.loadPhys ⟨.host, addr / 64 * 64⟩ 64
    .next { s with reply := r.1, replyBad := r.2 }

/-- The host stores into one line of its own memory (R322, R407): the slice's copy is kept coherent, the copies in L1s stay. -/
def State.hostStore (s : State) (addr : Nat) (bytes : List Byte) : State :=
  s.storeMarked ⟨.host, addr⟩ ((bytes.take (64 - addr % 64)).map fun b => (b, false))

/-! ### The mailbox (R449) -/

/-- OP of the mailbox command. -/
def Bar0.mbop (b : Bar0) : Nat := numAt b.mbcmd 0 1

/-- A mailbox command is one of the table, with its operands in range. -/
def Bar0.mbOk (b : Bar0) : Bool :=
  let op := b.mbop
  op == 1 || (op == 2 && numAt b.mbcmd 8 4 < 12 && numAt b.mbcmd 12 4 < 64) || (op == 3 && numAt b.mbcmd 8 8 % 4096 == 0 && numAt b.mbcmd 8 8 < 0xC000000000) ||
  (op == 5 && numAt b.mbcmd 8 8 + numAt b.mbcmd 16 8 ≤ 0xC000000000)

/-- Reply to a mailbox command and raise vector 128. -/
def State.mbReply (s : State) (code : Nat) (rest : List Byte) : State :=
  State.raise { s with bar0 := { s.bar0 with mbreply := (leBytes 1 code ++ rest ++ List.replicate 64 0).take 64 } } 128

/-- A write of MBGO with a command of one OP. -/
def mailbox (s : State) (op : Nat) (act : State) : Host.Outcome State Fault Refusal :=
  if s.power && s.bar0.mbOk && s.bar0.mbop == op then .next act else .next s

/-- TELEM (R449): what it measures are free values (log 16). -/
def execTelem (s : State) : Host.Outcome State Fault Refusal :=
  mailbox s 1 (State.mbReply { s with free := s.free + 63 } 0 ((List.range 63).map fun i => Config.freeTelemetry (s.free + i)))

/-- PPR (R449): refused when no spare row is left, which the model leaves free (log 16). -/
def execPpr (s : State) : Host.Outcome State Fault Refusal :=
  let c := s.bar0.mbcmd
  let s1 := { s with free := s.free + 1 }
  mailbox s 2 (if Config.freeSpareRow s.free then
      State.mbReply { s1 with repairs := s.repairs ++ [(numAt c 8 4, numAt c 12 4, numAt c 16 4, numAt c 20 4)] } 0 []
    else s1.mbReply 1 [])

/-- Retire a page (R449): its sectors read as poisoned everywhere, so no L1 keeps a copy of one. -/
def State.retire (s : State) (page : Nat) : State :=
  let gone := fun (h : L1Sector) => h.at_.space == .dram && h.at_.addr / 4096 == page
  { s with retired := insertNat s.retired page, cus := s.cus.map fun c => { c with l1 := c.l1.filter fun h => !gone h } }

/-- RETIRE (R449). -/
def execRetire (s : State) : Host.Outcome State Fault Refusal :=
  mailbox s 3 ((s.retire (numAt s.bar0.mbcmd 8 8 / 4096)).mbReply 0 [])

/-- FWSTORE (R449): the image, which lies in device memory, goes to the firmware store; one that carries a mark is refused
(log 124). -/
def execFwstore (s : State) : Host.Outcome State Fault Refusal :=
  let image := (runsOf 4096 (numAt s.bar0.mbcmd 8 8) (numAt s.bar0.mbcmd 16 8)).map fun r => s.loadPhys ⟨.dram, r.1⟩ r.2
  mailbox s 5 (if image.any (·.2) then s.mbReply 1 [] else State.mbReply { s with firmware := image.flatMap (·.1) } 0 [])

/-- MALFORMED_MAILBOX_COMMAND (R449). -/
def execMalformedMailboxCommand (s : State) : Host.Outcome State Fault Refusal :=
  if s.power && !s.bar0.mbOk then .next (s.mbReply 2 []) else .next s

end Sys2Proof.Machine
end

