-- ==== Sys2Proof/Machine/Start.lean ====
section
/-!
DEFINITION. Power and the staged start (R20, R424 to R426): power-good, power-off, training of stage 1, the writes of
GO2, self-tests and port training of stage 2.
-/
namespace Sys2Proof.Machine

/-- The module after a change of power: row repairs and the firmware store survive (R20), as does all that is not of the
module, and the model's own fields. -/
def State.powered (s : State) (on : Bool) : State :=
  { State.reset with
    power := on, stage1Open := if on then stage1Units else [], repairs := s.repairs, firmware := s.firmware
    hostMem := s.hostMem, hostBad := s.hostBad, peers := s.peers, msix := s.msix, clock := s.clock, agenda := s.agenda
    turn := s.turn, free := s.free, nextLaunch := s.nextLaunch, nextTeamId := s.nextTeamId, nextFlight := s.nextFlight
    nextOrder := s.nextOrder }

/-- POWER_GOOD (R424). -/
def execPowerGood (s : State) : Host.Outcome State Fault Refusal := if s.power then .next s else .next (s.powered true)

/-- POWER_OFF (R20). -/
def execPowerOff (s : State) : Host.Outcome State Fault Refusal := .next (s.powered false)

/-- A unit that fails to start writes one device record (R424). -/
def State.startFailed (s : State) (cu : Option Nat) (addr : Nat) : State :=
  s.report none { ErrRec.of s 2 0x14 0 with cu := cu, addr := addr }

/-- The base die of a unit of stage 1 (R424). -/
def stage1Die : Stage1Unit → Nat
  | .llc d => d
  | .stack n => n / 3

/-- Set bit `i` of a mask of ready or ended units. -/
def setBit {n : Nat} (m : BitVec n) (i : Nat) : BitVec n := m ||| BitVec.ofNat n (2 ^ i)

/-- Stage 1 has ended on a die once its slice and its stacks are known (R425): progress raises vector 128 (R408). -/
def State.endStage1 (s : State) (d : Nat) : State :=
  if s.stage1Open.any (stage1Die · == d) then s
  else State.raise { s with bar0 := { s.bar0 with stage1Ended := setBit s.bar0.stage1Ended d } } 128

/-- STAGE1_TRAINING_DONE (R424). -/
def execStage1TrainingDone (u : Stage1Unit) (ok : Bool) (s : State) : Host.Outcome State Fault Refusal :=
  if !s.stage1Open.contains u then .next s
  else
    let s1 := { s with stage1Open := s.stage1Open.erase u }
    let s2 := match u with
      | .llc d => if ok then { s1 with llcReady := setBit s1.llcReady d } else s1.startFailed none 0
      | .stack n => if ok then { s1 with stackReady := setBit s1.stackReady n } else s1.startFailed none (n * 2 ^ 36)
    .next (s2.endStage1 (stage1Die u))

/-! ### Stage 2 -/

/-- The valid entries of the spare map of a die: the logical CU and the spare that takes its position (R2, R425). -/
def spareEntries (d : Nat) (v : Word64) : List (Nat × Nat) :=
  (List.range 4).filterMap fun i =>
    let e := field v.toNat (16 * i) 16
    if bitOf e 15 then some (64 * d + field e 0 6, 256 + 4 * d + i) else none

/-- The physical CUs of a die: its 64 positions and its 4 spares (R1). -/
def dieCus (d : Nat) : List Nat := ((List.range 64).map fun i => 64 * d + i) ++ (List.range 4).map fun i => 256 + 4 * d + i

/-- The die of a physical CU. -/
def cuDie (p : Nat) : Nat := if p < 256 then p / 64 else (p - 256) / 4

/-- Stage 2 begins on a die (R424, R425): each of its physical CUs tests itself, each valid spare takes its position. Not where
two spares take one position. -/
def State.beginStage2 (s : State) (d : Nat) : State :=
  let s1 := { s with bar0 := { s.bar0 with go2 := setBit s.bar0.go2 d } }
  let es := spareEntries d (s.bar0.sparemap.getD d 0)
  if (es.map (·.1)).Nodup then
    { s1 with
      spares := s1.spares ++ es
      stage2Open := s1.stage2Open ++ dieCus d
      portsOpen := s1.portsOpen ++ (List.range 6).map fun i => 6 * d + i }
  else s1.startFailed none 0

/-- GO2 (R425): each bit acts once in a power-on. -/
def execGo2 (mask : BitVec 4) (s : State) : Host.Outcome State Fault Refusal :=
  if !s.power then .next s
  else .next (((List.range 4).filter fun d => bitOf mask.toNat d && !bitOf s.bar0.go2.toNat d).foldl (·.beginStage2 ·) s)

/-- Stage 2 has ended on a compute die once the self-tests of its CUs are known (R425). -/
def State.endStage2 (s : State) (d : Nat) : State :=
  if s.stage2Open.any (cuDie · == d) then s
  else State.raise { s with bar0 := { s.bar0 with stage2Ended := setBit s.bar0.stage2Ended d } } 128

/-- A CU that has passed its self-test (R268, R286, R301; log 10). -/
def newCu (n : Nat) : Cu :=
  { num := n, split := 1, ctx := none, l1 := [], locks := [], berths := List.replicate 16 none, arrival := 0, wdExpired := false }

/-- CU_SELF_TEST_DONE (R424, R425) of a physical CU: where it holds a logical number, that CU becomes ready, or never is. A failure
may leave a waiting resident grid without the room it needs (R377). A CU without a logical number (an unmapped spare, or one whose
position a spare has taken) makes none ready. -/
def execCuSelfTestDone (cu : Nat) (ok : Bool) (s : State) : Host.Outcome State Fault Refusal :=
  if !s.stage2Open.contains cu then .next s
  else
    let s1 := { s with stage2Open := s.stage2Open.erase cu }
    match s.logicalCu cu with
    | some u =>
      if ok then .next (State.endStage2 { s1 with cuReady := insertNat s1.cuReady u, cus := s1.cus ++ [newCu u] } (cuDie cu))
      else .next (((s1.startFailed (some (cunum u 0)) 0).endStage2 (cuDie cu)).refuseUncovered)
    | none => .next ((if ok then s1 else s1.startFailed none 0).endStage2 (cuDie cu))

/-- PORT_TRAINING_DONE (R410, R424). -/
def execPortTrainingDone (port : Nat) (ok : Bool) (s : State) : Host.Outcome State Fault Refusal :=
  if !s.portsOpen.contains port then .next s
  else
    let s1 := { s with portsOpen := s.portsOpen.erase port }
    if ok then
      .next { s1 with
        linkReady := setBit s1.linkReady port
        bar0 := { s1.bar0 with lanesUp := insertKey s1.bar0.lanesUp port 4 } }
    else .next (s1.startFailed none 0)

end Sys2Proof.Machine
end

