-- ==== Sys2Proof/Machine/Errors.lean ====
section
/-!
DEFINITION. Errors and the environment: ECC (R427 to R435), merged records and records that wait (R431, R432), the
watchdogs (R447, R448), and the power and thermal limits (R450).
-/
namespace Sys2Proof.Machine

/-! ### ECC -/

/-- What an ECC site is (R430 to R432): SOURCE, the unit that merges its events, its context where the error lies in state
held for one, the CU that its record names, the address, and whether it exists now. -/
structure SiteInfo where
  source : Nat
  unit : Nat
  ctx : Option Nat
  cu : Option Nat
  slot : Option Nat
  addr : Nat
  here : Bool
  deriving DecidableEq, Repr

/-- The unit of a physical address: the base die that serves its stack (R432). -/
def dieUnit (addr : Nat) : Nat := 256 + addr / 2 ^ 36 / 3

/-- The context of a team that lives. -/
def State.teamCtx (s : State) (team : Nat) : Option Nat := (s.team? team).map (·.ctx)

/-- An event in an L1 sector: it is met where the L1 holds the sector. ADDR is physical (log 98). -/
def State.l1Info (s : State) (u : Nat) (p : PAddr) : SiteInfo :=
  let c := s.cu? u
  ⟨3, u, c.bind (·.ctx), some (cunum u 0), none, p.addr, c.any fun c => c.l1.any (·.at_ == p.sector)⟩

/-- Where an event lies. A zero-flagged sector is read without its DRAM, so no event of DRAM is met there (R304). -/
def State.siteInfo (s : State) (x : ErrSite) : SiteInfo :=
  match x with
  | .dram a => ⟨1, dieUnit a, none, none, none, a, a < 0xC000000000 && !s.zeroFlags.contains (a / 32 * 32)⟩
  | .llc a => ⟨2, dieUnit a, none, none, none, a, a < 0xC000000000⟩
  | .llcHost a => ⟨2, 256, none, none, none, a, a < 2 ^ 48⟩
  | .l1 u a => s.l1Info u ⟨.dram, a⟩
  | .l1Host u a => s.l1Info u ⟨.host, a⟩
  | .l1Peer u n a => s.l1Info u ⟨.peer n, a⟩
  | .scratch t off =>
    let m := s.team? t
    ⟨3, (m.map (·.cu)).getD 0, s.teamCtx t, m.map fun t => cunum t.cu 0, none, off, m.any fun t => off < t.scr⟩
  | .reg u p k lane r =>
    let g := s.group? u p k
    ⟨4, u, g.bind fun g => s.teamCtx g.team, some (cunum u p), some k, 0, g.any fun g => r < g.nreg && (g.thread? lane).isSome⟩
  | .hold t p i =>
    let m := s.team? t
    ⟨5, (m.map (·.cu)).getD 0, s.teamCtx t, m.map fun t => cunum t.cu p, none, 0, m.any fun t => i < 65536 && t.hold.any (·.part == p)⟩
  | .link p => ⟨6, 256 + p / 6, none, none, none, 0, p < 24⟩
  | .cxl a => ⟨7, 256, none, none, none, a, a < 2 ^ 48⟩
  | .control c a => ⟨0x16, 256, some c, none, none, a, (s.ctx? c).isSome⟩
  | .shared a => ⟨0x16, 256, none, none, none, a, true⟩

/-- A record about a site; its syndrome is a free value (log 107). -/
def State.siteRec (s : State) (i : SiteInfo) (cls action : Nat) : ErrRec :=
  { ErrRec.of s cls i.source action with cu := i.cu, slot := i.slot, addr := i.addr, stat := (Config.freeStat s.clock).toNat }

/-- ECC_CORRECTED (R427, R432). -/
def execEccCorrected (site : ErrSite) (s : State) : Host.Outcome State Fault Refusal :=
  let i := s.siteInfo site
  if !s.power || !i.here then .next s
  else match site with
    | .link p => .next ({ s with free := s.free + 1 }.retransmit p (Config.freeAddr s.free).toNat)
    | _ => .next (s.corrected i.unit i.ctx (s.siteRec i 1 1))

/-- Mark a sector of an L1. -/
def State.poisonL1 (s : State) (u : Nat) (p : PAddr) : State :=
  s.updCu u fun c => { c with l1 := updFirst (·.at_ == p.sector) (fun h => { h with bad := true }) c.l1 }

/-- The mark that an uncorrectable error sets (R433). A line of host memory in slice 0 is the module's one copy of it (R303). -/
def State.poisonSite (s : State) (x : ErrSite) : State :=
  match x with
  | .dram a => { s with dramBad := insertNat s.dramBad (a / 32 * 32) }
  | .llc a => { s with dramBad := insertNat s.dramBad (a / 32 * 32) }
  | .llcHost a => { s with hostBad := insertNat s.hostBad (a / 32 * 32) }
  | .l1 u a => s.poisonL1 u ⟨.dram, a⟩
  | .l1Host u a => s.poisonL1 u ⟨.host, a⟩
  | .l1Peer u n a => s.poisonL1 u ⟨.peer n, a⟩
  | .scratch t off => s.updTeam t fun t => { t with bad := insertNat t.bad (off / 32 * 32) }
  | .reg u p k lane r => s.updGroup u p k fun g => g.mapLanes (maskOf 32 [lane]) fun _ t => { t with bad := insertNat t.bad r }
  | .hold t p i => s.updTeam t fun t => { t with hold := updFirst (·.part == p) (fun h => { h with bad := insertNat h.bad i }) t.hold }
  | .cxl a => { s with hostBad := insertNat s.hostBad (a / 32 * 32) }
  | .link _ => s
  | .control _ _ => s
  | .shared _ => s

/-- An error in state that several contexts share freezes each (R428). -/
def State.freezeAll (s : State) (r : ErrRec) : State :=
  ((s.ctxs.map (·.id)).foldl (fun t c => t.freeze c r) s).report none { r with cls := 3, action := 7 }

/-- ECC_UNCORRECTABLE_DETECTED (R433, R434): data is marked and one record written; state of a context freezes it. A link
has no such event: its flits are sent again. -/
def execEccUncorrectableDetected (site : ErrSite) (s : State) : Host.Outcome State Fault Refusal :=
  let i := s.siteInfo site
  if !s.power || !i.here then .next s
  else match site with
    | .link _ => .next s
    | .control c _ => .next (s.freeze c (s.siteRec i 3 7))
    | .shared _ => .next (s.freezeAll (s.siteRec i 3 7))
    | _ => .next ((s.poisonSite site).report i.ctx (s.siteRec i 2 0))

/-! ### Records that wait (R431, R432) -/

/-- ERROR_WINDOW_CLOSE (R432). -/
def execErrorWindowClose (source unit : Nat) (s : State) : Host.Outcome State Fault Refusal :=
  let same := fun (w : ErrWindow) => w.source == source && w.unit == unit
  match s.windows.find? same with
  | none => .next s
  | some w => .next (State.report { s with windows := s.windows.filter fun w => !same w } w.ctx w.record)

/-- ERROR_RECORD_WRITE (R431): the first record that waits, once its queue has room. -/
def execErrorRecordWrite (ctx : Option Nat) (s : State) : Host.Outcome State Fault Refusal :=
  match s.waitingErrs ctx with
  | [] => .next s
  | r :: rs => if s.errRoom ctx then .next ((s.setWaitingErrs ctx rs).writeErr ctx r) else .next s

/-! ### Watchdogs (R447, R448) -/

/-- A watchdog stops a launch where its level is armed (R448). -/
def State.watchStop (s : State) (l : Launch) (armed : Bool) (r : ErrRec) : State :=
  let s1 := s.report (some l.ctx) { r with action := if armed then 8 else 0 }
  if armed then s1.stopLaunch l.id { status := 12, consumed := false, source := r.source } else s1

/-- Cycles without progress before the group watchdog expires (R447): WDGROUP, else WDG. -/
def Group.watchCount (g : Group) (l : Launch) : Nat := if g.wdgroup = 0 then l.hdr.wdg else g.wdgroup.toNat

/-- Some group of a CU has an expiry that is not reset. -/
def State.anyExpired (s : State) (cu : Nat) : Bool := s.groups.any fun g => g.cu == cu && g.wdExpired.isSome

/-- The first expiry on a CU starts the count of its watchdog (R447). -/
def State.startCuWatch (s : State) (cu : Nat) : State :=
  if s.anyExpired cu then s
  else { s.updCu cu fun c => { c with wdExpired := false } with hmExpired := s.hmExpired.filter (· != .cu cu) }

/-- GROUP_WATCHDOG_EXPIRY (R447, R448). -/
def execGroupWatchdogExpiry (cu part slot : Nat) (s : State) : Host.Outcome State Fault Refusal :=
  match s.group? cu part slot with
  | none => .next s
  | some g => match s.launch? g.launch with
    | none => .next s
    | some l =>
      if g.watchCount l = 0 || g.wdExpired.isSome || g.halt.isSome || g.threads.all (·.isNone) || l.stop.isSome then .next s
      else
        let s1 := (s.startCuWatch cu).updGroup cu part slot fun g => { g with wdExpired := some s.clock }
        .next (s1.watchStop l (bitOf s.bar0.wdarm.toNat 0)
          { ErrRec.ofLaunch s l 5 0x0E 0 with slot := some slot, cu := some (cunum cu part) })

/-- The launch of the earliest expiry on a CU that is not reset (R447). -/
def State.expiredLaunch (s : State) (cu : Nat) : Option Launch :=
  let gs := s.groups.filter fun g => g.cu == cu && g.wdExpired.isSome
  ((sortBy (fun (a b : Group) => a.wdExpired.getD 0 ≤ b.wdExpired.getD 0) gs).head?).bind fun g => s.launch? g.launch

/-- CU_WATCHDOG_EXPIRY (R447, R448). -/
def execCuWatchdogExpiry (cu : Nat) (s : State) : Host.Outcome State Fault Refusal :=
  match s.cu? cu, s.expiredLaunch cu with
  | some c, some l =>
    if s.bar0.wdcu = 0 || c.wdExpired then .next s
    else
      let s1 := s.updCu cu fun c => { c with wdExpired := true }
      .next (s1.watchStop l (bitOf s.bar0.wdarm.toNat 1) { ErrRec.ofLaunch s l 5 0x0F 0 with cu := some (cunum cu 0) })
  | _, _ => .next s

/-- Counters that a node names (R386): of its DONE format, of WAIT, or of the record of a LAUNCH. -/
def State.nodeCounters (s : State) (ctx : Nat) (r : List Byte) : List Nat :=
  let done := fun (x : Nat) => ((doneCounter x).map (·.1)).toList
  match numAt r 0 1 with
  | 1 => (match s.hmRead ctx (numAt r 16 8) 512 with
    | .ok rec_ => done (numAt rec_ 100 2) ++ done (numAt rec_ 102 2)
    | .error _ => [])
  | 2 => done (numAt r 40 2)
  | 3 => done (numAt r 48 2)
  | 6 => done (numAt r 16 2)
  | 7 => [numAt r 16 2]
  | _ => []

/-- Some node that is reached from a list of nodes, at most `n` of them, names a counter (R389); `seen` have been visited. -/
def State.graphNames (s : State) (ctx i : Nat) : Nat → List Nat → List Nat → Bool
  | 0, _, _ => false
  | _, [], _ => false
  | n + 1, a :: todo, seen =>
    if a = 0 || seen.contains a || !nodeAddrOk a then s.graphNames ctx i n todo seen
    else match s.hmRead ctx a 64 with
      | .error _ => s.graphNames ctx i n todo (a :: seen)
      | .ok r => (s.nodeCounters ctx r).contains i ||
          s.graphNames ctx i n (nodeNext r :: (if numAt r 0 1 = 4 ∨ numAt r 0 1 = 5 then [numAt r 32 8] else []) ++ todo) (a :: seen)

/-- The nodes with which a queue holds graphs: where its walk stands and what has not completed, and the first nodes of the
entries that wait (R385, R387). -/
def State.queueNodes (s : State) (x : Queue) : List Nat :=
  let head := s.dram.num x.entry.addr 8
  let entries := (List.range (min (s.queueUsed x.entry.addr) x.entry.size)).map fun k =>
    s.dram.num (x.entry.addr + 64 + 8 * ((head + k) % x.entry.size)) 8
  match x.walk with
  | none => entries
  | some w => w.node :: w.stack ++ w.asyncs ++ entries.drop 1

/-- The queues of a context that hold nodes naming a counter, as a mask (R389; log 97). -/
def State.queuesNaming (s : State) (ctx i : Nat) : Nat :=
  (s.ctx? ctx).elim 0 fun c => (maskOf 16 ((List.range c.queues.length).filter fun q =>
    (c.queues[q]?).any fun x => s.graphNames ctx i (2 ^ 36) (s.queueNodes x) [])).toNat

/-- A harbourmaster record of a wait names the counter and the queues that hold nodes naming it (R389, R447; log 97). -/
def State.nameCounter (s : State) (ctx : Nat) (i : Option Nat) (r : ErrRec) : ErrRec :=
  match i with
  | none => r
  | some i => { r with stat := s.queuesNaming ctx i, stat2 := i }

/-- The first counter on which a thread of a CU waits in WAITC. -/
def State.waitcOn (s : State) (cu : Nat) : Option Nat :=
  (s.groups.filter (·.cu == cu)).findSome? fun g => g.threads.findSome? fun t => t.bind fun t => match t.wait with
    | .counter i => some i
    | _ => none

/-- The node that a queue has started and that has not completed: the one the walk stands at, else an ASYNC one. -/
def Walk.started (w : Walk) : Option Nat := if w.node != 0 && w.phase != .fresh then some w.node else w.asyncs.head?

/-- A kill of a started node (R448): a WAIT node's graph ends as under QABORT with STATUS 12; a LAUNCH node's launch
stops; another node has no kill. -/
def State.killNode (s : State) (ctx q node : Nat) (x : Queue) (w : Walk) (r : ErrRec) : State :=
  match w.waiting, s.launches.find? fun l => l.ctx == ctx && l.queue == q && l.node == node && l.stop.isNone with
  | some _, _ => ((s.report (some ctx) { r with action := 8 }).setStatus ctx q node 12).endQueueGraph ctx q x
  | none, some l => s.watchStop l true r
  | none, none => s.report (some ctx) r

/-- The harbourmaster watchdog of a queue (R389, R447). -/
def State.queueExpiry (s : State) (ctx q : Nat) : State :=
  match s.queue? ctx q, ((s.queue? ctx q).bind fun x => x.2.walk).bind fun w => w.started.map fun n => (w, n) with
  | some (c, x), some (w, node) =>
    if c.frozen then s
    else
      let r := s.nameCounter ctx w.waiting { ErrRec.of s 5 0x10 0 with queue := some q, node := node }
      let s1 := { s with hmExpired := s.hmExpired ++ [HmWait.queue ctx q] }
      if bitOf s.bar0.wdarm.toNat 2 then s1.killNode ctx q node x w r else s1.report (some ctx) r
  | _, _ => s

/-- HARBOURMASTER_WATCHDOG_EXPIRY (R389, R447, R448). -/
def execHarbourmasterWatchdogExpiry (who : HmWait) (s : State) : Host.Outcome State Fault Refusal :=
  if s.bar0.wdhm = 0 || s.hmExpired.contains who then .next s
  else match who with
    | .queue ctx q => .next (s.queueExpiry ctx q)
    | .cu u => match s.expiredLaunch u with
      | some l =>
        if (s.cu? u).any (·.wdExpired) then
          .next (State.watchStop { s with hmExpired := s.hmExpired ++ [HmWait.cu u] } l (bitOf s.bar0.wdarm.toNat 2)
            (s.nameCounter l.ctx (s.waitcOn u) { ErrRec.ofLaunch s l 5 0x10 0 with cu := some (cunum u 0) }))
        else .next s
      | none => .next s

/-! ### Power and heat (R450) -/

/-- POWER_LIMIT_CHANGE (R450): the module enters or leaves a limit. -/
def execPowerLimitChange (thermal enter : Bool) (s : State) : Host.Outcome State Fault Refusal :=
  if !s.power || (if thermal then s.thermalLimited else s.powerLimited) == enter then .next s
  else
    let s1 := if thermal then { s with thermalLimited := enter } else { s with powerLimited := enter }
    .next (s1.report none (ErrRec.of s 5 (if thermal then 0x12 else 0x13) 0))

/-- THERMAL_SHUTDOWN (R450): a device record, then power-off. -/
def execThermalShutdown (s : State) : Host.Outcome State Fault Refusal :=
  if s.power then .next ((s.report none (ErrRec.of s 5 0x12 0)).powered false) else .next s

end Sys2Proof.Machine
end

