-- ==== Sys2Proof/Machine/GroupOps.lean ====
section
/-!
DEFINITION. The group instructions (R224 to R227): shuffles, votes, ballots, lane search and fixed-order
reduction over the lanes that take part.
-/
namespace Sys2Proof.Machine

/-- Values of a source in the lanes that take part, ascending (R224). -/
def Env.laneVals (e : Env) (g : BitVec 3) (a : BitVec 7) : List (Nat × Nat) :=
  (e.take (.pred g)).filterMap fun n => (e.thread n).map fun t => (n, e.val a 1 t)

/-- Values of a predicate in the lanes that take part. -/
def Env.lanePreds (e : Env) (g p : BitVec 3) : List Bool :=
  (e.take (.pred g)).filterMap fun n => (e.thread n).map fun t => t.p p.toNat

/-- A lane's value in such a list. -/
def laneVal (vs : List (Nat × Nat)) (n : Nat) : Option Nat := lookupKey vs n

/-- A shuffle (R225): `src` gives the source lane from the lane number and its selector. -/
def shuffle (s : State) (i : Instr) (d a b : BitVec 7) (g : BitVec 3) (src : Nat → Nat → Int) :
    Host.Outcome State Fault Refusal :=
  vecOp s i (.code d 1) true fun e n t =>
    let vs := e.laneVals g a
    let k := src n (e.val b 1 t)
    let own := e.val a 1 t
    ([BitVec.ofNat 32 (if 0 ≤ k ∧ k < 32 then (laneVal vs k.toNat).getD own else own)], 0)

/-- LXI (R225). -/
def execLxi (d a b : BitVec 7) (q : Bool) (g : BitVec 3) (s : State) : Host.Outcome State Fault Refusal :=
  shuffle s (.lxi d a b q g) d a b g fun _ x => ((x % 32 : Nat) : Int)

/-- LXM (R225). -/
def execLxm (d a b : BitVec 7) (q : Bool) (g : BitVec 3) (s : State) : Host.Outcome State Fault Refusal :=
  shuffle s (.lxm d a b q g) d a b g fun n x => ((n ^^^ (x % 32) : Nat) : Int)

/-- LXR (R225). -/
def execLxr (d a b : BitVec 7) (q : Bool) (g : BitVec 3) (s : State) : Host.Outcome State Fault Refusal :=
  shuffle s (.lxr d a b q g) d a b g fun n x => (((n + x % 32) % 32 : Nat) : Int)

/-- LXS (R225). -/
def execLxs (d a b : BitVec 7) (q : Bool) (g : BitVec 3) (s : State) : Host.Outcome State Fault Refusal :=
  shuffle s (.lxs d a b q g) d a b g fun n x => (n : Int) + signed 32 x

/-- LMASK (R226). -/
def execLmask (d a : BitVec 7) (q : Bool) (g : BitVec 3) (s : State) : Host.Outcome State Fault Refusal :=
  vecOp s (.lmask d a q g) (.code d 1) true fun e _ _ =>
    ([maskOf 32 (((e.laneVals g a).filter fun v => v.2 != 0).map (·.1))], 0)

/-- LPEER (R226). -/
def execLpeer (d a : BitVec 7) (q : Bool) (g : BitVec 3) (s : State) : Host.Outcome State Fault Refusal :=
  vecOp s (.lpeer d a q g) (.code d 1) true fun e _ t =>
    ([maskOf 32 (((e.laneVals g a).filter fun v => v.2 == e.val a 1 t).map (·.1))], 0)

/-- COMPACT (R226). -/
def execCompact (d a : BitVec 7) (q : Bool) (g : BitVec 3) (s : State) : Host.Outcome State Fault Refusal :=
  vecOp s (.compact d a q g) (.code d 1) true fun e n _ =>
    ([BitVec.ofNat 32 ((((e.laneVals g a).filter fun v => v.2 != 0).map (·.1)).getD n 32)], 0)

/-- LFIRST (R226). -/
def execLfirst (d a : BitVec 7) (q : Bool) (g : BitVec 3) (s : State) : Host.Outcome State Fault Refusal :=
  vecOp s (.lfirst d a q g) (.code d 1) true fun e _ _ =>
    ([BitVec.ofNat 32 (((e.laneVals g a).map (·.2)).headD 0)], 0)

/-- Fold in ascending lane order (R227), with flags. -/
def foldLanes (f : Nat → Nat → Nat × Nat) : List Nat → Nat × Nat
  | [] => (0, 0)
  | x :: xs => xs.foldl (fun r y => let v := f r.1 y; (v.1, r.2 ||| v.2)) (x, 0)

/-- LFOLD (R227). -/
def lfold (s : State) (i : Instr) (d a : BitVec 7) (q : Bool) (g : BitVec 3) (f : Nat → Nat → Nat × Nat) :
    Host.Outcome State Fault Refusal :=
  vecOp s i (.code d 1) q fun e _ _ =>
    let r := foldLanes f ((e.laneVals g a).map (·.2))
    ([BitVec.ofNat 32 r.1], r.2)

/-- LFOLD.IADD (R227). -/
def execLfoldIadd (d a : BitVec 7) (q : Bool) (g : BitVec 3) (s : State) : Host.Outcome State Fault Refusal :=
  lfold s (.lfoldIadd d a q g) d a q g fun x y => ((x + y) % 4294967296, 0)

/-- LFOLD.IMIN.S (R227). -/
def execLfoldIminS (d a : BitVec 7) (q : Bool) (g : BitVec 3) (s : State) : Host.Outcome State Fault Refusal :=
  lfold s (.lfoldIminS d a q g) d a q g fun x y => (if signed 32 y < signed 32 x then y else x, 0)

/-- LFOLD.IMAX.S (R227). -/
def execLfoldImaxS (d a : BitVec 7) (q : Bool) (g : BitVec 3) (s : State) : Host.Outcome State Fault Refusal :=
  lfold s (.lfoldImaxS d a q g) d a q g fun x y => (if signed 32 x < signed 32 y then y else x, 0)

/-- LFOLD.AND (R227). -/
def execLfoldAnd (d a : BitVec 7) (q : Bool) (g : BitVec 3) (s : State) : Host.Outcome State Fault Refusal :=
  lfold s (.lfoldAnd d a q g) d a q g fun x y => (x &&& y, 0)

/-- LFOLD.OR (R227). -/
def execLfoldOr (d a : BitVec 7) (q : Bool) (g : BitVec 3) (s : State) : Host.Outcome State Fault Refusal :=
  lfold s (.lfoldOr d a q g) d a q g fun x y => (x ||| y, 0)

/-- LFOLD.XOR (R227). -/
def execLfoldXor (d a : BitVec 7) (q : Bool) (g : BitVec 3) (s : State) : Host.Outcome State Fault Refusal :=
  lfold s (.lfoldXor d a q g) d a q g fun x y => (x ^^^ y, 0)

/-- LFOLD.FADD (R227): RNE, NaN order r, a[L]. -/
def execLfoldFadd (d a : BitVec 7) (q : Bool) (g : BitVec 3) (s : State) : Host.Outcome State Fault Refusal :=
  lfold s (.lfoldFadd d a q g) d a q g fun x y =>
    let r := addFP fp32 .rne (fp32.decode x) (fp32.decode y)
    (r.pat, r.fx)

/-- LFOLD.FMAX (R227). -/
def execLfoldFmax (d a : BitVec 7) (q : Bool) (g : BitVec 3) (s : State) : Host.Outcome State Fault Refusal :=
  lfold s (.lfoldFmax d a q g) d a q g fun x y => let r := minMaxFP fp32 true x y; (r.pat, r.fx)

/-- A vote over the predicate of the lanes that take part (R226). -/
def vote (s : State) (i : Instr) (p a g : BitVec 3) (f : List Bool → Bool) : Host.Outcome State Fault Refusal :=
  predOp s i p true fun e _ _ => (f (e.lanePreds g a), 0)

/-- LANY (R226). -/
def execLany (p a g : BitVec 3) (s : State) : Host.Outcome State Fault Refusal :=
  vote s (.lany p a g) p a g fun bs => bs.any id

/-- LALL (R226). -/
def execLall (p a g : BitVec 3) (s : State) : Host.Outcome State Fault Refusal :=
  vote s (.lall p a g) p a g fun bs => bs.all id

/-- LAGREE (R226). -/
def execLagree (p a g : BitVec 3) (s : State) : Host.Outcome State Fault Refusal :=
  vote s (.lagree p a g) p a g fun bs => bs.all id || !bs.any id

/-- LODD (R226). -/
def execLodd (p a g : BitVec 3) (s : State) : Host.Outcome State Fault Refusal :=
  vote s (.lodd p a g) p a g fun bs => (bs.filter id).length % 2 == 1

end Sys2Proof.Machine
end

