-- ==== Sys2Proof/Machine/Integer.lean ====
section
/-!
DEFINITION. The vector integer instructions (R113 to R121, R124): one meaning per constructor, over the
arithmetic that this file gives first.
-/
namespace Sys2Proof.Machine

/-- Bitwise complement of 32 bits. -/
def not32 (x : Nat) : Nat := 4294967295 - x % 4294967296

/-- SHL, SHR, SAR and ROTL by an unsigned amount (R115). -/
def shl32 (a n : Nat) : Nat := if 32 ≤ n then 0 else a * 2 ^ n % 4294967296
def shr32 (a n : Nat) : Nat := if 32 ≤ n then 0 else a / 2 ^ n
def sar32 (a n : Nat) : Nat := wrap 32 (signed 32 a / 2 ^ (min n 32))
def rotl32 (a n : Nat) : Nat := let k := n % 32; (a * 2 ^ k + a / 2 ^ (32 - k)) % 4294967296

/-- Position and length of a field operand (R115). -/
def fieldPos (b : Nat) : Nat := field b 0 5
def fieldLen (b : Nat) : Nat := min (field b 8 6) 32

/-- BFE (R115): bits above 31 read as 0, or as a[31] where signed; the field is then extended. -/
def bfe32 (sgn : Bool) (a b : Nat) : Nat :=
  let wide := if sgn then wrap 64 (signed 32 a) else a
  let f := field wide (fieldPos b) (fieldLen b)
  if fieldLen b = 0 then 0 else if sgn then wrap 32 (signed (fieldLen b) f) else f

/-- BFI (R115). -/
def bfi32 (a b d : Nat) : Nat :=
  let p := fieldPos b
  let n := fieldLen b
  (d % 2 ^ p + a % 2 ^ n * 2 ^ p + d / 2 ^ (p + n) * 2 ^ (p + n)) % 4294967296

/-- One result byte of BYSEL (R116). -/
def byselByte (a b d k : Nat) : Nat :=
  let x := field (a + d * 4294967296) (8 * field b (3 * k) 3) 8
  if bitOf b (12 + k) then 0 else if bitOf b (16 + k) then (if 128 ≤ x then 255 else 0) else x

/-- BYSEL (R116). -/
def bysel32 (a b d : Nat) : Nat :=
  byselByte a b d 0 + 256 * byselByte a b d 1 + 65536 * byselByte a b d 2 + 16777216 * byselByte a b d 3

/-- Number of set bits. -/
def popc32 (a : Nat) : Nat := ((List.range 32).filter (bitOf a)).length

/-- Number of leading zero bits of 32. -/
def clz32 (a : Nat) : Nat := if a = 0 then 32 else 31 - Nat.log2 a

/-- Bits in reverse order. -/
def brev32 (a : Nat) : Nat := (List.range 32).foldl (fun m i => if bitOf a i then m + 2 ^ (31 - i) else m) 0

/-- Integer division (R121): quotient, remainder and flags of d ÷ a. -/
def idiv32 (sgn : Bool) (d a : Nat) : Nat × Nat × Nat :=
  if a = 0 then (4294967295, d, fxDZ)
  else if sgn then
    if d = 2147483648 ∧ a = 4294967295 then (2147483648, 0, 0)
    else (wrap 32 ((signed 32 d).tdiv (signed 32 a)), wrap 32 ((signed 32 d).tmod (signed 32 a)), 0)
  else (d / a, d % a, 0)

/-- Signed comparison of 32-bit values. -/
def ltS32 (x y : Nat) : Bool := signed 32 x < signed 32 y

/-- Immediate of an IMM11 that is sign-extended or zero-extended (R119). -/
def immS (h : Hints) (i : BitVec 11) : Nat := h.wide32 (wrap 32 (signed 11 i.toNat))
def immU (h : Hints) (i : BitVec 11) : Nat := h.wide32 i.toNat

/-- IADD (R114). -/
def execIadd (d a b : BitVec 7) (q : Bool) (g : BitVec 3) (s : State) : Host.Outcome State Fault Refusal :=
  op2 s (.iadd d a b q g) d a b q fun h x y => (satResult h.sat fun v => v x + v y, 0)

/-- ISUB (R114). -/
def execIsub (d a b : BitVec 7) (q : Bool) (g : BitVec 3) (s : State) : Host.Outcome State Fault Refusal :=
  op2 s (.isub d a b q g) d a b q fun h x y => (satResult h.sat fun v => v x - v y, 0)

/-- IADC (R117): the carry predicate is read and then written with the carry out of the exact sum. -/
def execIadc (d a b : BitVec 7) (q : Bool) (c : BitVec 3) (s : State) : Host.Outcome State Fault Refusal :=
  threadOp s (.iadc d a b q c) fun e _ t0 t =>
    let x := e.val a 1 t0
    let y := e.val b 1 t0
    let p := t0.p c.toNat
    let k : Int := if p then 1 else 0
    (t.putRegs (e.sel (.code d 1) t0 true).list [BitVec.ofNat 32 (satResult e.h.sat fun v => v x + v y + k)]).setP
      c.toNat (carryOut x y p)

/-- ISBB (R117). -/
def execIsbb (d a b : BitVec 7) (q : Bool) (c : BitVec 3) (s : State) : Host.Outcome State Fault Refusal :=
  threadOp s (.isbb d a b q c) fun e _ t0 t =>
    let x := e.val a 1 t0
    let y := e.val b 1 t0
    let p := t0.p c.toNat
    let k : Int := if p then 1 else 0
    (t.putRegs (e.sel (.code d 1) t0 true).list [BitVec.ofNat 32 (satResult e.h.sat fun v => v x - v y - k)]).setP
      c.toNat (borrowOut x y p)

/-- IMUL (R114). -/
def execImul (d a b : BitVec 7) (q : Bool) (g : BitVec 3) (s : State) : Host.Outcome State Fault Refusal :=
  op2 s (.imul d a b q g) d a b q fun h x y => (satResult h.sat fun v => v x * v y, 0)

/-- IMULH.S (R114). -/
def execImulhS (d a b : BitVec 7) (q : Bool) (g : BitVec 3) (s : State) : Host.Outcome State Fault Refusal :=
  op2 s (.imulhS d a b q g) d a b q fun _ x y => (wrap 64 (signed 32 x * signed 32 y) / 4294967296, 0)

/-- IMULH.U (R114). -/
def execImulhU (d a b : BitVec 7) (q : Bool) (g : BitVec 3) (s : State) : Host.Outcome State Fault Refusal :=
  op2 s (.imulhU d a b q g) d a b q fun _ x y => (x * y / 4294967296, 0)

/-- IMAD (R114). -/
def execImad (d a b : BitVec 7) (q : Bool) (g : BitVec 3) (s : State) : Host.Outcome State Fault Refusal :=
  op3 s (.imad d a b q g) d a b q fun h x y z => (satResult h.sat fun v => v x * v y + v z, 0)

/-- AND (R114). -/
def execAnd (d a b : BitVec 7) (q : Bool) (g : BitVec 3) (s : State) : Host.Outcome State Fault Refusal :=
  op2 s (.and d a b q g) d a b q fun _ x y => (x &&& y, 0)

/-- OR (R114). -/
def execOr (d a b : BitVec 7) (q : Bool) (g : BitVec 3) (s : State) : Host.Outcome State Fault Refusal :=
  op2 s (.or d a b q g) d a b q fun _ x y => (x ||| y, 0)

/-- XOR (R114). -/
def execXor (d a b : BitVec 7) (q : Bool) (g : BitVec 3) (s : State) : Host.Outcome State Fault Refusal :=
  op2 s (.xor d a b q g) d a b q fun _ x y => (x ^^^ y, 0)

/-- SHL (R115). -/
def execShl (d a b : BitVec 7) (q : Bool) (g : BitVec 3) (s : State) : Host.Outcome State Fault Refusal :=
  op2 s (.shl d a b q g) d a b q fun _ x y => (shl32 x y, 0)

/-- SHR (R115). -/
def execShr (d a b : BitVec 7) (q : Bool) (g : BitVec 3) (s : State) : Host.Outcome State Fault Refusal :=
  op2 s (.shr d a b q g) d a b q fun _ x y => (shr32 x y, 0)

/-- SAR (R115). -/
def execSar (d a b : BitVec 7) (q : Bool) (g : BitVec 3) (s : State) : Host.Outcome State Fault Refusal :=
  op2 s (.sar d a b q g) d a b q fun _ x y => (sar32 x y, 0)

/-- ROTL (R115). -/
def execRotl (d a b : BitVec 7) (q : Bool) (g : BitVec 3) (s : State) : Host.Outcome State Fault Refusal :=
  op2 s (.rotl d a b q g) d a b q fun _ x y => (rotl32 x y, 0)

/-- BFE.S (R115). -/
def execBfeS (d a b : BitVec 7) (q : Bool) (g : BitVec 3) (s : State) : Host.Outcome State Fault Refusal :=
  op2 s (.bfeS d a b q g) d a b q fun _ x y => (bfe32 true x y, 0)

/-- BFE.U (R115). -/
def execBfeU (d a b : BitVec 7) (q : Bool) (g : BitVec 3) (s : State) : Host.Outcome State Fault Refusal :=
  op2 s (.bfeU d a b q g) d a b q fun _ x y => (bfe32 false x y, 0)

/-- BFI (R115). -/
def execBfi (d a b : BitVec 7) (q : Bool) (g : BitVec 3) (s : State) : Host.Outcome State Fault Refusal :=
  op3 s (.bfi d a b q g) d a b q fun _ x y z => (bfi32 x y z, 0)

/-- BYSEL (R116). -/
def execBysel (d a b : BitVec 7) (q : Bool) (g : BitVec 3) (s : State) : Host.Outcome State Fault Refusal :=
  op3 s (.bysel d a b q g) d a b q fun _ x y z => (bysel32 x y z, 0)

/-- IADD with immediate (R119). -/
def execIaddImm (d a : BitVec 7) (i : BitVec 11) (s : State) : Host.Outcome State Fault Refusal :=
  op1 s (.iaddImm d a i) d a true fun h x => (satResult h.sat fun v => v x + v (immS h i), 0)

/-- IMUL with immediate (R119). -/
def execImulImm (d a : BitVec 7) (i : BitVec 11) (s : State) : Host.Outcome State Fault Refusal :=
  op1 s (.imulImm d a i) d a true fun h x => (satResult h.sat fun v => v x * v (immS h i), 0)

/-- AND with immediate (R119). -/
def execAndImm (d a : BitVec 7) (i : BitVec 11) (s : State) : Host.Outcome State Fault Refusal :=
  op1 s (.andImm d a i) d a true fun h x => (x &&& immU h i, 0)

/-- OR with immediate (R119). -/
def execOrImm (d a : BitVec 7) (i : BitVec 11) (s : State) : Host.Outcome State Fault Refusal :=
  op1 s (.orImm d a i) d a true fun h x => (x ||| immU h i, 0)

/-- XOR with immediate (R119). -/
def execXorImm (d a : BitVec 7) (i : BitVec 11) (s : State) : Host.Outcome State Fault Refusal :=
  op1 s (.xorImm d a i) d a true fun h x => (x ^^^ immU h i, 0)

/-- SHL by immediate (R119). -/
def execShlImm (d a : BitVec 7) (n : BitVec 5) (s : State) : Host.Outcome State Fault Refusal :=
  op1 s (.shlImm d a n) d a true fun h x => (shl32 x (h.amount n.toNat), 0)

/-- SHR by immediate (R119). -/
def execShrImm (d a : BitVec 7) (n : BitVec 5) (s : State) : Host.Outcome State Fault Refusal :=
  op1 s (.shrImm d a n) d a true fun h x => (shr32 x (h.amount n.toNat), 0)

/-- SAR by immediate (R119). -/
def execSarImm (d a : BitVec 7) (n : BitVec 5) (s : State) : Host.Outcome State Fault Refusal :=
  op1 s (.sarImm d a n) d a true fun h x => (sar32 x (h.amount n.toNat), 0)

/-- ROTL by immediate (R119). -/
def execRotlImm (d a : BitVec 7) (n : BitVec 5) (s : State) : Host.Outcome State Fault Refusal :=
  op1 s (.rotlImm d a n) d a true fun h x => (rotl32 x (h.amount n.toNat), 0)

/-- MOVI (R119). -/
def execMovi (d : BitVec 7) (i : BitVec 11) (s : State) : Host.Outcome State Fault Refusal :=
  vecOp s (.movi d i) (.code d 1) true fun e _ _ => ([BitVec.ofNat 32 (immS e.h i)], 0)

/-- SETA (R124): CUR, LO and HI from A[23:0], OOB cleared (R27). -/
def execSeta (k : BitVec 2) (a : BitVec 7) (s : State) : Host.Outcome State Fault Refusal :=
  threadOp s (.seta k a) fun e _ t0 t =>
    { t with idx := t.idx.set k.toNat (BitVec.ofNat 32 (e.val a 1 t0 % 16777216)) }

/-- AADD (R124): the exact sum CUR + W; its low 8 bits become CUR, OOB is set where it leaves 0 to 255 (R27). -/
def execAadd (k : BitVec 2) (i : BitVec 11) (s : State) : Host.Outcome State Fault Refusal :=
  threadOp s (.aadd k i) fun e _ t0 t =>
    let a := (t0.idx.getD k.toNat 0).toNat
    let sum : Int := (field a 0 8 : Nat) + signed 32 (immS e.h i)
    let oob := bitOf a 31 || decide (sum < 0) || decide (255 < sum)
    let v := field a 8 16 * 256 + wrap 8 sum + (if oob then 2 ^ 31 else 0)
    { t with idx := t.idx.set k.toNat (BitVec.ofNat 32 v) }

/-- MOV (R120). -/
def execMov (d a : BitVec 7) (q : Bool) (g : BitVec 3) (s : State) : Host.Outcome State Fault Refusal :=
  op1 s (.mov d a q g) d a q fun _ x => (x, 0)

/-- NOT (R120). -/
def execNot (d a : BitVec 7) (q : Bool) (g : BitVec 3) (s : State) : Host.Outcome State Fault Refusal :=
  op1 s (.not d a q g) d a q fun _ x => (not32 x, 0)

/-- IABS (R120): IABS of 0x80000000 is 0x80000000. -/
def execIabs (d a : BitVec 7) (q : Bool) (g : BitVec 3) (s : State) : Host.Outcome State Fault Refusal :=
  op1 s (.iabs d a q g) d a q fun _ x => ((signed 32 x).natAbs, 0)

/-- POPC (R120). -/
def execPopc (d a : BitVec 7) (q : Bool) (g : BitVec 3) (s : State) : Host.Outcome State Fault Refusal :=
  op1 s (.popc d a q g) d a q fun _ x => (popc32 x, 0)

/-- CLZ (R120). -/
def execClz (d a : BitVec 7) (q : Bool) (g : BitVec 3) (s : State) : Host.Outcome State Fault Refusal :=
  op1 s (.clz d a q g) d a q fun _ x => (clz32 x, 0)

/-- BREV (R120). -/
def execBrev (d a : BitVec 7) (q : Bool) (g : BitVec 3) (s : State) : Host.Outcome State Fault Refusal :=
  op1 s (.brev d a q g) d a q fun _ x => (brev32 x, 0)

/-- IDIV.S (R121): D := D ÷ A. -/
def execIdivS (d a : BitVec 7) (l : BitVec 4) (q : Bool) (g : BitVec 3) (s : State) : Host.Outcome State Fault Refusal :=
  op2 s (.idivS d a l q g) d d a q fun _ x y => let r := idiv32 true x y; (r.1, r.2.2)

/-- IDIV.U (R121). -/
def execIdivU (d a : BitVec 7) (l : BitVec 4) (q : Bool) (g : BitVec 3) (s : State) : Host.Outcome State Fault Refusal :=
  op2 s (.idivU d a l q g) d d a q fun _ x y => let r := idiv32 false x y; (r.1, r.2.2)

/-- IREM.S (R121). -/
def execIremS (d a : BitVec 7) (l : BitVec 4) (q : Bool) (g : BitVec 3) (s : State) : Host.Outcome State Fault Refusal :=
  op2 s (.iremS d a l q g) d d a q fun _ x y => let r := idiv32 true x y; (r.2.1, r.2.2)

/-- IREM.U (R121). -/
def execIremU (d a : BitVec 7) (l : BitVec 4) (q : Bool) (g : BitVec 3) (s : State) : Host.Outcome State Fault Refusal :=
  op2 s (.iremU d a l q g) d d a q fun _ x y => let r := idiv32 false x y; (r.2.1, r.2.2)

/-- IMIN.S (R120). -/
def execIminS (d a : BitVec 7) (q : Bool) (g : BitVec 3) (s : State) : Host.Outcome State Fault Refusal :=
  op2 s (.iminS d a q g) d d a q fun _ x y => (if ltS32 y x then y else x, 0)

/-- IMIN.U (R120). -/
def execIminU (d a : BitVec 7) (q : Bool) (g : BitVec 3) (s : State) : Host.Outcome State Fault Refusal :=
  op2 s (.iminU d a q g) d d a q fun _ x y => (min x y, 0)

/-- IMAX.S (R120). -/
def execImaxS (d a : BitVec 7) (q : Bool) (g : BitVec 3) (s : State) : Host.Outcome State Fault Refusal :=
  op2 s (.imaxS d a q g) d d a q fun _ x y => (if ltS32 x y then y else x, 0)

/-- IMAX.U (R120). -/
def execImaxU (d a : BitVec 7) (q : Bool) (g : BitVec 3) (s : State) : Host.Outcome State Fault Refusal :=
  op2 s (.imaxU d a q g) d d a q fun _ x y => (max x y, 0)

end Sys2Proof.Machine
end

