-- ==== Sys2Proof/Machine/Packed.lean ====
section
/-!
DEFINITION. Packed FP16 and BF16 arithmetic (R151), the fixed-format conversions (R152, R153), UNPK (R173),
CVTN and CVTW (R154 to R156), and the lattice conversions QL8, DL8 and XL8 (R157 to R159).
-/
namespace Sys2Proof.Machine

/-- Both halves of a packed operand (R151). -/
def halfOf (x k : Nat) : Nat := field x (16 * k) 16

/-- MOD ARITH acts on both halves of the operand that it names (R151). -/
def modHalf (h : Hints) (k x : Nat) : Nat := modPat h k 2147516416 x

/-- Two element results as one packed result. -/
def packed (f : Nat → Rounded) : Nat × Nat := ((f 0).pat + 65536 * (f 1).pat, (f 0).fx ||| (f 1).fx)

/-- A packed binary operation D := D op A. -/
def packedOp (s : State) (i : Instr) (d a : BitVec 7) (q : Bool) (f : RMode → Nat → Nat → Rounded) :
    Host.Outcome State Fault Refusal :=
  op2 s i d d a q fun h x y => packed fun k => f h.mode (halfOf (modHalf h 1 x) k) (halfOf (modHalf h 4 y) k)

/-- Sum, difference and product in an element format. -/
def eAdd (f : Fmt) (m : RMode) (x y : Nat) : Rounded := addFP f m (f.decode x) (f.decode y)
def eSub (f : Fmt) (m : RMode) (x y : Nat) : Rounded := addFP f m (f.decode x) ((f.decode y).flip true)
def eMul (f : Fmt) (m : RMode) (x y : Nat) : Rounded := mulFP f m (f.decode x) (f.decode y)

/-- PKFMA in an element format. -/
def packedFma (s : State) (i : Instr) (f : Fmt) (d a b : BitVec 7) (q : Bool) : Host.Outcome State Fault Refusal :=
  op3 s i d a b q fun h x y z => packed fun k =>
    fmaFP f h.mode (f.decode (halfOf (modHalf h 4 x) k)) (f.decode (halfOf (modHalf h 2 y) k)) (f.decode (halfOf (modHalf h 1 z) k))

/-- PKFMA.H (R151). -/
def execPkfmaH (d a b : BitVec 7) (q : Bool) (g : BitVec 3) (s : State) : Host.Outcome State Fault Refusal :=
  packedFma s (.pkfmaH d a b q g) fp16 d a b q

/-- PKFMA.B (R151). -/
def execPkfmaB (d a b : BitVec 7) (q : Bool) (g : BitVec 3) (s : State) : Host.Outcome State Fault Refusal :=
  packedFma s (.pkfmaB d a b q g) bf16 d a b q

/-- PKADD.H (R151). -/
def execPkaddH (d a : BitVec 7) (q : Bool) (g : BitVec 3) (s : State) : Host.Outcome State Fault Refusal :=
  packedOp s (.pkaddH d a q g) d a q (eAdd fp16)

/-- PKMUL.H (R151). -/
def execPkmulH (d a : BitVec 7) (q : Bool) (g : BitVec 3) (s : State) : Host.Outcome State Fault Refusal :=
  packedOp s (.pkmulH d a q g) d a q (eMul fp16)

/-- PKMIN.H (R151). -/
def execPkminH (d a : BitVec 7) (q : Bool) (g : BitVec 3) (s : State) : Host.Outcome State Fault Refusal :=
  packedOp s (.pkminH d a q g) d a q fun _ x y => minMaxFP fp16 false x y

/-- PKMAX.H (R151). -/
def execPkmaxH (d a : BitVec 7) (q : Bool) (g : BitVec 3) (s : State) : Host.Outcome State Fault Refusal :=
  packedOp s (.pkmaxH d a q g) d a q fun _ x y => minMaxFP fp16 true x y

/-- PKSUB.H (R151). -/
def execPksubH (d a : BitVec 7) (q : Bool) (g : BitVec 3) (s : State) : Host.Outcome State Fault Refusal :=
  packedOp s (.pksubH d a q g) d a q (eSub fp16)

/-- PKADD.B (R151). -/
def execPkaddB (d a : BitVec 7) (q : Bool) (g : BitVec 3) (s : State) : Host.Outcome State Fault Refusal :=
  packedOp s (.pkaddB d a q g) d a q (eAdd bf16)

/-- PKMUL.B (R151). -/
def execPkmulB (d a : BitVec 7) (q : Bool) (g : BitVec 3) (s : State) : Host.Outcome State Fault Refusal :=
  packedOp s (.pkmulB d a q g) d a q (eMul bf16)

/-- PKMIN.B (R151). -/
def execPkminB (d a : BitVec 7) (q : Bool) (g : BitVec 3) (s : State) : Host.Outcome State Fault Refusal :=
  packedOp s (.pkminB d a q g) d a q fun _ x y => minMaxFP bf16 false x y

/-- PKMAX.B (R151). -/
def execPkmaxB (d a : BitVec 7) (q : Bool) (g : BitVec 3) (s : State) : Host.Outcome State Fault Refusal :=
  packedOp s (.pkmaxB d a q g) d a q fun _ x y => minMaxFP bf16 true x y

/-- PKSUB.B (R151). -/
def execPksubB (d a : BitVec 7) (q : Bool) (g : BitVec 3) (s : State) : Host.Outcome State Fault Refusal :=
  packedOp s (.pksubB d a q g) d a q (eSub bf16)

/-- FP32 to a 32-bit integer (R77, R152). -/
def toInt32 (m : RMode) (sgn : Bool) (x : Nat) : Rounded :=
  let v := fp32.decode x
  narrowFV (.int 32 sgn) m [v] (some v)

/-- CVT.S32.F32 (R152). -/
def execCvtS32F32 (d a : BitVec 7) (q : Bool) (g : BitVec 3) (s : State) : Host.Outcome State Fault Refusal :=
  op1 s (.cvtS32F32 d a q g) d a q fun h x => (toInt32 h.mode true x).pair

/-- CVT.U32.F32 (R152). -/
def execCvtU32F32 (d a : BitVec 7) (q : Bool) (g : BitVec 3) (s : State) : Host.Outcome State Fault Refusal :=
  op1 s (.cvtU32F32 d a q g) d a q fun h x => (toInt32 h.mode false x).pair

/-- CVT.F32.S32 (R152). -/
def execCvtF32S32 (d a : BitVec 7) (q : Bool) (g : BitVec 3) (s : State) : Host.Outcome State Fault Refusal :=
  op1 s (.cvtF32S32 d a q g) d a q fun h x => (roundFV fp32 h.mode (intFV (signed 32 x))).pair

/-- CVT.F32.U32 (R152). -/
def execCvtF32U32 (d a : BitVec 7) (q : Bool) (g : BitVec 3) (s : State) : Host.Outcome State Fault Refusal :=
  op1 s (.cvtF32U32 d a q g) d a q fun h x => (roundFV fp32 h.mode (intFV (x : Int))).pair

/-- CVT.F16.F32 (R152). -/
def execCvtF16F32 (d a : BitVec 7) (q : Bool) (g : BitVec 3) (s : State) : Host.Outcome State Fault Refusal :=
  op1 s (.cvtF16F32 d a q g) d a q fun h x => (roundFV fp16 h.mode (fp32.decode x)).pair

/-- CVT.F32.F16 (R152). -/
def execCvtF32F16 (d a : BitVec 7) (q : Bool) (g : BitVec 3) (s : State) : Host.Outcome State Fault Refusal :=
  op1 s (.cvtF32F16 d a q g) d a q fun h x => (roundFV fp32 h.mode (fp16.decode (halfOf x 0))).pair

/-- CVT.BF16.F32 (R152). -/
def execCvtBf16F32 (d a : BitVec 7) (q : Bool) (g : BitVec 3) (s : State) : Host.Outcome State Fault Refusal :=
  op1 s (.cvtBf16F32 d a q g) d a q fun h x => (roundFV bf16 h.mode (fp32.decode x)).pair

/-- CVT.F32.BF16 (R152). -/
def execCvtF32Bf16 (d a : BitVec 7) (q : Bool) (g : BitVec 3) (s : State) : Host.Outcome State Fault Refusal :=
  op1 s (.cvtF32Bf16 d a q g) d a q fun h x => (roundFV fp32 h.mode (bf16.decode (halfOf x 0))).pair

/-- CVT.F32.F64 (R153): A is a 64-bit operand. -/
def execCvtF32F64 (d a : BitVec 7) (q : Bool) (g : BitVec 3) (s : State) : Host.Outcome State Fault Refusal :=
  vecOp s (.cvtF32F64 d a q g) (.code d 1) q fun e _ t =>
    let r := roundFV fp32 e.h.mode (fp64.decode (e.val a 2 t))
    ([BitVec.ofNat 32 r.pat], r.fx)

/-- CVT.F64.F32 (R153): D is a pair. -/
def execCvtF64F32 (d a : BitVec 7) (q : Bool) (g : BitVec 3) (s : State) : Host.Outcome State Fault Refusal :=
  vecOp s (.cvtF64F32 d a q g) (.code d 2) q fun e _ t =>
    let r := roundFV fp64 e.h.mode (fp32.decode (e.val a 1 t))
    (natRegs 2 r.pat, r.fx)

/-- Low or high nibbles of a word, one a byte (R173). -/
def nibbles (x hi : Nat) : Nat :=
  field x (4 * hi) 4 + 256 * field x (8 + 4 * hi) 4 + 65536 * field x (16 + 4 * hi) 4 + 16777216 * field x (24 + 4 * hi) 4

/-- UNPK (R173). -/
def execUnpk (d a : BitVec 7) (q : Bool) (g : BitVec 3) (s : State) : Host.Outcome State Fault Refusal :=
  vecOp s (.unpk d a q g) (.code d 2) q fun e _ t =>
    ([BitVec.ofNat 32 (nibbles (e.val a 1 t) 0), BitVec.ofNat 32 (nibbles (e.val a 1 t) 1)], 0)

/-! ### Slots and scales -/

/-- The scale σ of the slot layouts (R90, R154), as an FP32 pattern. -/
def Env.sigma (e : Env) (c : BitVec 4) (t : Thread) : Nat :=
  if c = 0 then 0x3F800000
  else if c.toNat < 8 then e.sv c.toNat % 4294967296
  else regsNat (e.words (.block (c.toNat - 8) 1) t)

/-- The slot that an instruction names. -/
def Env.slot (e : Env) (f : BitVec 3) : FSlot := slotAt e.l.slots f

/-- Target of a narrowing to a KIND (R154, R155). -/
def kindTarget (k : Nat) : Target :=
  if k = 1 then .fp bf16 else if k = 2 then .fp fp16 else if k = 3 then .fp e4m3 else if k = 4 then .fp e5m2
  else if k = 6 then .fp e2m1 else if k = 7 then .int 4 true else .int 8 true

/-- CvtnElement (R155). -/
def cvtnElement (x sigma : Nat) (f : FSlot) (m : RMode) : Rounded :=
  let k := descKind f.bdesc
  let t0 := fp32.decode f.btsc.toNat
  let tsc := if k = 15 then (FV.mul t0 (.fin false 1 (-6))).getD t0 else t0
  let xv := fp32.decode x
  let sv := fp32.decode sigma
  let tgt := kindTarget k
  let r :=
    if descScf f.bdesc = 0 then
      if xv.isNan || sv.isNan then narrowNan tgt [xv, sv]
      else match FV.mul xv sv with
        | none => narrowBad tgt
        | some v => divNarrow tgt m v tsc
    else
      if xv.isNan || sv.isNan then narrowNan tgt [xv, sv]
      else match FV.mul sv tsc with
        | none => narrowBad tgt
        | some v => divNarrow tgt m xv v
  if k = 6 && descNz f.bdesc && r.pat == 8 then ⟨0, r.fx⟩ else r

/-- CVTN (R154, R155). -/
def execCvtn (d a : BitVec 7) (f : BitVec 3) (c : BitVec 4) (q : Bool) (g : BitVec 3) (s : State) :
    Host.Outcome State Fault Refusal :=
  vecOp s (.cvtn d a f c q g) (.code d 1) q fun e _ t =>
    let sl := e.slot f
    let k := descKind sl.bdesc
    let m := packCount k
    let rs := (e.words (.code a m) t).map fun x => cvtnElement x.toNat (e.sigma c t) sl e.h.mode
    ([BitVec.ofNat 32 ((rs.zipIdx.foldl (fun acc p => acc + p.1.pat * 2 ^ (p.2 * kindBits k)) 0))],
      rs.foldl (fun x r => x ||| r.fx) 0)

/-- One element widened with its scales as factors, rounded once (R156, R158, R159). -/
def widenElem (m : RMode) (fs : List FV) : Rounded :=
  if fs.any FV.isNan then propagate fp32 fs
  else match product fs with
    | none => invalid fp32
    | some v => roundFV fp32 m v

/-- CVTW (R156). -/
def execCvtw (d a : BitVec 7) (f : BitVec 3) (c : BitVec 4) (q : Bool) (g : BitVec 3) (s : State) :
    Host.Outcome State Fault Refusal :=
  runWord s (.cvtw d a f c q g) noMore fun e s1 =>
    let sl := e.slot f
    let k := descKind sl.adesc
    let m := packCount k
    .go (e.onLanes (e.take (.pred g)) s1 fun _ t0 t =>
      let rs := (List.range m).map fun j =>
        widenElem .rne [elemValue sl sl.adesc k (field (e.val a 1 t0) (j * kindBits k) (kindBits k)),
          fp32.decode (e.sigma c t0), fp32.decode sl.atsc.toNat]
      (t.putRegs (e.sel (.code d m) t0 true).list (rs.map fun r => BitVec.ofNat 32 r.pat)).orFx q
        (rs.foldl (fun x r => x ||| r.fx) 0))

/-- QL8 (R157). -/
def execQl8 (d : BitVec 7) (r : BitVec 4) (n f : BitVec 3) (c : BitVec 4) (q : Bool) (g : BitVec 3) (s : State) :
    Host.Outcome State Fault Refusal :=
  vecOp s (.ql8 d r n f c q g) (.code d 1) q fun e _ t =>
    let sl := e.slot f
    let xs := (e.words (.block (8 * r.toNat) (if n = 0 then 8 else n.toNat)) t).map fun x => fp32.decode x.toNat
    let w := ql8Word xs (fp32.decode (e.sigma c t)) (fp32.decode sl.btsc.toNat) (pointWidth (descKind sl.bdesc)) (descLpol sl.bdesc)
    ([BitVec.ofNat 32 w.1], w.2)

/-- The eight values of the lattice word in a register (R56, R158). -/
def latticeOf (sl : FSlot) (x : Nat) : List FV :=
  let w := pointWidth (descKind sl.bdesc)
  latticeValues w (x % 2 ^ (8 * w)) (descLpol sl.bdesc)

/-- DL8 (R158). -/
def execDl8 (d a : BitVec 7) (f : BitVec 3) (c : BitVec 4) (q : Bool) (g : BitVec 3) (s : State) :
    Host.Outcome State Fault Refusal :=
  vecOp s (.dl8 d a f c q g) (.block d.toNat 8) q fun e _ t =>
    let sl := e.slot f
    let rs := (latticeOf sl (e.val a 1 t)).map fun v =>
      widenElem e.h.mode [v, fp32.decode (e.sigma c t), fp32.decode sl.btsc.toNat]
    (rs.map fun r => BitVec.ofNat 32 r.pat, rs.foldl (fun x r => x ||| r.fx) 0)

/-- XL8 (R159). -/
def execXl8 (d a : BitVec 7) (f i : BitVec 3) (q : Bool) (g : BitVec 3) (s : State) : Host.Outcome State Fault Refusal :=
  vecOp s (.xl8 d a f i q g) (.code d 1) q fun e _ t =>
    let sl := e.slot f
    let r := widenElem .rne [(latticeOf sl (e.val a 1 t)).getD i.toNat (.fin false 0 0), fp32.decode sl.btsc.toNat]
    ([BitVec.ofNat 32 r.pat], r.fx)

end Sys2Proof.Machine
end

