-- ==== Sys2Proof/Machine/Predicate.lean ====
section
/-!
DEFINITION. Comparison and selection (R122), and the predicate instructions (R123).
-/
namespace Sys2Proof.Machine

/-- ICMP (R122). -/
def execIcmp (c : ICmp) (p : BitVec 3) (a b : BitVec 7) (q : Bool) (g : BitVec 3) (s : State) :
    Host.Outcome State Fault Refusal :=
  predOp s (.icmp c p a b q g) p q fun e _ t => (icmpHolds c 32 (e.val a 1 t) (e.val b 1 t), 0)

/-- SEL (R122): G selects, and there is no guard. -/
def execSel (d a b : BitVec 7) (q : Bool) (k : BitVec 3) (s : State) : Host.Outcome State Fault Refusal :=
  vecOp s (.sel d a b q k) (.code d 1) q fun e _ t =>
    ([BitVec.ofNat 32 (if t.p k.toNat then e.val a 1 t else e.val b 1 t)], 0)

/-- PAND (R123). -/
def execPand (p a b g : BitVec 3) (s : State) : Host.Outcome State Fault Refusal :=
  predOp s (.pand p a b g) p true fun _ _ t => (t.p a.toNat && t.p b.toNat, 0)

/-- POR (R123). -/
def execPor (p a b g : BitVec 3) (s : State) : Host.Outcome State Fault Refusal :=
  predOp s (.por p a b g) p true fun _ _ t => (t.p a.toNat || t.p b.toNat, 0)

/-- PXOR (R123). -/
def execPxor (p a b g : BitVec 3) (s : State) : Host.Outcome State Fault Refusal :=
  predOp s (.pxor p a b g) p true fun _ _ t => (t.p a.toNat != t.p b.toNat, 0)

/-- PNOT (R123). -/
def execPnot (p a g : BitVec 3) (s : State) : Host.Outcome State Fault Refusal :=
  predOp s (.pnot p a g) p true fun _ _ t => (!t.p a.toNat, 0)

/-- PMOV (R123). -/
def execPmov (p a g : BitVec 3) (s : State) : Host.Outcome State Fault Refusal :=
  predOp s (.pmov p a g) p true fun _ _ t => (t.p a.toNat, 0)

end Sys2Proof.Machine
end

