-- ==== Sys2Proof/Machine/Preempt.lean ====
section
/-!
DEFINITION. Pre-emption (R298, R379 to R381): the victims of a waiting launch, their save, and the restore of saved
teams; and compaction for what waits for room (R280, R281).
-/
namespace Sys2Proof.Machine

/-! ### Victims (R379) -/

/-- The eligible space of a launch (R376 to R379): for a resident launch and for the holder of the reservation the CUs that it holds
and those that it would claim now, for another every eligible CU (log 133). -/
def State.spaceFor (s : State) (l : Launch) : List Nat :=
  if l.resident || s.holdsReservation l then s.claimCus l (s.reservedCus l) else (s.cus.map (·.num)).filter (s.eligible l)

/-- Teams of a launch that its eligible space takes, what compaction opens included (R278, R379). -/
def State.roomFor (s : State) (l : Launch) : Nat := ((s.spaceFor l).map (s.teamsOn l.hdr)).foldl (· + ·) 0

/-- The placement of a waiting launch cannot be satisfied by eligible space (R379). -/
def State.starved (s : State) (l : Launch) : Bool :=
  l.waits && !s.placeable l &&
  (if l.resident then s.reservation.all (·.launch == l.id) && s.roomFor l < l.hdr.total
   else (s.leastLoaded l.hdr (s.spaceFor l)).isNone)

/-- A running team that a waiting launch may take (R379). -/
def State.isVictim (s : State) (w : Launch) (t : Team) : Bool :=
  bitOf w.mask t.cu && s.cuReady.contains t.cu &&
  (s.launch? t.launch).any fun v => bitOf v.hdr.flags 6 && v.stop.isNone && s.prioOf v < s.prioOf w

/-- The teams that are saved with a victim: a resident grid whole (R379). -/
def State.takenWith (s : State) (t : Team) : List Team :=
  if (s.launch? t.launch).any (·.resident) then s.teams.filter (·.launch == t.launch) else [t]

/-- Slots of a context's save pool that are free (R379). -/
def Ctx.freeSlots (c : Ctx) : List Nat := (List.range c.desc.saveslots).filter fun i => !c.saveUsed.contains i

/-- Rank of a victim (R379): lowest priority, then the launch placed latest, then the team placed latest. -/
def State.victimRank (s : State) (t : Team) : List Nat :=
  match s.launch? t.launch with
  | none => []
  | some v => [s.prioOf v, s.nextOrder - v.order.getD 0, s.nextOrder - t.order]

/-- The teams that a waiting launch takes next (R379). -/
def State.victims (s : State) (w : Launch) : List Team :=
  let ok := s.teams.filter fun t =>
    s.isVictim w t && (s.takenWith t).length ≤ ((s.ctx? t.ctx).map (·.freeSlots.length)).getD 0
  match sortBy (fun a b => rankLe (s.victimRank a) (s.victimRank b)) ok with
  | [] => []
  | t :: _ => s.takenWith t

/-! ### Save (R298, R380) -/

/-- A flight of a team that a save records: a copy that writes no other team (R298). A CPYO that has read a source line and not written
it out completes first: a recorded part reads its source after the restore. -/
def Flight.recorded (f : Flight) (team : Nat) : Bool :=
  f.team == team && (match f.op with
    | .copy c => c.kind != .cpym && (c.kind != .cpyo || c.buf.isEmpty)
    | _ => false)

/-- A collective goes on by itself (R380). -/
def Flight.goesOn (f : Flight) : Bool :=
  match f.op with
  | .convoy _ => true
  | _ => false

/-- Every operation that must complete before a save has completed (R298, R380). -/
def State.quiet (s : State) (t : Team) : Bool :=
  s.flights.all fun f =>
    (f.team != t.id || f.recorded t.id || f.goesOn) &&
    (f.recorded t.id || (match f.op with
      | .copy c => !c.todo.any (·.1 == t.id)
      | _ => true))

/-- Entries of a berth that threads of a team deposited, those of groups that wait for room included. -/
def Berth.ofTeam (b : Berth) (team : Nat) : List Deposit := (b.entries ++ b.due.flatMap id).filter (·.owner == team)

/-- The berth without the entries of a team. -/
def Berth.without (b : Berth) (team : Nat) : Berth :=
  { b with
    entries := b.entries.filter (·.owner != team)
    due := (b.due.map fun ds => ds.filter (·.owner != team)).filter fun ds => !ds.isEmpty }

/-- The berth entries of a team on a CU, by entry address. -/
def Cu.teamDeposits (c : Cu) (t : Team) : List (Word64 × List Deposit) :=
  (c.berths.filterMap fun b => b.bind fun b => if b.launch = t.launch then some (b.entry, b.ofTeam t.id) else none).filter
    fun d => !d.2.isEmpty

/-- Bytes of a slot of a save pool (R379), and the address of slot `i`. -/
def slotBytes : Nat := 0x440000
def Desc.slotAddr (d : Desc) (i : Nat) : Nat := d.savepool + slotBytes * i

/-- Memory of a save-pool slot once a save stands in it: the layout is not architected (R379), so every byte is a free value,
but for those of retired pages (R449), and no mark is left (R433; log 15). -/
def State.fillSlot (s : State) (d : Desc) (i : Nat) : State :=
  let a := d.slotAddr i
  let s1 := s.preserveFor ⟨.dram, a⟩ slotBytes
  let byte := fun (k : Nat) => if s.isRetired ⟨.dram, a + k⟩ then s1.dram.get (a + k) else Config.freeByte (s.free + k)
  { s1 with
    dram := s1.dram.fill a slotBytes byte
    dramBad := s1.dramBad.filter fun x => !overlap x 32 a slotBytes || s.isRetired ⟨.dram, x⟩
    zeroFlags := s1.zeroFlags.filter fun x => !overlap x 32 a slotBytes || (List.range 32).all fun k => byte (x + k - a) == 0
    free := s.free + slotBytes }

/-- A slot of a save pool that cannot be read: a sector of it carries a mark, or a page of it is retired (R434, R449). -/
def State.slotMarked (s : State) (d : Desc) (i : Nat) : Bool :=
  (s.dramBad.any fun b => overlap b 32 (d.slotAddr i) slotBytes) || s.retired.any fun p => overlap (4096 * p) 4096 (d.slotAddr i) slotBytes

/-- Save one team into a slot of its context's pool (R380). -/
def State.saveTeam (s : State) (t : Team) : State :=
  match s.cu? t.cu, (s.ctx? t.ctx).bind fun c => c.freeSlots.head? with
  | some c, some pool =>
    let v : Saved :=
      { team := t, groups := s.groups.filter (·.team == t.id), locks := c.locks.filter (·.team == t.id),
        flights := s.flights.filter (·.recorded t.id), deposits := c.teamDeposits t, pool := pool }
    let s1 := { s with
      teams := s.teams.filter (·.id != t.id), groups := s.groups.filter (·.team != t.id),
      flights := s.flights.filter fun f => !f.recorded t.id, saved := s.saved ++ [v] }
    let leave := fun (c : Cu) =>
      { c.mapBerths (·.launch == t.launch) (·.without t.id) with locks := c.locks.filter (·.team != t.id) }
    let s2 := (s1.updCu t.cu leave).updCtx t.ctx fun c => { c with saveUsed := insertNat c.saveUsed pool }
    (s.ctx? t.ctx).elim s2 fun c => s2.fillSlot c.desc pool
  | _, _ => s

/-- A launch whose placed teams are all saved is PREEMPTED (R383). -/
def State.settlePreempted (s : State) (lid : Nat) : State :=
  if s.teams.any (·.launch == lid) then s else s.updLaunch lid fun l => { l with state := .preempted }

/-- PREEMPT_SAVE (R379, R380): the next victims of a waiting launch are saved, once what they issued has completed. -/
def execPreemptSave (launch : Nat) (s : State) : Host.Outcome State Fault Refusal :=
  match s.launch? launch with
  | none => .next s
  | some w =>
    if !s.starved w then .next s
    else
      let vs := s.victims w
      if vs.all s.quiet then .next ((vs.map (·.launch)).foldl (·.settlePreempted ·) (vs.foldl (·.saveTeam ·) s)) else .next s

/-! ### Restore (R381) -/

/-- Nothing but room keeps a saved team from its CU (R381). -/
def State.mayRestore (s : State) (l : Launch) (v : Saved) : Bool :=
  s.cuReady.contains v.team.cu && (s.teams.all fun t => t.cu != v.team.cu || t.ctx == v.team.ctx) &&
  !s.reservedFrom l v.team.cu &&
  !s.launches.any fun w => w.waits && s.prioOf l < s.prioOf w && s.eligible w v.team.cu

/-- Free register blocks for the groups of a saved team, each in its partition and slot (R255). -/
def backGroups (s : State) (cu : Nat) : List Group → List (Nat × Nat × Nat) → Option (List Group)
  | [], _ => some []
  | g :: gs, taken =>
    let here := s.groups.filter fun h => h.cu == cu && h.part == g.part
    let used := (here.map fun h => (h.base, h.size)) ++ (taken.filter (·.1 == g.part)).map (·.2)
    if here.any (·.slot == g.slot) then none
    else (takeBlock used g.size).bind fun b => (backGroups s cu gs ((g.part, b, g.size) :: taken)).map fun r => { g with base := b } :: r

/-- Room for the berth entries of a saved team. -/
def Cu.takesBack (c : Cu) (l : Launch) : List (Word64 × List Deposit) → Bool
  | [] => true
  | d :: ds => d.2.length ≤ c.berthRoom l.id d.1 && (c.putEntries l d.1 d.2).takesBack l ds

/-- The CU's range-lock table and its lighter have room for what a saved team brings back (R188, R292). -/
def State.tablesTake (s : State) (c : Cu) (v : Saved) : Bool :=
  Cu.lockCount { c with locks := c.locks ++ v.locks } ≤ 256 &&
  (s.flights.filter fun f => f.cu == c.num && f.op.isCopy).length + v.flights.length ≤ 64

/-- Restore one saved team to its CU, partitions and slots where it fits now (R255, R298, R381). -/
def State.restoreTeam (s : State) (l : Launch) (v : Saved) : Option State :=
  (s.cu? v.team.cu).bind fun c =>
    let split := s.splitFor c l.hdr.split
    let tiles := v.team.hold.all fun h => l.hdr.ht ≤ s.freeTiles c.num h.part
    if !tiles || !c.takesBack l v.deposits || !s.tablesTake c v then none
    else (takeRange (s.ranges c.num fun _ => true) v.team.scr (split * 131072)).bind fun base =>
      (backGroups s c.num v.groups []).map fun gs =>
        let s1 := { s with
          teams := s.teams ++ [{ v.team with base := base }], groups := s.groups ++ gs, flights := s.flights ++ v.flights,
          saved := s.saved.filter (·.team.id != v.team.id) }
        let back := fun (c : Cu) =>
          let c1 := v.deposits.foldl (fun m d => m.putEntries l d.1 d.2) c
          { c1 with locks := c1.locks ++ v.locks, split := split, ctx := some v.team.ctx, l1 := [] }
        ((s1.updCu c.num back).updCtx v.team.ctx fun c => { c with saveUsed := removeNat c.saveUsed v.pool }).updLaunch l.id
          fun l => { l with state := .running }

/-- Restore some saved teams, all or none. -/
def State.restoreAll (l : Launch) : List Saved → State → Option State
  | [], s => some s
  | v :: vs, s => (s.restoreTeam l v).bind (State.restoreAll l vs)

/-- The teams that are restored with a saved team: a resident grid whole (R381). -/
def State.backWith (s : State) (l : Launch) (v : Saved) : List Saved :=
  if l.resident then s.saved.filter (·.team.launch == l.id) else [v]

/-- TEAM_RESTORE (R381): a resident grid is restored whole; a slot that cannot be read freezes the context (R434). -/
def execTeamRestore (team : Nat) (s : State) : Host.Outcome State Fault Refusal :=
  match s.saved.find? (·.team.id == team) with
  | none => .next s
  | some v =>
    match s.launch? v.team.launch with
    | none => .next s
    | some l =>
      let vs := s.backWith l v
      if l.stop.isSome || !vs.all (s.mayRestore l) then .next s
      else match s.ctx? l.ctx with
        | none => .next s
        | some c =>
          match vs.find? fun v => s.slotMarked c.desc v.pool with
          | some v => .next (s.freeze l.ctx { ErrRec.ofLaunch s l 3 0x16 7 with addr := c.desc.slotAddr v.pool })
          | none => .next ((State.restoreAll l vs s).getD s)

/-! ### Compaction (R280, R281) -/

/-- The first of some groups, in order, that finds no block now: its partition, its block, and the blocks that those before it
take there. -/
def firstShort (rooms : List Room) (a : Assigned) : List (Nat × Nat × Nat) → List (Nat × Nat × Nat) → Option (Nat × Nat × List (Nat × Nat))
  | [], _ => none
  | (q, i, n) :: r, taken =>
    (a.part q i).bind fun p => (rooms.find? (·.part == p)).bind fun room =>
      match room.take (blockFor n) with
      | none => some (p, blockFor n, (taken.filter (·.1 == p)).map (·.2))
      | some x => firstShort (rooms.map fun m => if m.part = p then x.2.2 else m) a r ((p, x.2.1, blockFor n) :: taken)

/-- The move that the placement of a team on a CU waits for, of blocks and ranges placed before order `new`; ranges move below `top`. -/
def State.teamMove (s : State) (h : Header) (cu top new : Nat) : Option Move :=
  (s.fitsOn h cu).bind fun a => (s.cu? cu).bind fun c =>
    match firstShort ((List.range 4).map (s.room cu)) a h.groups [] with
    | some (p, b, taken) => s.blockMove cu p b new taken
    | none => s.rangeMove cu h.scr (s.splitFor c h.split * 131072) top new

/-- Where a resident grid stops fitting now: the machine with the teams before it placed, and the CU of the next. -/
def State.gridShort (l : Launch) (cus : List Nat) : Nat → State → Option (State × Nat)
  | 0, _ => none
  | n + 1, s => (s.leastLoaded l.hdr cus).bind fun u => match s.placeTeam l u (l.hdr.total - (n + 1)) with
    | some t => t.gridShort l cus n
    | none => some (s, u)

/-- The move that a waiting launch waits for. -/
def State.launchMove (s : State) (l : Launch) : Option Move :=
  if !l.waits || s.hasSaved l then none
  else if l.resident then (State.gridShort l (s.reservedCus l) l.hdr.total s).bind fun p => p.1.teamMove l.hdr p.2 (s.scratchTop p.2) s.nextOrder
  else (s.targetCu l).bind fun u => s.teamMove l.hdr u (s.scratchTop u) s.nextOrder

/-- The move that the groups of a berth wait for (R271). -/
def State.berthMove (s : State) (cu : Nat) (b : Berth) : Option Move :=
  (s.launch? b.launch).bind fun l => ((b.due.head?).bind (·.head?)).bind fun d => (s.team? d.owner).bind fun t =>
    let n := blockFor l.hdr.berthRegs
    (s.berthPart cu l t n).bind fun r => s.blockMove cu r.part n s.nextOrder []

/-- The move that a saved team waits for, beside groups and teams placed from order `new` on, which stay (R280, R282). -/
def State.teamBackMove (s : State) (l : Launch) (v : Saved) (top new : Nat) : Option Move :=
  (s.cu? v.team.cu).bind fun c =>
    (v.groups.zipIdx.findSome? fun g =>
      let before := ((backGroups s c.num (v.groups.take g.2) []).getD []).filter (·.part == g.1.part)
      s.blockMove c.num g.1.part g.1.size new (before.map fun h => (h.base, h.size))).orElse fun _ =>
    s.rangeMove c.num v.team.scr (s.splitFor c l.hdr.split * 131072) top new

/-- A saved team whose groups and range count as placed after all that the CUs hold. -/
def Saved.asNew (v : Saved) (new : Nat) : Saved :=
  { v with team := { v.team with order := v.team.order + new }, groups := v.groups.map fun g => { g with order := g.order + new } }

/-- Where the restore of some saved teams stops fitting now: the machine with those before it restored, and the team. -/
def State.restoreShort (l : Launch) (new : Nat) : List Saved → State → Option (State × Saved)
  | [], _ => none
  | v :: vs, s => match s.restoreTeam l (v.asNew new) with
    | some t => State.restoreShort l new vs t
    | none => some (s, v)

/-- The move that a saved team, with those that are restored with it, waits for (R280, R282, R381). -/
def State.savedMove (s : State) (v : Saved) : Option Move :=
  (s.launch? v.team.launch).bind fun l =>
    let vs := s.backWith l v
    if l.stop.isSome || !vs.all (s.mayRestore l) then none
    else (State.restoreShort l s.nextOrder vs s).bind fun p => p.1.teamBackMove l p.2 (s.scratchTop p.2.team.cu) s.nextOrder

/-- The moves that placements and restores wait for (R280). -/
def State.moves (s : State) : List Move :=
  s.launches.filterMap s.launchMove ++ (s.cus.flatMap fun c => c.berths.filterMap fun b => b.bind (s.berthMove c.num)) ++
  s.saved.filterMap s.savedMove

/-- COMPACTION (R280, R281): the first move of a plan that something waits for; no value, name, offset, presence bit or flag
changes. -/
def execCompaction (m : Move) (s : State) : Host.Outcome State Fault Refusal :=
  if !s.moves.contains m then .next s
  else match m with
    | .regs cu part slot base => .next ((s.group? cu part slot).elim s fun g => s.moveRegs g base)
    | .scratch team base => .next ((s.team? team).elim s fun t => s.moveRange t base)

end Sys2Proof.Machine
end

