-- ==== Sys2Proof/Machine/Sync.lean ====
section
/-!
DEFINITION. Barriers (R235 to R239), FENCE, CINV and WAITC (R181, R182, R196), and the shared windows (R38 to
R40, R240, R241).
-/
namespace Sys2Proof.Machine

/-- BAR (R236). -/
def execBar (n r : BitVec 6) (s : State) : Host.Outcome State Fault Refusal :=
  runWord s (.bar n r) (fun e _ => e.barConds n r true) fun e s1 => .go (e.barrier n r true s1)

/-- BARA (R236). -/
def execBara (n r : BitVec 6) (s : State) : Host.Outcome State Fault Refusal :=
  runWord s (.bara n r) (fun e _ => e.barConds n r true) fun e s1 => .go (e.barrier n r false s1)

/-- BARW (R236): it waits for the phase that is current at its issue. -/
def execBarw (n r : BitVec 6) (s : State) : Host.Outcome State Fault Refusal :=
  runWord s (.barw n r) (fun e _ => e.barConds n r false) fun e s1 =>
    .go ((e.onLanes e.lanes s1 fun _ _ t =>
      { t with wait := .barw n.toNat (e.bar n).phase (e.roles r) e.at_ }).settleBar e.team.id n.toNat)

/-- GBAR (R239). -/
def execGbar (s : State) : Host.Outcome State Fault Refusal :=
  runWord s .gbar (fun e _ => e.when e.g.role.isNone 0x21 ++ e.when (!bitOf e.l.hdr.flags 0) 0x22) fun e s1 =>
    let arrived := (e.team.id, e.g.linear, e.l.gridLanes e.g ||| maskOf 32 e.lanes) ::
      e.l.gbarArrived.filter fun a => !(a.1 == e.team.id && a.2.1 == e.g.linear)
    .go (((e.onLanes e.lanes s1 fun _ _ t => { t with wait := .gbar e.l.gbarPhase }).updLaunch e.l.id
      fun l => { l with gbarArrived := arrived }).settleGrid e.l.id)

/-- FENCE (R181): it acts on the L1 (R332); the late accesses of its group take effect before it issues (`State.orderFor`). -/
def execFence (o : FenceOrd) (c : Scope) (s : State) : Host.Outcome State Fault Refusal :=
  runWord s (.fence o c) noMore fun e s1 => .go (if o = .release then s1 else s1.acquire e.iss.cu c)

/-- CINV (R182). -/
def execCinv (c : Scope) (s : State) : Host.Outcome State Fault Refusal :=
  runWord s (.cinv c) noMore fun e s1 => .go (s1.acquire e.iss.cu c)

/-- WAITC (R196). -/
def execWaitc (r : BitVec 6) (s : State) : Host.Outcome State Fault Refusal :=
  runWord s (.waitc r) (fun e _ => e.when (4096 ≤ e.sv r.toNat) 0x17) fun e s1 =>
    let i := e.sv r.toNat % 4096
    if (s1.ctx? e.l.ctx).all fun c => counterDone (c.counter i) then .go (s1.acquire e.iss.cu .module)
    else .go (e.onLanes e.lanes s1 fun _ _ t => { t with wait := .counter i })

/-! ### Shared windows -/

/-- The window register that a window operand names in a lane; none for a name that is no direct name of a
window of the group (R240). -/
def Env.winKey (e : Env) (c : BitVec 7) (lane : Nat) : Option WinKey :=
  if 92 ≤ c.toNat then none
  else (e.wins.find? fun w => w.2.1 ≤ c.toNat && c.toNat < w.2.1 + w.2.2).map fun w =>
    { win := w.1, index := e.g.index, reg := c.toNat - w.2.1, lane := lane }

/-- The value of a full window register. -/
def Team.cell? (t : Team) (k : WinKey) : Option Word := (t.wins.find? (·.key == k)).map (·.value)

/-- Fill a window register. -/
def State.fillCell (s : State) (team : Nat) (k : WinKey) (v : Word) : State :=
  s.updTeam team fun t => { t with wins := ⟨k, v⟩ :: t.wins.filter (·.key != k) }

/-- Empty a window register. -/
def State.emptyCell (s : State) (team : Nat) (k : WinKey) : State :=
  s.updTeam team fun t => { t with wins := t.wins.filter (·.key != k) }

/-- A thread is parked on this window register with an operation that the bit allows (R39). -/
def Thread.windowReady (t : Thread) (k : WinKey) (full : Bool) : Option WindowOp :=
  match t.wait with
  | .window k' (.put v) => if k' = k ∧ full = false then some (.put v) else none
  | .window k' (.get r c) => if k' = k ∧ full = true then some (.get r c) else none
  | _ => none

/-- The parked operation that a window register's bit allows: its group and what it is. -/
def State.windowWaiter (s : State) (team : Nat) (k : WinKey) (full : Bool) : Option (Group × WindowOp) :=
  s.groups.findSome? fun g =>
    if g.team = team then ((g.thread? k.lane).bind fun t => t.windowReady k full).map fun o => (g, o) else none

/-- Complete a parked operation that the bit now allows (R241); `n` bounds the chain of a write and a read. -/
def State.settleCell (team : Nat) (k : WinKey) : Nat → State → State
  | 0, s => s
  | n + 1, s =>
    let cell := (s.team? team).bind (·.cell? k)
    match s.windowWaiter team k cell.isSome with
    | none => s
    | some (g, .put v) =>
      State.settleCell team k n ((s.fillCell team k v).updGroup g.cu g.part g.slot fun g =>
        g.mapLanes (maskOf 32 [k.lane]) fun _ t => { t with wait := .ready })
    | some (g, .get r clears) =>
      let s1 := s.updGroup g.cu g.part g.slot fun g =>
        g.mapLanes (maskOf 32 [k.lane]) fun _ t => { t.putRegs [r] [cell.getD 0] with wait := .ready }
      State.settleCell team k n (if clears then s1.emptyCell team k else s1)

/-- Conditions of a window operand: a direct name whose register, renamed in a melded lane (R36, R136), lies at NREG or above (R23), else
one of no window (R240). -/
def Env.winConds (e : Env) (c : BitVec 7) (take : List Nat) : List Cond :=
  take.filterMap fun i =>
    if c.toNat < 92 && (e.thread i).any fun t => e.g.nreg ≤ rename e.g t c.toNat then some (laneCond 4 i)
    else if (e.winKey c i).isNone then some (laneCond 5 i) else none

/-- One lane of SHW, SHR or SHP (R39, R241): it parks with its operation, which completes at once where the bit
allows it. -/
def Env.windowLane (e : Env) (c : BitVec 7) (op : Thread → WindowOp) (s : State) (lane : Nat) : State :=
  match e.winKey c lane, e.thread lane with
  | some k, some t0 =>
    State.settleCell e.team.id k 3 (e.onLanes [lane] s fun _ _ t => { t with wait := .window k (op t0) })
  | _, _ => s

/-- SHW (R241). -/
def execShw (d a : BitVec 7) (g : BitVec 3) (s : State) : Host.Outcome State Fault Refusal :=
  runWord s (.shw d a g) (fun e take => e.winConds d take) fun e s1 =>
    .go ((e.take (.pred g)).foldl (e.windowLane d fun t => .put (BitVec.ofNat 32 (e.val a 1 t))) s1)

/-- SHR (R241). -/
def execShrWindow (d a : BitVec 7) (g : BitVec 3) (s : State) : Host.Outcome State Fault Refusal :=
  runWord s (.shrWindow d a g) (fun e take => e.winConds a take) fun e s1 =>
    .go ((e.take (.pred g)).foldl (e.windowLane a fun t => .get ((e.sel (.code d 1) t true).list.headD 0) true) s1)

/-- SHP (R241). -/
def execShp (d a : BitVec 7) (g : BitVec 3) (s : State) : Host.Outcome State Fault Refusal :=
  runWord s (.shp d a g) (fun e take => e.winConds a take) fun e s1 =>
    .go ((e.take (.pred g)).foldl (e.windowLane a fun t => .get ((e.sel (.code d 1) t true).list.headD 0) false) s1)

end Sys2Proof.Machine
end

