-- ==== Sys2Proof/Machine/System.lean ====
section
/-!
DEFINITION. Special registers, time and the error record (R248 to R252), the hints (R98 to R101), words that
are no instruction (R97), and a word that cannot be fetched (R101, R130).
-/
namespace Sys2Proof.Machine

/-- Coordinates of a team in a grid, and grid extents, in the layout of TEAMPOS (R249). -/
def packPos (x y z : Nat) : Nat := x + y * 2 ^ 21 + z * 2 ^ 42

/-- 64 bits of the ready mask (R249). -/
def cuReadyWord (ready : List Nat) (k : Nat) : Nat :=
  (List.range 64).foldl (fun m b => if ready.contains (64 * k + b) then m + 2 ^ b else m) 0

/-- Berths of a CU that hold entries of a launch, as a map with one bit for each berth (R249). -/
def State.berthOcc (s : State) (cu launch : Nat) : Nat :=
  ((s.cu? cu).map fun c => (c.berths.zipIdx.foldl (fun m b => if b.1.any (·.launch == launch) then m + 2 ^ b.2 else m) 0)).getD 0

/-- The value of a special register (R249), PERFCNT apart. -/
def Env.special (e : Env) (r : Nat) : Nat :=
  let h := e.l.hdr
  if r = 0 then cunum e.iss.cu e.iss.part
  else if r = 1 then
    e.g.slot + (match e.g.role with
      | none => 2 ^ 24
      | some q => q * 2 ^ 8 + e.g.index * 2 ^ 16)
  else if r = 2 then e.team.linear
  else if r = 3 then packPos (e.team.linear % h.gx) (e.team.linear / h.gx % h.gy) (e.team.linear / h.gx / h.gy)
  else if r = 4 then packPos h.gx h.gy h.gz
  else if r = 5 then e.l.ctx + e.s.bar0.nodeid * 2 ^ 8
  else if r = 6 then (maskOf 32 e.g.live).toNat
  else if r = 7 then (maskOf 32 e.lanes).toNat
  else if 0x10 ≤ r ∧ r ≤ 0x13 then cuReadyWord e.s.cuReady (r - 0x10)
  else if r = 0x14 then e.s.stackReady.toNat + e.s.llcReady.toNat * 2 ^ 16
  else if r = 0x15 then e.s.linkReady.toNat
  else if r = 0x20 then e.g.wdgroup.toNat
  else if r = 0x21 then e.g.perfsel.toNat
  else if r = 0x30 then e.s.berthOcc e.iss.cu e.l.id
  else 0

/-- The performance counter: cycles waited on the scoreboard depend on timing (R249, R250, log 8). -/
def Env.perf (e : Env) : Nat := if e.g.perfsel = 3 then (Config.freeWaited e.s.free).toNat else e.g.perfcnt.toNat

/-- RDSR (R248). -/
def execRdsr (r : BitVec 6) (k : BitVec 12) (s : State) : Host.Outcome State Fault Refusal :=
  runWord s (.rdsr r k) noMore fun e s1 =>
    let s2 := if k = 0x22 ∧ e.g.perfsel = 3 then { s1 with free := s1.free + 1 } else s1
    .go (e.upd s2 fun g => g.setS r.toNat (if k = 0x22 then e.perf else e.special k.toNat))

/-- Write a special register of a group (R249): reserved bits are ignored. -/
def Env.writeSpecial (e : Env) (k v : Nat) (g : Group) : Group :=
  if k = 0x20 then { g with wdgroup := BitVec.ofNat 32 v }
  else if k = 0x21 then { g with perfsel := BitVec.ofNat 8 v, perfcnt := BitVec.ofNat 64 e.perf }
  else if k = 0x22 then { g with perfcnt := BitVec.ofNat 64 v }
  else g

/-- WRSR (R248). -/
def execWrsr (r : BitVec 6) (k : BitVec 12) (s : State) : Host.Outcome State Fault Refusal :=
  runWord s (.wrsr r k) noMore fun e s1 =>
    let s2 := if k = 0x21 ∧ e.g.perfsel = 3 then { s1 with free := s1.free + 1 } else s1
    .go (e.upd s2 (e.writeSpecial k.toNat (e.sv r.toNat)))

/-- RDCLK (R250, log 8). -/
def execRdclk (r : BitVec 6) (s : State) : Host.Outcome State Fault Refusal :=
  runWord s (.rdclk r) noMore fun e s1 => .go (e.upd s1 fun g => g.setS r.toNat e.s.now.toNat)

/-- ERRQ (R251). -/
def execErrq (r : BitVec 6) (s : State) : Host.Outcome State Fault Refusal :=
  runWord s (.errq r) noMore fun e s1 => .go (e.upd s1 fun g =>
    { (g.setS r.toNat (e.g.err.elim 0 (·.addr.toNat))).setS (r.toNat + 1) (e.g.err.elim 0 (·.status.toNat)) with err := none })

/-! ### Hints -/

/-- A hint traps (R101): its payload has a reserved value, a control transfer reached it, it repeats a kind of
its sequence, or the sequence is longer than seven. -/
def Env.hintBad (e : Env) (i : Instr) : Bool :=
  i.illFormed.isSome || (e.hs.isEmpty && e.lanes.any fun n => (e.thread n).any (!·.fell)) ||
  (e.hs.any fun h => hintKind h == hintKind i) || 7 ≤ e.hs.length

/-- A thread past a hint, which is now pending (R98). -/
def Thread.hinted (t : Thread) (i : Instr) (pc : Word64) : Thread :=
  { t with hints := t.hints ++ [i], hintPc := if t.hints.isEmpty then pc else t.hintPc, pc := t.pc + 4, fell := true }

/-- A hint word (R98). -/
def hintWord (s : State) (i : Instr) (act : Group → Group) : Host.Outcome State Fault Refusal :=
  match s.env? with
  | none => .fault .noIssue
  | some e =>
    if e.hintBad i then .next (e.finish (.trap (e.wordCond 2) e.at_ false))
    else .next (e.upd (e.onLanes e.lanes s fun _ _ t => t.hinted i e.iss.pc) act)

/-- IMML (R100). -/
def execImml (p : BitVec 25) (s : State) : Host.Outcome State Fault Refusal := hintWord s (.imml p) id

/-- IMMH (R100). -/
def execImmh (p : BitVec 25) (s : State) : Host.Outcome State Fault Refusal := hintWord s (.immh p) id

/-- MOD ARITH (R99). -/
def execModArith (r m : BitVec 2) (n a : BitVec 3) (s : State) : Host.Outcome State Fault Refusal :=
  hintWord s (.modArith r m n a) id

/-- MOD OFFSET (R99). -/
def execModOffset (o : BitVec 23) (s : State) : Host.Outcome State Fault Refusal := hintWord s (.modOffset o) id

/-- MOD COUNTER (R99). -/
def execModCounter (c : Scope) (i : BitVec 12) (s : State) : Host.Outcome State Fault Refusal :=
  hintWord s (.modCounter c i) id

/-- MOD LANE (R99). -/
def execModLane (p : BitVec 3) (n : Bool) (f : BitVec 6) (s : State) : Host.Outcome State Fault Refusal :=
  hintWord s (.modLane p n f) id

/-- SCHED (R101, R263): the delay affects timing only; bit [4] ranks the group last for its next choice. -/
def execSched (o : Bool) (d : BitVec 4) (s : State) : Host.Outcome State Fault Refusal :=
  hintWord s (.sched o d) fun g => { g with yielded := g.yielded || o }

/-! ### Words that are no instruction, and words that cannot be fetched -/

/-- A word that is no instruction (R97, R101): a hint with a reserved payload is a hint misuse. -/
def badWordCause (w : Word) : Nat := if 0x7C ≤ field w.toNat 25 7 then 2 else 1

/-- UNDEFINED_ENCODING (R97): a trap at the issue, with the lowest active lane (R458). -/
def execUndefinedEncoding (w : BitVec 32) (s : State) : Host.Outcome State Fault Refusal :=
  match s.env? with
  | none => .fault .noIssue
  | some e => .next (e.finish (.trap (e.wordCond (badWordCause w)) e.at_ false))

/-- What fetching the word at an address gives (R130, R397, R434). -/
inductive Fetch where
  | word (w : Word)
  /-- The address is not canonical, or a view address. -/
  | bad
  | stall (cause : Nat)
  | freezes
  | consume
  deriving DecidableEq, Repr

/-- Fetch the word at an address for a CU (R130, R397): it is translated like a load. -/
def State.fetch (s : State) (cu ctx : Nat) (pc : Word64) : Fetch :=
  if !canonical pc.toNat || isView pc.toNat then .bad
  else match s.translate cu ctx pc.toNat .fetch with
    | .fault k => .stall k
    | .poison => .freezes
    | .ok p => if (s.loadPhys p 4).2 then .consume else .word (BitVec.ofNat 32 (leNat (s.loadPhys p 4).1))

/-- INSTRUCTION_FETCH_FAULT (R130, R397): a bad address traps at the word, or, where hints are pending, as an illegal hint at
the first of them (R101); a failed translation stalls the issue, with hints pending too (R166; log 64). A word that can be
fetched does not meet this event. -/
def execInstructionFetchFault (s : State) : Host.Outcome State Fault Refusal :=
  match s.env? with
  | none => .fault .noIssue
  | some e =>
    match s.fetch e.iss.cu e.l.ctx e.iss.pc with
    | .word _ => .next s
    | .bad => .next (e.finish (.trap (e.wordCond (if e.hs.isEmpty then 0x0B else 2)) e.at_ false))
    | .stall k => .next (e.finish (.stall k e.iss.pc.toNat .fetch false 0))
    | .freezes => .next (e.finish (.freezes e.iss.pc.toNat))
    | .consume => .next (e.finish (.consume e.iss.pc.toNat))

end Sys2Proof.Machine
end

