-- ==== Sys2Proof/Machine/Dispatch.lean ====
section
/-!
DEFINITION. The meaning of every instruction and event of the opcode table: one arm per constructor of
`Instr`, each a call of its meaning.
-/
namespace Sys2Proof.Machine

/-- Run an instruction word for the current issue, or an event of the machine. -/
def exec (i : Instr) (s : State) : Host.Outcome State Fault Refusal :=
  match i with
  | .iadd d a b q g => Sys2Proof.Machine.execIadd d a b q g s
  | .isub d a b q g => Sys2Proof.Machine.execIsub d a b q g s
  | .iadc d a b q c => Sys2Proof.Machine.execIadc d a b q c s
  | .isbb d a b q c => Sys2Proof.Machine.execIsbb d a b q c s
  | .imul d a b q g => Sys2Proof.Machine.execImul d a b q g s
  | .imulhS d a b q g => Sys2Proof.Machine.execImulhS d a b q g s
  | .imulhU d a b q g => Sys2Proof.Machine.execImulhU d a b q g s
  | .imad d a b q g => Sys2Proof.Machine.execImad d a b q g s
  | .and d a b q g => Sys2Proof.Machine.execAnd d a b q g s
  | .or d a b q g => Sys2Proof.Machine.execOr d a b q g s
  | .xor d a b q g => Sys2Proof.Machine.execXor d a b q g s
  | .shl d a b q g => Sys2Proof.Machine.execShl d a b q g s
  | .shr d a b q g => Sys2Proof.Machine.execShr d a b q g s
  | .sar d a b q g => Sys2Proof.Machine.execSar d a b q g s
  | .rotl d a b q g => Sys2Proof.Machine.execRotl d a b q g s
  | .bfeS d a b q g => Sys2Proof.Machine.execBfeS d a b q g s
  | .bfeU d a b q g => Sys2Proof.Machine.execBfeU d a b q g s
  | .bfi d a b q g => Sys2Proof.Machine.execBfi d a b q g s
  | .icmp c p a b q g => Sys2Proof.Machine.execIcmp c p a b q g s
  | .sel d a b q x => Sys2Proof.Machine.execSel d a b q x s
  | .bysel d a b q g => Sys2Proof.Machine.execBysel d a b q g s
  | .iaddImm d a imm => Sys2Proof.Machine.execIaddImm d a imm s
  | .imulImm d a imm => Sys2Proof.Machine.execImulImm d a imm s
  | .andImm d a imm => Sys2Proof.Machine.execAndImm d a imm s
  | .orImm d a imm => Sys2Proof.Machine.execOrImm d a imm s
  | .xorImm d a imm => Sys2Proof.Machine.execXorImm d a imm s
  | .shlImm d a n => Sys2Proof.Machine.execShlImm d a n s
  | .shrImm d a n => Sys2Proof.Machine.execShrImm d a n s
  | .sarImm d a n => Sys2Proof.Machine.execSarImm d a n s
  | .rotlImm d a n => Sys2Proof.Machine.execRotlImm d a n s
  | .movi d imm => Sys2Proof.Machine.execMovi d imm s
  | .seta k a => Sys2Proof.Machine.execSeta k a s
  | .aadd k imm => Sys2Proof.Machine.execAadd k imm s
  | .mov d a q g => Sys2Proof.Machine.execMov d a q g s
  | .not d a q g => Sys2Proof.Machine.execNot d a q g s
  | .iabs d a q g => Sys2Proof.Machine.execIabs d a q g s
  | .popc d a q g => Sys2Proof.Machine.execPopc d a q g s
  | .clz d a q g => Sys2Proof.Machine.execClz d a q g s
  | .brev d a q g => Sys2Proof.Machine.execBrev d a q g s
  | .fdiv d a l q g => Sys2Proof.Machine.execFdiv d a l q g s
  | .idivS d a l q g => Sys2Proof.Machine.execIdivS d a l q g s
  | .idivU d a l q g => Sys2Proof.Machine.execIdivU d a l q g s
  | .iremS d a l q g => Sys2Proof.Machine.execIremS d a l q g s
  | .iremU d a l q g => Sys2Proof.Machine.execIremU d a l q g s
  | .iminS d a q g => Sys2Proof.Machine.execIminS d a q g s
  | .iminU d a q g => Sys2Proof.Machine.execIminU d a q g s
  | .imaxS d a q g => Sys2Proof.Machine.execImaxS d a q g s
  | .imaxU d a q g => Sys2Proof.Machine.execImaxU d a q g s
  | .fadd d a b q g => Sys2Proof.Machine.execFadd d a b q g s
  | .fsub d a b q g => Sys2Proof.Machine.execFsub d a b q g s
  | .fmul d a b q g => Sys2Proof.Machine.execFmul d a b q g s
  | .ffma d a b q g => Sys2Proof.Machine.execFfma d a b q g s
  | .ffms d a b q g => Sys2Proof.Machine.execFfms d a b q g s
  | .fcmp c p a b q g => Sys2Proof.Machine.execFcmp c p a b q g s
  | .faddImm d a imm => Sys2Proof.Machine.execFaddImm d a imm s
  | .fmulImm d a imm => Sys2Proof.Machine.execFmulImm d a imm s
  | .ffmaImm d a imm => Sys2Proof.Machine.execFfmaImm d a imm s
  | .fabs d a q g => Sys2Proof.Machine.execFabs d a q g s
  | .fneg d a q g => Sys2Proof.Machine.execFneg d a q g s
  | .fclass d a q g => Sys2Proof.Machine.execFclass d a q g s
  | .fmin d a q g => Sys2Proof.Machine.execFmin d a q g s
  | .fmax d a q g => Sys2Proof.Machine.execFmax d a q g s
  | .fsqrt d a l q g => Sys2Proof.Machine.execFsqrt d a l q g s
  | .frcp d a l q g => Sys2Proof.Machine.execFrcp d a l q g s
  | .frsq d a l q g => Sys2Proof.Machine.execFrsq d a l q g s
  | .fexp2 d a l q g => Sys2Proof.Machine.execFexp2 d a l q g s
  | .flog2 d a l q g => Sys2Proof.Machine.execFlog2 d a l q g s
  | .fsin d a l q g => Sys2Proof.Machine.execFsin d a l q g s
  | .fcos d a l q g => Sys2Proof.Machine.execFcos d a l q g s
  | .ftanh d a l q g => Sys2Proof.Machine.execFtanh d a l q g s
  | .pkfmaH d a b q g => Sys2Proof.Machine.execPkfmaH d a b q g s
  | .pkfmaB d a b q g => Sys2Proof.Machine.execPkfmaB d a b q g s
  | .pkaddH d a q g => Sys2Proof.Machine.execPkaddH d a q g s
  | .pkmulH d a q g => Sys2Proof.Machine.execPkmulH d a q g s
  | .pkminH d a q g => Sys2Proof.Machine.execPkminH d a q g s
  | .pkmaxH d a q g => Sys2Proof.Machine.execPkmaxH d a q g s
  | .pksubH d a q g => Sys2Proof.Machine.execPksubH d a q g s
  | .pkaddB d a q g => Sys2Proof.Machine.execPkaddB d a q g s
  | .pkmulB d a q g => Sys2Proof.Machine.execPkmulB d a q g s
  | .pkminB d a q g => Sys2Proof.Machine.execPkminB d a q g s
  | .pkmaxB d a q g => Sys2Proof.Machine.execPkmaxB d a q g s
  | .pksubB d a q g => Sys2Proof.Machine.execPksubB d a q g s
  | .cvtS32F32 d a q g => Sys2Proof.Machine.execCvtS32F32 d a q g s
  | .cvtU32F32 d a q g => Sys2Proof.Machine.execCvtU32F32 d a q g s
  | .cvtF32S32 d a q g => Sys2Proof.Machine.execCvtF32S32 d a q g s
  | .cvtF32U32 d a q g => Sys2Proof.Machine.execCvtF32U32 d a q g s
  | .cvtF16F32 d a q g => Sys2Proof.Machine.execCvtF16F32 d a q g s
  | .cvtF32F16 d a q g => Sys2Proof.Machine.execCvtF32F16 d a q g s
  | .cvtBf16F32 d a q g => Sys2Proof.Machine.execCvtBf16F32 d a q g s
  | .cvtF32Bf16 d a q g => Sys2Proof.Machine.execCvtF32Bf16 d a q g s
  | .cvtF32F64 d a q g => Sys2Proof.Machine.execCvtF32F64 d a q g s
  | .cvtF64F32 d a q g => Sys2Proof.Machine.execCvtF64F32 d a q g s
  | .unpk d a q g => Sys2Proof.Machine.execUnpk d a q g s
  | .cvtn d a f c q g => Sys2Proof.Machine.execCvtn d a f c q g s
  | .cvtw d a f c q g => Sys2Proof.Machine.execCvtw d a f c q g s
  | .ql8 d r n f c q g => Sys2Proof.Machine.execQl8 d r n f c q g s
  | .dl8 d a f c q g => Sys2Proof.Machine.execDl8 d a f c q g s
  | .xl8 d a f e q g => Sys2Proof.Machine.execXl8 d a f e q g s
  | .lxi d a b q g => Sys2Proof.Machine.execLxi d a b q g s
  | .lxm d a b q g => Sys2Proof.Machine.execLxm d a b q g s
  | .lxr d a b q g => Sys2Proof.Machine.execLxr d a b q g s
  | .lxs d a b q g => Sys2Proof.Machine.execLxs d a b q g s
  | .lmask d a q g => Sys2Proof.Machine.execLmask d a q g s
  | .lpeer d a q g => Sys2Proof.Machine.execLpeer d a q g s
  | .compact d a q g => Sys2Proof.Machine.execCompact d a q g s
  | .lfirst d a q g => Sys2Proof.Machine.execLfirst d a q g s
  | .lfoldIadd d a q g => Sys2Proof.Machine.execLfoldIadd d a q g s
  | .lfoldIminS d a q g => Sys2Proof.Machine.execLfoldIminS d a q g s
  | .lfoldImaxS d a q g => Sys2Proof.Machine.execLfoldImaxS d a q g s
  | .lfoldAnd d a q g => Sys2Proof.Machine.execLfoldAnd d a q g s
  | .lfoldOr d a q g => Sys2Proof.Machine.execLfoldOr d a q g s
  | .lfoldXor d a q g => Sys2Proof.Machine.execLfoldXor d a q g s
  | .lfoldFadd d a q g => Sys2Proof.Machine.execLfoldFadd d a q g s
  | .lfoldFmax d a q g => Sys2Proof.Machine.execLfoldFmax d a q g s
  | .pand p a b g => Sys2Proof.Machine.execPand p a b g s
  | .por p a b g => Sys2Proof.Machine.execPor p a b g s
  | .pxor p a b g => Sys2Proof.Machine.execPxor p a b g s
  | .pnot p a g => Sys2Proof.Machine.execPnot p a g s
  | .pmov p a g => Sys2Proof.Machine.execPmov p a g s
  | .lany p a g => Sys2Proof.Machine.execLany p a g s
  | .lall p a g => Sys2Proof.Machine.execLall p a g s
  | .lagree p a g => Sys2Proof.Machine.execLagree p a g s
  | .lodd p a g => Sys2Proof.Machine.execLodd p a g s
  | .rdfx d q g => Sys2Proof.Machine.execRdfx d q g s
  | .wrfx a g => Sys2Proof.Machine.execWrfx a g s
  | .clrfx a g => Sys2Proof.Machine.execClrfx a g s
  | .sadd d a b => Sys2Proof.Machine.execSadd d a b s
  | .ssub d a b => Sys2Proof.Machine.execSsub d a b s
  | .smul d a b => Sys2Proof.Machine.execSmul d a b s
  | .sand d a b => Sys2Proof.Machine.execSand d a b s
  | .sor d a b => Sys2Proof.Machine.execSor d a b s
  | .sxor d a b => Sys2Proof.Machine.execSxor d a b s
  | .sshl d a b => Sys2Proof.Machine.execSshl d a b s
  | .sshr d a b => Sys2Proof.Machine.execSshr d a b s
  | .ssar d a b => Sys2Proof.Machine.execSsar d a b s
  | .smov d a => Sys2Proof.Machine.execSmov d a s
  | .scmp d a b c => Sys2Proof.Machine.execScmp d a b c s
  | .ssel d a b => Sys2Proof.Machine.execSsel d a b s
  | .saddImm d a imm => Sys2Proof.Machine.execSaddImm d a imm s
  | .sandImm d a imm => Sys2Proof.Machine.execSandImm d a imm s
  | .sorImm d a imm => Sys2Proof.Machine.execSorImm d a imm s
  | .sxorImm d a imm => Sys2Proof.Machine.execSxorImm d a imm s
  | .sshlImm d a n => Sys2Proof.Machine.execSshlImm d a n s
  | .sshrImm d a n => Sys2Proof.Machine.execSshrImm d a n s
  | .ssarImm d a n => Sys2Proof.Machine.execSsarImm d a n s
  | .smovi d imm => Sys2Proof.Machine.execSmovi d imm s
  | .sldc d imm => Sys2Proof.Machine.execSldc d imm s
  | .sld d a imm => Sys2Proof.Machine.execSld d a imm s
  | .sst d a imm => Sys2Proof.Machine.execSst d a imm s
  | .ldB d o b l x r => Sys2Proof.Machine.execLdB d o b l x r s
  | .ldH d o b l x r => Sys2Proof.Machine.execLdH d o b l x r s
  | .ldW d o b l x r => Sys2Proof.Machine.execLdW d o b l x r s
  | .ldD d o b l x r => Sys2Proof.Machine.execLdD d o b l x r s
  | .ldQ d o b l x r => Sys2Proof.Machine.execLdQ d o b l x r s
  | .stB d o b l x r => Sys2Proof.Machine.execStB d o b l x r s
  | .stH d o b l x r => Sys2Proof.Machine.execStH d o b l x r s
  | .stW d o b l x r => Sys2Proof.Machine.execStW d o b l x r s
  | .stD d o b l x r => Sys2Proof.Machine.execStD d o b l x r s
  | .stQ d o b l x r => Sys2Proof.Machine.execStQ d o b l x r s
  | .ldl d o b l z => Sys2Proof.Machine.execLdl d o b l z s
  | .ldt d o b l => Sys2Proof.Machine.execLdt d o b l s
  | .stl d o b l z => Sys2Proof.Machine.execStl d o b l z s
  | .atom d c v b l x r => Sys2Proof.Machine.execAtom d c v b l x r s
  | .atomFadd d v b l x r => Sys2Proof.Machine.execAtomFadd d v b l x r s
  | .atomD d c v b l x r => Sys2Proof.Machine.execAtomD d c v b l x r s
  | .fxadd d v b l x r => Sys2Proof.Machine.execFxadd d v b l x r s
  | .atoml d o b l c => Sys2Proof.Machine.execAtoml d o b l c s
  | .pref o b l => Sys2Proof.Machine.execPref o b l s
  | .zfill o b l x r => Sys2Proof.Machine.execZfill o b l x r s
  | .mma c a x f l r => Sys2Proof.Machine.execMma c a x f l r s
  | .mmah t a x f l r => Sys2Proof.Machine.execMmah t a x f l r s
  | .mmas c a x f l r => Sys2Proof.Machine.execMmas c a x f l r s
  | .hldReg t a l => Sys2Proof.Machine.execHldReg t a l s
  | .hstReg t a l => Sys2Proof.Machine.execHstReg t a l s
  | .hldScratch t x l => Sys2Proof.Machine.execHldScratch t x l s
  | .hstScratch t x l => Sys2Proof.Machine.execHstScratch t x l s
  | .hzero t l => Sys2Proof.Machine.execHzero t l s
  | .hdrn a b c l => Sys2Proof.Machine.execHdrn a b c l s
  | .hdrnMom a b c l => Sys2Proof.Machine.execHdrnMom a b c l s
  | .hdrnSq a b c l => Sys2Proof.Machine.execHdrnSq a b c l s
  | .pilotGt a b c l => Sys2Proof.Machine.execPilotGt a b c l s
  | .pilotTop a b c l => Sys2Proof.Machine.execPilotTop a b c l s
  | .mchk a b c l => Sys2Proof.Machine.execMchk a b c l s
  | .vset a b c l => Sys2Proof.Machine.execVset a b c l s
  | .vbase a b c l => Sys2Proof.Machine.execVbase a b c l s
  | .vinv a l => Sys2Proof.Machine.execVinv a l s
  | .vqry a b c l => Sys2Proof.Machine.execVqry a b c l s
  | .cpy d o b l z => Sys2Proof.Machine.execCpy d o b l z s
  | .cpym a b c l => Sys2Proof.Machine.execCpym a b c l s
  | .cpyo a b l => Sys2Proof.Machine.execCpyo a b l s
  | .cpyrw a b c l => Sys2Proof.Machine.execCpyrw a b c l s
  | .csig a b l => Sys2Proof.Machine.execCsig a b l s
  | .spawn d a b g => Sys2Proof.Machine.execSpawn d a b g s
  | .park d a b g => Sys2Proof.Machine.execPark d a b g s
  | .bflush a l => Sys2Proof.Machine.execBflush a l s
  | .cvoy a b c l => Sys2Proof.Machine.execCvoy a b c l s
  | .cvqry a c l => Sys2Proof.Machine.execCvqry a c l s
  | .bra p n o => Sys2Proof.Machine.execBra p n o s
  | .call p n o => Sys2Proof.Machine.execCall p n o s
  | .jmp x => Sys2Proof.Machine.execJmp x s
  | .callr x => Sys2Proof.Machine.execCallr x s
  | .nop => Sys2Proof.Machine.execNop s
  | .ret => Sys2Proof.Machine.execRet s
  | .exit => Sys2Proof.Machine.execExit s
  | .yield => Sys2Proof.Machine.execYield s
  | .bkpt c => Sys2Proof.Machine.execBkpt c s
  | .trap c => Sys2Proof.Machine.execTrap c s
  | .meld a b => Sys2Proof.Machine.execMeld a b s
  | .mset p x => Sys2Proof.Machine.execMset p x s
  | .mend => Sys2Proof.Machine.execMend s
  | .bar n x => Sys2Proof.Machine.execBar n x s
  | .bara n x => Sys2Proof.Machine.execBara n x s
  | .barw n x => Sys2Proof.Machine.execBarw n x s
  | .gbar => Sys2Proof.Machine.execGbar s
  | .fence o c => Sys2Proof.Machine.execFence o c s
  | .cinv c => Sys2Proof.Machine.execCinv c s
  | .waitc x => Sys2Proof.Machine.execWaitc x s
  | .shw d a g => Sys2Proof.Machine.execShw d a g s
  | .shrWindow d a g => Sys2Proof.Machine.execShrWindow d a g s
  | .shp d a g => Sys2Proof.Machine.execShp d a g s
  | .rdsr x r => Sys2Proof.Machine.execRdsr x r s
  | .wrsr x r => Sys2Proof.Machine.execWrsr x r s
  | .rdclk x => Sys2Proof.Machine.execRdclk x s
  | .errq x => Sys2Proof.Machine.execErrq x s
  | .imml p => Sys2Proof.Machine.execImml p s
  | .immh p => Sys2Proof.Machine.execImmh p s
  | .modArith r x n a => Sys2Proof.Machine.execModArith r x n a s
  | .modOffset o => Sys2Proof.Machine.execModOffset o s
  | .modCounter x imm => Sys2Proof.Machine.execModCounter x imm s
  | .modLane p n f => Sys2Proof.Machine.execModLane p n f s
  | .sched o d => Sys2Proof.Machine.execSched o d s
  | .loadDataReturn k => Sys2Proof.Machine.execLoadDataReturn k s
  | .atomicReturn k => Sys2Proof.Machine.execAtomicReturn k s
  | .parkedLaneResume cu part slot lane => Sys2Proof.Machine.execParkedLaneResume cu part slot lane s
  | .mmaComplete k => Sys2Proof.Machine.execMmaComplete k s
  | .lineLands k team line => Sys2Proof.Machine.execLineLands k team line s
  | .copyCommandComplete k => Sys2Proof.Machine.execCopyCommandComplete k s
  | .hdrnComplete k => Sys2Proof.Machine.execHdrnComplete k s
  | .pilotComplete k => Sys2Proof.Machine.execPilotComplete k s
  | .mchkComplete k => Sys2Proof.Machine.execMchkComplete k s
  | .collectiveComplete k => Sys2Proof.Machine.execCollectiveComplete k s
  | .convoyFlitReceive flit => Sys2Proof.Machine.execConvoyFlitReceive flit s
  | .berthTimerExpiry cu berth => Sys2Proof.Machine.execBerthTimerExpiry cu berth s
  | .berthIdleLaunch cu berth => Sys2Proof.Machine.execBerthIdleLaunch cu berth s
  | .berthGroupLaunch cu berth => Sys2Proof.Machine.execBerthGroupLaunch cu berth s
  | .ringDrain cu launch => Sys2Proof.Machine.execRingDrain cu launch s
  | .groupAged cu part slot => Sys2Proof.Machine.execGroupAged cu part slot s
  | .groupRelease cu part slot => Sys2Proof.Machine.execGroupRelease cu part slot s
  | .teamRelease team => Sys2Proof.Machine.execTeamRelease team s
  | .compaction move => Sys2Proof.Machine.execCompaction move s
  | .faultReport ctx fid => Sys2Proof.Machine.execFaultReport ctx fid s
  | .teamPlace launch => Sys2Proof.Machine.execTeamPlace launch s
  | .reservationClaim launch => Sys2Proof.Machine.execReservationClaim launch s
  | .preemptSave launch => Sys2Proof.Machine.execPreemptSave launch s
  | .teamRestore team => Sys2Proof.Machine.execTeamRestore team s
  | .launchComplete launch => Sys2Proof.Machine.execLaunchComplete launch s
  | .launchReplay launch => Sys2Proof.Machine.execLaunchReplay launch s
  | .queueSubmit ctx queue => Sys2Proof.Machine.execQueueSubmit ctx queue s
  | .launchNode ctx queue => Sys2Proof.Machine.execLaunchNode ctx queue s
  | .copyNode ctx queue => Sys2Proof.Machine.execCopyNode ctx queue s
  | .cvoyNode ctx queue => Sys2Proof.Machine.execCvoyNode ctx queue s
  | .condNode ctx queue => Sys2Proof.Machine.execCondNode ctx queue s
  | .whileNode ctx queue => Sys2Proof.Machine.execWhileNode ctx queue s
  | .signalSubtract ctx queue => Sys2Proof.Machine.execSignalSubtract ctx queue s
  | .signalSet ctx queue => Sys2Proof.Machine.execSignalSet ctx queue s
  | .waitNode ctx queue => Sys2Proof.Machine.execWaitNode ctx queue s
  | .snapshotTake ctx queue => Sys2Proof.Machine.execSnapshotTake ctx queue s
  | .snapshotRestore ctx queue => Sys2Proof.Machine.execSnapshotRestore ctx queue s
  | .snapshotDiscard ctx queue => Sys2Proof.Machine.execSnapshotDiscard ctx queue s
  | .invpt ctx => Sys2Proof.Machine.execInvpt ctx s
  | .fresumeRetry ctx => Sys2Proof.Machine.execFresumeRetry ctx s
  | .fresumeAbandon ctx => Sys2Proof.Machine.execFresumeAbandon ctx s
  | .qresume ctx => Sys2Proof.Machine.execQresume ctx s
  | .qabort ctx => Sys2Proof.Machine.execQabort ctx s
  | .gresumeRetry ctx => Sys2Proof.Machine.execGresumeRetry ctx s
  | .gresumeSkip ctx => Sys2Proof.Machine.execGresumeSkip ctx s
  | .gresumeAbort ctx => Sys2Proof.Machine.execGresumeAbort ctx s
  | .vinvall ctx => Sys2Proof.Machine.execVinvall ctx s
  | .contextCreate ctx => Sys2Proof.Machine.execContextCreate ctx s
  | .contextDestroy ctx => Sys2Proof.Machine.execContextDestroy ctx s
  | .ctxerrClear mask => Sys2Proof.Machine.execCtxerrClear mask s
  | .nodeidWrite value => Sys2Proof.Machine.execNodeidWrite value s
  | .portstatRead port => Sys2Proof.Machine.execPortstatRead port s
  | .go2 mask => Sys2Proof.Machine.execGo2 mask s
  | .registerWrite offset value => Sys2Proof.Machine.execRegisterWrite offset value s
  | .telem => Sys2Proof.Machine.execTelem s
  | .ppr => Sys2Proof.Machine.execPpr s
  | .retire => Sys2Proof.Machine.execRetire s
  | .fwstore => Sys2Proof.Machine.execFwstore s
  | .powerGood => Sys2Proof.Machine.execPowerGood s
  | .powerOff => Sys2Proof.Machine.execPowerOff s
  | .stage1TrainingDone u ok => Sys2Proof.Machine.execStage1TrainingDone u ok s
  | .cuSelfTestDone cu ok => Sys2Proof.Machine.execCuSelfTestDone cu ok s
  | .portTrainingDone port ok => Sys2Proof.Machine.execPortTrainingDone port ok s
  | .groupWatchdogExpiry cu part slot => Sys2Proof.Machine.execGroupWatchdogExpiry cu part slot s
  | .cuWatchdogExpiry cu => Sys2Proof.Machine.execCuWatchdogExpiry cu s
  | .harbourmasterWatchdogExpiry who => Sys2Proof.Machine.execHarbourmasterWatchdogExpiry who s
  | .eccCorrected site => Sys2Proof.Machine.execEccCorrected site s
  | .eccUncorrectableDetected site => Sys2Proof.Machine.execEccUncorrectableDetected site s
  | .flitCheckFail port victim => Sys2Proof.Machine.execFlitCheckFail port victim s
  | .refetch k linkOk => Sys2Proof.Machine.execRefetch k linkOk s
  | .errorWindowClose source unit => Sys2Proof.Machine.execErrorWindowClose source unit s
  | .errorRecordWrite ctx => Sys2Proof.Machine.execErrorRecordWrite ctx s
  | .powerLimitChange thermal enter => Sys2Proof.Machine.execPowerLimitChange thermal enter s
  | .thermalShutdown => Sys2Proof.Machine.execThermalShutdown s
  | .hostMemRead addr len => Sys2Proof.Machine.execHostMemRead addr len s
  | .hostMemWrite addr bytes => Sys2Proof.Machine.execHostMemWrite addr bytes s
  | .hostSnoop addr => Sys2Proof.Machine.execHostSnoop addr s
  | .remoteRequest r => Sys2Proof.Machine.execRemoteRequest r s
  | .packetForward node hops => Sys2Proof.Machine.execPacketForward node hops s
  | .undefinedEncoding w => Sys2Proof.Machine.execUndefinedEncoding w s
  | .instructionFetchFault => Sys2Proof.Machine.execInstructionFetchFault s
  | .viewCommandComplete k => Sys2Proof.Machine.execViewCommandComplete k s
  | .lastSourceRead k => Sys2Proof.Machine.execLastSourceRead k s
  | .malformedNode ctx queue => Sys2Proof.Machine.execMalformedNode ctx queue s
  | .malformedCommand ctx => Sys2Proof.Machine.execMalformedCommand ctx s
  | .malformedMailboxCommand => Sys2Proof.Machine.execMalformedMailboxCommand s

end Sys2Proof.Machine
end

