-- ==== Sys2Proof/Machine/Issue.lean ====
section
/-!
DEFINITION. Which threads issue (R256 to R264): the vote, the secondary, what holds an instruction on the
scoreboard or on a unit (R33, R35, R103, R104, R188, R208, R212, R213, R261, R292, R319), the choice of the group,
and what an issue leaves behind in AGE and in the performance counter (R249, R259).
-/
namespace Sys2Proof.Machine

/-! ### The vote -/

/-- An issue set: its lanes, its address, its pending hints. -/
structure Pick where
  lanes : BitVec 32
  pc : Word64
  hints : List Instr
  deriving DecidableEq, Repr

/-- The ready threads of a group (R256), with their lanes. -/
def Group.ready (g : Group) : List (Nat × Thread) :=
  (List.range 32).filterMap fun i => (g.thread? i).bind fun t => if t.wait = .ready then some (i, t) else none

/-- A thread's key ranks before another's (R257): the deeper call, then the lower address. -/
def Thread.before (a b : Thread) : Bool := b.depth < a.depth || (a.depth == b.depth && a.pc.toNat < b.pc.toNat)

/-- A thread of the lowest key (R257). -/
def lowestKey : List (Nat × Thread) → Option Thread
  | [] => none
  | p :: r => match lowestKey r with
    | none => some p.2
    | some t => if t.before p.2 then some t else some p.2

/-- The issue set of the lowest key of a pool, among the ready threads (R258): at one key, the threads with
pending hints. -/
def pickSet (rs pool : List (Nat × Thread)) : Option Pick :=
  (lowestKey pool).map fun t =>
    let same := pool.filter fun p => p.2.depth == t.depth && p.2.pc == t.pc
    let hs := ((same.find? fun p => !p.2.hints.isEmpty).map (·.2.hints)).getD []
    { lanes := maskOf 32 ((rs.filter fun p => p.2.pc == t.pc && p.2.hints == hs).map (·.1)), pc := t.pc, hints := hs }

/-- The greatest AGE of some threads. -/
def oldest (rs : List (Nat × Thread)) : Nat := rs.foldl (fun m p => max m p.2.age) 0

/-- The primary issue set (R258): of the greatest AGE where one has reached 256, else of the lowest key. Where threads in both
hint states hold the key of the greatest AGE, the set is that of a thread of that AGE (log 126). -/
def Group.primary (g : Group) : Option Pick :=
  let rs := g.ready
  pickSet rs (if 256 ≤ oldest rs then rs.filter fun p => p.2.age == oldest rs else rs)

/-- The secondary issue set (R260). -/
def Group.secondary (g : Group) (p : Pick) : Option Pick :=
  let rest := g.ready.filter fun q => !bitOf p.lanes.toNat q.1
  pickSet rest rest

/-- What an issue runs: an instruction, a word that is none (UNDEFINED_ENCODING), or a word that cannot be
fetched (INSTRUCTION_FETCH_FAULT). -/
inductive Work where
  | instr (i : Instr)
  | undefined (w : Word)
  | noFetch
  deriving DecidableEq, Repr

/-- What stands at an address (R97, R130). -/
def State.workAt (s : State) (cu ctx : Nat) (pc : Word64) : Work :=
  match s.fetch cu ctx pc with
  | .word w => match decode w with
    | .ok i => .instr i
    | .error _ => .undefined w
  | _ => .noFetch

/-! ### What holds an instruction (R261) -/

/-- s-registers that an operation in flight writes (R102). -/
def FlightOp.swrites : FlightOp → List Nat
  | .sload r _ => [r]
  | .lateSload r _ => [r]
  | .view v => [v.sd]
  | .mchk m => [m.sc]
  | _ => []

/-- The predicate that an operation in flight writes (R102, R222). -/
def FlightOp.pwrites : FlightOp → List Nat
  | .mchk m => [m.pd]
  | _ => []

/-- The operation sets flags when it ends (R33). -/
def FlightOp.setsFx : FlightOp → Bool
  | .atomic ws => ws.any (·.fx != 0)
  | .lateAtomic ops => ops.any (·.fx != 0)
  | .mma _ => true
  | .hdrn _ => true
  | .pilot _ => true
  | .mchk _ => true
  | _ => false

/-- A view command is in flight (R319). -/
def FlightOp.isView : FlightOp → Bool
  | .view _ => true
  | _ => false

/-- Registers of a lane that operations in flight still write. -/
def pendingRegs (fs : List Flight) (lane : Nat) : List Nat :=
  fs.flatMap fun f => f.op.vwrites.flatMap fun w => if w.1 = lane then w.2 else []

/-- MCHK is in flight: beyond its window only readers of its results wait (R223). -/
def FlightOp.isMchk : FlightOp → Bool
  | .mchk _ => true
  | _ => false

/-- Operands wait on the scoreboard (R33, R102, R103, R223): a word that drains waits for every pending write of its threads. -/
def Env.waitsOperands (e : Env) (sh : Shape) : Bool :=
  let fs := e.s.flights.filter (·.order == e.g.order)
  let hit := fun (f : Flight) => (f.lanes &&& e.iss.lanes) != 0
  (e.lanes.any fun n =>
    let regs := pendingRegs fs n
    (sh.drains && !regs.isEmpty) ||
    (e.thread n).any fun t => meets (e.regsOf sh.reads t false ++ e.regsOf sh.writes t true) regs) ||
  (fs.any fun f => meets (sh.sregs ++ if f.op.isMchk then [] else sh.swr) f.op.swrites) ||
  (fs.any fun f => hit f && ((sh.drains && !(f.op.swrites.isEmpty && f.op.pwrites.isEmpty)) ||
    meets (sh.preads ++ (if e.h.lane then [e.h.guard] else [])) (f.op.pwrites.filter (· != 0)))) ||
  (sh.waitsFx && fs.any fun f => hit f && f.op.setsFx)

/-- An array instruction (R208). -/
def usesArray : Instr → Bool
  | .mma _ _ _ _ _ _ => true
  | .mmah _ _ _ _ _ _ => true
  | .mmas _ _ _ _ _ _ => true
  | _ => false

/-- The tile that an array instruction accumulates in (R212). -/
def arrayTile : Instr → Option Nat
  | .mmah t _ _ _ _ _ => some t.toNat
  | _ => none

/-- The tile of a hold move (R212). -/
def movedTile : Instr → Option Nat
  | .hldReg t _ _ => some t.toNat
  | .hstReg t _ _ => some t.toNat
  | .hldScratch t _ _ => some t.toNat
  | .hstScratch t _ _ => some t.toNat
  | .hzero t _ => some t.toNat
  | _ => none

/-- A hold move that reads its tile (R213). -/
def readsTile : Instr → Bool
  | .hstReg _ _ _ => true
  | .hstScratch _ _ _ => true
  | _ => false

/-- The array, or the tile that a hold move names, is in use (R208, R212, R213). -/
def Env.unitBusy (e : Env) (i : Instr) : Bool :=
  let here := e.s.flights.filter fun f => f.cu == e.iss.cu && f.part == e.iss.part
  (usesArray i && here.any fun f => match f.op with
    | .mma _ => true
    | _ => false) ||
  (arrayTile i).any (fun t => here.any fun f => match f.op with
    | .lateHold h _ => f.team == e.team.id && h == t
    | _ => false) ||
  (movedTile i).any fun t =>
    (here.any fun f => f.team == e.team.id && (match f.op with
      | .mma m => m.tile == some t
      | .lateHold h _ => h == t
      | _ => false)) ||
    (readsTile i && e.s.tileLocked e.team.id e.iss.part t)

/-- Entries that a command takes in the range-lock tables (R292), by CU. -/
def Env.lockNeeds (e : Env) (i : Instr) : List (Nat × Nat) :=
  let own := fun (n : Nat) => [(e.iss.cu, n)]
  match i with
  | .cpy d o b _ z => own (e.cpyRuns d o b z).length
  | .cpym _ _ c _ => (((e.castTeams (e.sv c.toNat)).map (·.cu)).foldl insertNat []).map fun u => (u, 1)
  | .cpyo _ _ _ => own 1
  | .cpyrw _ _ _ _ => own 1
  | .hdrn _ _ _ _ => own 1
  | .hdrnMom _ _ _ _ => own 1
  | .hdrnSq _ _ _ _ => own 1
  | .pilotGt _ _ _ _ => own 2
  | .pilotTop _ _ _ _ => own 2
  | .mchk _ _ _ _ => own 3
  | .mma _ _ _ _ _ _ => own 1
  | .mmah _ _ _ _ _ _ => own 1
  | .mmas _ _ _ _ _ _ => own 1
  | _ => []

/-- A lighter command (R188). -/
def isCopyWord : Instr → Bool
  | .cpy _ _ _ _ _ => true
  | .cpym _ _ _ _ => true
  | .cpyo _ _ _ => true
  | .cpyrw _ _ _ _ => true
  | _ => false

/-- The lighter's queue or a range-lock table has no room (R188, R292), or a multicast of a launch with a saved
team waits for the restore (R298). -/
def Env.noRoom (e : Env) (i : Instr) : Bool :=
  (isCopyWord i && 64 ≤ (e.s.flights.filter fun f => f.cu == e.iss.cu && f.op.isCopy).length) ||
  ((e.lockNeeds i).any fun n => (e.s.cu? n.1).any fun c => 256 < c.lockCount + n.2) ||
  (match i with
   | .cpym _ _ _ _ => e.s.saved.any (·.team.launch == e.l.id)
   | _ => false)

/-- The word samples views or accesses memory, or orders accesses (R319). -/
def afterViews (i : Instr) (sh : Shape) : Bool :=
  match sh.cls with
  | .m => true
  | .x => true
  | .e => true
  | .c => true
  | _ => match i with
    | .sld _ _ _ => true
    | .sst _ _ _ => true
    | .sldc _ _ => true
    | _ => false

/-- An instruction is held (R261); a lookahead trap is raised without waiting (R102). -/
def Env.held (e : Env) (i : Instr) : Bool :=
  let sh := e.shape i
  let early := (e.lanes.any fun n => (e.thread n).any (e.guardAhead sh)) ||
    (e.take sh.guard).any fun n => (e.thread n).any (e.lookahead sh)
  !early && (e.waitsOperands sh || e.unitBusy i || e.noRoom i ||
    (afterViews i sh && e.s.flights.any fun f => f.order == e.g.order && f.op.isView))

/-! ### The choice of the group (R262, R263) -/

/-- An issue that could take place: the group, the issue, its instruction. -/
structure Turn where
  g : Group
  l : Launch
  iss : Issue
  work : Work
  deriving DecidableEq, Repr

/-- The issue of a pick. -/
def Group.issueOf (g : Group) (p : Pick) (secondary : Bool) : Issue :=
  { cu := g.cu, part := g.part, slot := g.slot, lanes := p.lanes, pc := p.pc, secondary := secondary,
    late := false }

/-- The issue is not held (R261). -/
def State.canIssue (s : State) (iss : Issue) (w : Work) : Bool :=
  (State.env? { s with cur := some iss }).any fun e => match w with
    | .instr i => !e.held i
    | _ => true

/-- Every team of a RESIDENT launch is placed, and none is saved (R377). -/
def State.gridThere (s : State) (l : Launch) : Bool :=
  !bitOf l.hdr.flags 0 || (l.hdr.gx * l.hdr.gy * l.hdr.gz ≤ l.nextTeam && !s.saved.any (·.team.launch == l.id))

/-- The primary issue of a group, where it is issuable (R258, R261, R265, R383). -/
def State.turnOf (s : State) (g : Group) : Option Turn :=
  match s.launch? g.launch with
  | none => none
  | some l =>
    if g.halt.isSome || l.stop.isSome || !s.gridThere l then none
    else g.primary.bind fun p =>
      let w := s.workAt g.cu l.ctx p.pc
      let iss := g.issueOf p false
      if s.canIssue iss w then some ⟨g, l, iss, w⟩ else none

/-- Rank of a group within its launch (R262, R263), the lower first. -/
def Group.rank (g : Group) : List Nat :=
  [if g.yielded then 1 else 0, if g.role.isNone then 1 else 0, g.role.getD 0, g.order]

/-- The rank of an issuable group (R262): aged groups, the longest-aged first; then priority, launch, role, placement. -/
def State.rank (s : State) (t : Turn) : List Nat :=
  if t.g.aged then [0, 2 ^ 64 - t.g.waited, t.g.slot]
  else [1, 16 - s.prioOf t.l, t.l.order.getD 0, t.l.id] ++ t.g.rank

/-- The issuable groups of a partition, in order of rank (R262). -/
def State.turns (s : State) (cu part : Nat) : List Turn :=
  sortBy (fun a b => rankLe (s.rank a) (s.rank b)) ((s.groups.filter fun g => g.cu == cu && g.part == part).filterMap s.turnOf)

/-- Two instructions pair in one cycle (R35, R104). -/
def pairUp (g : Group) (slots : List FSlot) (i j : Instr) : Bool :=
  let a := shapeOf g slots i
  let b := shapeOf g slots j
  a.cls.pairs b.cls && !meets a.swr (b.sregs ++ b.swr) && !meets b.swr a.sregs

/-- The secondary that pairs with a primary (R35, R104, R260, R441). -/
def State.pairOf (s : State) (t : Turn) : Option Issue :=
  if bitOf t.l.hdr.flags 1 then none
  else
    (t.g.secondary ⟨t.iss.lanes, t.iss.pc, []⟩).bind fun p =>
      let iss := t.g.issueOf p true
      match t.work, s.workAt t.g.cu t.l.ctx p.pc with
      | .instr i, .instr j => if pairUp t.g t.l.slots i j && s.canIssue iss (.instr j) then some iss else none
      | _, _ => none

/-- What a choice leaves behind in the groups of its partition (R262): an issuable group that did not issue waits one choice
longer, and is aged once it has waited 64; a group that could not issue starts again. A yield lasts until the group itself is
chosen (log 125). -/
def countWaits (chosen : Group) (ts : List Turn) (g : Group) : Group :=
  if g.cu = chosen.cu ∧ g.part = chosen.part then
    (if g.order = chosen.order then { g with waited := 0, aged := false, yielded := false, fresh := false }
     else if ts.any (·.g.order == g.order) then { g with waited := g.waited + 1, aged := g.aged || 64 ≤ g.waited + 1 }
     else { g with waited := 0, aged := false })
  else g

/-- A partition without a group that can issue has its turn (R262): none of its groups has waited issuable. -/
def State.noTurn (s : State) (cu part : Nat) : State :=
  { s with groups := s.groups.map fun g => if g.cu = cu ∧ g.part = part then { g with waited := 0, aged := false } else g }

/-- A partition takes its turn (R262): the machine with the issue current and its secondary waiting, and the
what it runs. The first issue of a berth-formed group is an acquire (R231). -/
def State.choose (s : State) (cu part : Nat) : Option (State × Work) :=
  match s.turns cu part with
  | [] => none
  | t :: ts =>
    let s1 := { s with groups := s.groups.map (countWaits t.g (t :: ts)), cur := some t.iss, port2 := s.pairOf t }
    some (if t.g.fresh then s1.acquire cu .module else s1, t.work)

/-! ### After an issue -/

/-- The word of an issue has not taken effect in a thread that waits so: it issues again (R166, R204, R236). -/
def Wait.again : Wait → Bool
  | .presence _ _ => true
  | .fault _ => true
  | .barrierAgain _ _ => true
  | _ => false

/-- A thread of the issue stays at its word to issue it again; a lane that RET has parked does not (R42). -/
def Issue.stays (iss : Issue) (t : Thread) : Bool := t.pc == iss.pc && t.wait.again

/-- The issue took place: not all its threads stayed at its word to issue it again. -/
def Issue.took (iss : Issue) (g : Group) : Bool :=
  !(lanesOf iss.lanes).all fun n => (g.thread? n).any iss.stays

/-- AGE of a thread after an issue of its group (R259); `other` holds the lanes of a secondary that follows. -/
def Issue.ageOf (iss : Issue) (other : BitVec 32) (was : Option Thread) (n : Nat) (t : Thread) : Thread :=
  if bitOf iss.lanes.toNat n then { t with age := 0 }
  else if iss.secondary || bitOf other.toNat n then t
  else if was.any (·.wait == .ready) then { t with age := min 256 (t.age + 1) } else t

/-- What an issue adds to the performance counter (R249). -/
def Group.perfAdds (g : Group) (iss : Issue) : Bool :=
  g.perfsel = 0 || (g.perfsel = 1 && iss.secondary) ||
  (g.perfsel = 2 && (lanesOf iss.lanes).any fun n => (g.thread? n).any (·.melded))

/-- Close an issue: `s0` is the machine in which it ran. Its group's watchdog starts again (R447). A primary that did not take place leaves nothing to its
secondary (R261). -/
def State.closeIssue (s s0 : State) : State :=
  match s0.cur with
  | none => s
  | some iss =>
    match s0.group? iss.cu iss.part iss.slot, s.group? iss.cu iss.part iss.slot with
    | some g0, some g =>
      if iss.took g then
        let other := (s.port2.map (·.lanes)).getD 0
        let add := g0.perfAdds iss
        let fix := fun (g : Group) =>
          { g with
            threads := g.threads.mapIdx fun n t => t.map (iss.ageOf other (g0.thread? n) n)
            perfcnt := if add && g.perfsel == g0.perfsel then g.perfcnt + 1 else g.perfcnt
            wdExpired := none }
        { s.updGroup iss.cu iss.part iss.slot fix with cur := none }
      else { s with cur := none, port2 := none }
    | _, _ => { s with cur := none, port2 := none }

end Sys2Proof.Machine
end

