-- ==== Sys2Proof/Machine/Early.lean ====
section
/-!
DEFINITION. Early reads (R328, R329, R336; log 7): a thread may read memory for a relaxed load of its program before the words in front of
that load issue. What it read is kept in `State.early` until the load issues, or until a word comes that orders the load after itself.
-/
namespace Sys2Proof.Machine

/-- The offset operand, the base, the bytes and the scope of a relaxed load (R167). -/
def loadWord : Instr → Option (BitVec 7 × BitVec 3 × Nat × Scope)
  | .ldB _ o b _ sc false => some (o, b, 1, sc)
  | .ldH _ o b _ sc false => some (o, b, 2, sc)
  | .ldW _ o b _ sc false => some (o, b, 4, sc)
  | .ldD _ o b _ sc false => some (o, b, 8, sc)
  | .ldQ _ o b _ sc false => some (o, b, 16, sc)
  | _ => none

/-- A lane may read early: it could issue, and names its registers as it will when it does (R36, R256). -/
def Env.mayReadEarly (e : Env) (t : Thread) : Bool :=
  t.wait == .ready && !t.melded && !e.g.fresh && e.g.halt.isNone && e.l.stop.isNone

/-- Nothing in flight still writes what an address comes from (R329). -/
def Env.addressStands (e : Env) (lane : Nat) (regs sregs : List Nat) : Bool :=
  let fs := e.s.flights.filter (·.order == e.g.order)
  !meets regs (pendingRegs fs lane) && !fs.any fun f => meets sregs f.op.swrites

/-- What a lane reads early for a load whose hints add `add` to its address (R162, R168, R328): no view, no fault, no marked sector, and
none of the bytes in an access of its own that is held back. -/
def Env.earlyRead (e : Env) (lane : Nat) (t : Thread) (o : BitVec 7) (b : BitVec 3) (n : Nat) (sc : Scope) (add : Int) :
    Option EarlyRead :=
  let off := Ref.code o 1
  let regs := e.namesOf [off] t
  let sregs := b.toNat :: codeSregs [off]
  if (92 ≤ o.toNat && o.toNat < 96) || (e.sel off t false).cause.isSome || meets regs t.bad || !e.addressStands lane regs sregs then none
  else (goodVA (e.ea b (regsNat (e.words off t)) + add)).bind fun va =>
    if isView va || va % n != 0 then none
    else match e.s.plainElem e.iss.cu e.l.ctx va n .read with
      | .at_ p _ _ =>
        let r := e.s.peek e.iss.cu sc p n
        if r.2 || (e.s.flights.any fun f => e.mine f && f.op.touches [(.mem p, n)]) then none
        else some ⟨e.g.order, lane, e.iss.pc, ⟨some (.mem p), va, n, 0, some r.1⟩, regs, sregs⟩
      | _ => none

/-- A thread reads memory early for the relaxed load at `pc` (R328). -/
def State.readEarly (s : State) (cu part slot lane : Nat) (pc : Word64) (add : Int) : State :=
  let iss : Issue := { cu := cu, part := part, slot := slot, lanes := maskOf 32 [lane], pc := pc, secondary := false, late := false }
  ((State.env? { s with cur := some iss }).bind fun e => (e.thread lane).bind fun t =>
    match s.workAt cu e.l.ctx pc with
    | .instr i => (loadWord i).bind fun w =>
      if e.mayReadEarly t then { e with h := {} }.earlyRead lane t w.1 w.2.1 w.2.2.1 w.2.2.2 add else none
    | _ => none).elim s fun r =>
    { s with early := r :: s.early.filter fun x => !(x.order == r.order && x.lane == r.lane && x.pc == r.pc) }

end Sys2Proof.Machine
end

