-- ==== Sys2Proof/Machine/Schedule.lean ====
section
/-!
DEFINITION. What the next step does (assumption log 6): the secondary of an issue, the first act of the schedule,
or, where the schedule is empty, an issue of the next partition.
-/
namespace Sys2Proof.Machine

/-- The outcome of a step or of a meaning. -/
abbrev Result := Host.Outcome State Fault Refusal

/-- The launch of the current issue has stopped. -/
def State.stoppedHere (s : State) : Bool := s.env?.any (·.l.stop.isSome)

/-! ### Checks at the boundaries of units (R436) -/

/-- The first byte that differs between two memories. -/
def Mem.differs (a b : Mem) : Option Nat := ((a ++ b).find? fun c => a.get c.1 != b.get c.1).map (·.1)

/-- The detector and the address of the first byte of memory or scratchpad that a step has written (R429, R430): the LLC, the CXL
link, the fabric, or a team's scratchpad. -/
def State.written (s t : State) : Option (Nat × Nat) :=
  (((s.dram.differs t.dram).map fun a => (2, a)).orElse fun _ => ((s.hostMem.differs t.hostMem).map fun a => (7, a)).orElse fun _ =>
    (s.peers.findSome? fun p => ((t.peers.find? (·.node == p.node)).bind fun q =>
      (p.mem.differs q.mem).orElse fun _ => p.hostMem.differs q.hostMem).map fun a => (6, a)).orElse fun _ =>
    s.teams.findSome? fun m => ((t.team? m.id).bind fun n => m.mem.differs n.mem).map fun a => (3, a))

/-- The operation in flight that an event carries on. -/
def eventFlight (i : Instr) : Option Nat :=
  match i with
  | .lineLands k _ _ => some k
  | .hdrnComplete k => some k
  | .pilotComplete k => some k
  | .mchkComplete k => some k
  | .viewCommandComplete k => some k
  | .collectiveComplete k => some k
  | .atomicReturn k => some k
  | _ => none

/-- A write of an operation in flight fails its check, and again when it is sent once more (R436): a collective fails, and of any other
operation the launch stops. -/
def State.flightLost (s : State) (k source addr : Nat) : State :=
  match s.flight? k with
  | none => s
  | some f => match f.op with
    | .convoy c => s.failConvoy f c 2 addr
    | _ => (s.stopConsumed f.launch (s.flightRec f 2 source 4 addr)).abandon f

/-- A write of the current issue fails its check twice (R436): its launch stops, and nothing of the issue takes effect. -/
def State.issueLost (s : State) (source addr : Nat) : State :=
  match s.env? with
  | none => s
  | some e => s.stopConsumed e.l.id (e.errRec 2 source 4 addr)

/-- A write of a COPY node fails its check twice (R436): it has no launch, and its queue parks (log 101). -/
def State.copyLost (s : State) (ctx q source addr : Nat) : State :=
  match s.standing ctx q with
  | none => s
  | some (_, _, w) =>
    ((((s.setStatus ctx q w.node 9).updWalk ctx q (·.goto w.node)).updQueue ctx q fun x => { x with parked := true }).report (some ctx)
      { s.queueRec q 2 source 6 w.node 0 with addr := addr })

/-- A write of the harbourmaster for a launch fails its check twice (R436): the launch stops. -/
def State.launchLost (s : State) (l : Launch) (source addr : Nat) : State :=
  s.stopConsumed l.id { ErrRec.ofLaunch s l 2 source 4 with addr := addr }

/-- The launch for which an event writes: that of the deposits that RING_DRAIN moves (R273), or of the first team that
PREEMPT_SAVE saves (R380). -/
def State.writesFor (s : State) (i : Instr) : Option Launch :=
  match i with
  | .ringDrain _ l => s.launch? l
  | .preemptSave l => (s.launch? l).bind fun w => ((s.victims w).head?).bind fun v => s.launch? v.launch
  | _ => none

/-- The disturbance of a write (R436; log 101): where a word of a program, an operation in flight, a COPY node, RING_DRAIN or PREEMPT_SAVE
has written memory or scratchpad while one stands, that write failed its check twice. -/
def State.checkWrites (s : State) (i : Instr) (t : State) : State :=
  if s.upset != some .write then t
  else match s.written t with
    | none => t
    | some (source, addr) =>
      let s1 := { s with upset := none }
      match i, eventFlight i with
      | .copyNode c q, _ => s1.copyLost c q source addr
      | _, some k => s1.flightLost k source addr
      | _, none => if i.encode.isSome then s1.issueLost source addr else (s.writesFor i).elim t fun l => s1.launchLost l source addr

/-- Where a read of a word has its bytes, and the detector that its check belongs to: a team's scratchpad, the CU's L1, or else memory
and the LLC (R429, R430). -/
def Env.readSites (e : Env) (i : Instr) : List LateSite :=
  (e.names i).flatMap fun x => match x with
    | .mem acc _ _ _ => if acc = .write then [] else (e.places x).map (·.1)
    | _ => (e.places x).map (·.1)

/-- The address of a read of a word that a detector can find bad (R429): at the boundary of the DRAM or the LLC the first bytes of memory
that it reads, or else its own word; at that of the L1 and the scratchpad the first bytes that it reads; none where it reads none. -/
def Env.readAddr (e : Env) (i : Instr) (source : Nat) : Option Nat :=
  match source with
  | 3 => (e.readSites i).head?.map fun x => match x with
    | .mem p => p.addr
    | .scr _ off => off
  | _ =>
    if source = 0 || 3 < source then none
    else ((e.readSites i).findSome? fun x => match x with
      | .mem p => some p.addr
      | .scr _ _ => none).orElse fun _ => match e.s.translate e.iss.cu e.l.ctx e.iss.pc.toNat .fetch with
        | .ok p => some p.addr
        | _ => none

/-- The issue of `s` took place and did not stop its launch. -/
def State.tookIn (s t : State) : Bool :=
  !t.stoppedHere && s.cur.any fun iss => (t.group? iss.cu iss.part iss.slot).any iss.took

/-- The disturbance of a read (R436, R440; log 101): a read of a word that takes effect, its own fetch among them, fails its check; it is read
again from the same address, which is a corrected event, or that fails too, and the launch stops with nothing of the issue done. -/
def State.checkReads (s : State) (i : Instr) (t : State) : State :=
  match s.upset, s.env? with
  | some (.read source lost), some e =>
    if i.encode.isNone || !s.tookIn t then t
    else (e.readAddr i source).elim t fun addr =>
      if lost then State.issueLost { s with upset := none } source addr
      else State.corrected { t with upset := none } (boundaryUnit source e.iss.cu addr) (some e.l.ctx)
        (e.errRec 1 source 2 addr)
  | _, _ => t

/-- Go on from a next state. -/
def thenNext (r : Result) (f : State → State) : Result :=
  match r with
  | .next s => .next (f s)
  | .fault x => .fault x
  | .refused x => .refused x

/-- Run an instruction and check what it reads and writes (R436). -/
def execChecked (i : Instr) (s : State) : Result := thenNext (exec i s) fun t => s.checkReads i (s.checkWrites i t)

/-- Run an instruction word once what it may not pass has reached memory (R328); where that stops its launch (R434), the word
has no effect. -/
def runInstr (i : Instr) (s : State) : Result :=
  let s1 := s.orderFor i
  if s1.stoppedHere && !s.stoppedHere then .next s1 else execChecked i s1

/-- Run what an issue selected. -/
def runWork (w : Work) (s : State) : Result :=
  match w with
  | .instr i => runInstr i s
  | .undefined w => execUndefinedEncoding w s
  | .noFetch => execInstructionFetchFault s

/-- The issues of this cycle hold their relaxed loads and stores back (R328). -/
def State.holdBack (s : State) : State :=
  { s with cur := s.cur.map fun i => { i with late := true }, port2 := s.port2.map fun i => { i with late := true } }

/-- Run the current issue and close it. -/
def issueNow (p : State × Work) : Result := thenNext (runWork p.2 p.1) fun t => t.closeIssue p.1

/-- The secondary port issues (R260): its threads are still ready and the machine can fetch for it. -/
def State.issueSecond (s : State) (iss : Issue) : Result :=
  let s1 := { s with port2 := none, cur := some iss }
  match s1.env? with
  | none => .next { s1 with cur := none }
  | some e =>
    if (e.lanes.all fun n => (e.thread n).any fun t => t.wait == .ready && t.pc == iss.pc) then
      issueNow (s1, s1.workAt iss.cu e.l.ctx iss.pc)
    else .next { s1 with cur := none }

/-- An event of the table: it is no instruction word and no part of an issue. -/
def isEvent (i : Instr) : Bool :=
  match i with
  | .undefinedEncoding _ => false
  | .instructionFetchFault => false
  | _ => i.encode.isNone

/-- A walk fills a translation cache; what is absent or malformed is never cached (R397). -/
def State.fillTlb (s : State) (unit ctx va : Nat) : State :=
  if s.tlb.any fun t => t.unit == unit && t.ctx == ctx && t.va ≤ va && va < t.va + t.size then s
  else if !canonical va || isView va then s
  else match s.ctx? ctx with
    | none => s
    | some c => match walk (s.tableWord .dram) s.bar0.nodeid va 5 c.desc.ptroot with
      | .leaf pte size => { s with tlb := { unit := unit, ctx := ctx, va := va / size * size, size := size, pte := pte } :: s.tlb }
      | _ => s

/-- One act of the schedule that is no event and no issue. -/
def State.cacheAct (s : State) (a : Act) : State :=
  match a with
  | .evictL1 cu p => s.dropL1 cu p
  | .evictView cu ctx v => { s with viewCache := s.viewCache.filter fun c => !(c.cu == cu && c.ctx == ctx && c.view == v) }
  | .fillTlb u c va => s.fillTlb u c va
  | .evictTlb u c va =>
    { s with tlb := s.tlb.filter fun t => !(t.unit == u && t.ctx == c && t.va ≤ va && va < t.va + t.size) }
  | .evictZero a => { s with zeroFlags := removeNat s.zeroFlags (a / 32 * 32) }
  | .upset u => { s with upset := some u }
  | .landStore f k =>
    let t := s.landStore f k
    if s.upset != some .write then t else (s.written t).elim t fun x => State.flightLost { s with upset := none } f x.1 x.2
  | .readEarly cu part slot lane pc add => s.readEarly cu part slot lane pc add
  | .readFail f source => s.readFail f source
  | .landElement f k => s.landElement f k
  | .hostStore a bs => s.hostStore a bs
  | .hdmBase base => s.setHdmBase base
  | .farResume ctx fid abandon => s.farResume ctx fid abandon
  | _ => s

/-! ### What happens where the schedule is empty -/

/-- Events that an operation in flight has before it. -/
def Flight.events (f : Flight) : List (State → Result) :=
  if f.refetch.isSome then [execRefetch f.id true]
  else match f.op with
    | .load _ => [execLoadDataReturn f.id]
    | .lateLoad _ _ => [execLoadDataReturn f.id]
    | .lateStore _ _ => [fun s => .next (s.landStore f.id 0)]
    | .lateAtomic _ => [execAtomicReturn f.id]
    | .lateSload _ _ => [execLoadDataReturn f.id]
    | .lateHold _ _ => [execLoadDataReturn f.id]
    | .sload _ _ => [execLoadDataReturn f.id]
    | .atomic _ => [execAtomicReturn f.id]
    | .mma _ => [execLastSourceRead f.id, execMmaComplete f.id]
    | .hdrn _ => [execHdrnComplete f.id]
    | .pilot _ => [execLastSourceRead f.id, execPilotComplete f.id]
    | .mchk _ => [execLastSourceRead f.id, execMchkComplete f.id]
    | .copy c => (c.todo.map fun x => execLineLands f.id x.1 x.2) ++ [execCopyCommandComplete f.id]
    | .view _ => [execViewCommandComplete f.id]
    | .convoy _ => [execCollectiveComplete f.id]

/-- Events of a group: parked lanes, aging, its release. -/
def Group.events (g : Group) : List (State → Result) :=
  ((List.range 32).map fun i => execParkedLaneResume g.cu g.part g.slot i) ++
  [execGroupAged g.cu g.part g.slot, execGroupRelease g.cu g.part g.slot]

/-- Events of the berths of a CU. -/
def Cu.events (c : Cu) : List (State → Result) :=
  (List.range 16).flatMap fun i => [execBerthGroupLaunch c.num i, execBerthIdleLaunch c.num i]

/-- Events of a launch. -/
def Launch.events (s : State) (l : Launch) : List (State → Result) :=
  (s.cus.map fun c => execRingDrain c.num l.id) ++ [execTeamPlace l.id, execLaunchComplete l.id, execLaunchReplay l.id, execPreemptSave l.id] ++
  if l.resident || s.holdsReservation l then [execReservationClaim l.id] else []

/-- Events of a queue of a context. -/
def queueEvents (ctx q : Nat) : List (State → Result) :=
  [execQueueSubmit ctx q, execLaunchNode ctx q, execCopyNode ctx q, execCvoyNode ctx q, execCondNode ctx q, execWhileNode ctx q,
   execSignalSubtract ctx q, execSignalSet ctx q, execWaitNode ctx q, execSnapshotTake ctx q, execSnapshotRestore ctx q,
   execSnapshotDiscard ctx q, execMalformedNode ctx q]

/-- Events of a context: its commands, its reports, its queues. -/
def Ctx.events (c : Ctx) : List (State → Result) :=
  [execInvpt c.id, execFresumeRetry c.id, execFresumeAbandon c.id, execQresume c.id, execQabort c.id, execGresumeRetry c.id,
   execGresumeSkip c.id, execGresumeAbort c.id, execVinvall c.id, execMalformedCommand c.id, execErrorRecordWrite (some c.id)] ++
  (c.faults.map fun x => execFaultReport c.id x.fid) ++ ((List.range c.queues.length).flatMap (queueEvents c.id))

/-- Compaction where a placement waits (R280). -/
def State.packing (s : State) : List (State → Result) := s.moves.map execCompaction

/-- What time alone brings, where nothing else happens: the timers of berths (R269) and the ends of error windows (R432). -/
def State.timers (s : State) : List (State → Result) :=
  (s.cus.flatMap fun c => (List.range 16).map fun i => execBerthTimerExpiry c.num i) ++
  s.windows.map fun w => execErrorWindowClose w.source w.unit

/-- Events of the module that wait for nothing but their turn, timers last. -/
def State.events (s : State) : List (State → Result) :=
  s.flights.flatMap Flight.events ++ s.groups.flatMap Group.events ++ (s.teams.map fun t => execTeamRelease t.id) ++
  s.cus.flatMap Cu.events ++ s.launches.flatMap (Launch.events s) ++ (s.saved.map fun v => execTeamRestore v.team.id) ++
  s.ctxs.flatMap Ctx.events ++ [execErrorRecordWrite none] ++ s.packing ++ s.timers

/-- The first of some events that changes the machine. -/
def State.firstChange (s : State) : List (State → Result) → Option Result
  | [] => none
  | f :: fs => match f s with
    | .next t => if t = s then s.firstChange fs else some (.next t)
    | r => some r

/-- The first partition, from a position of the rotation, that can issue. -/
def State.nextTurn (s : State) : List (Nat × Nat) → Option (State × Work)
  | [] => none
  | p :: ps => match s.choose p.1 p.2 with
    | some t => some t
    | none => (s.noTurn p.1 p.2).nextTurn ps

/-- The partitions of the CUs that hold state. -/
def State.partitions (s : State) : List (Nat × Nat) := s.cus.flatMap fun c => (List.range 4).map fun p => (c.num, p)

/-- An issue of the next partition that can issue. -/
def State.anyIssue (s : State) : Option Result :=
  let ps := s.partitions
  let k := if ps.isEmpty then 0 else s.turn % ps.length
  (State.nextTurn { s with turn := s.turn + 1 } (ps.drop k ++ ps.take k)).map issueNow

/-- What a step does where the schedule is empty: issues and events take turns. -/
def State.idle (s : State) : Result :=
  let ev := fun (_ : Unit) => s.firstChange s.events
  let is := fun (_ : Unit) => s.anyIssue
  let r := if s.clock % 2 = 0 then (ev ()).orElse is else (is ()).orElse ev
  r.getD (.next s)

/-- Perform one act of the schedule. -/
def State.perform (s : State) (a : Act) : Result :=
  match a with
  | .event i => if isEvent i then execChecked i s else .next s
  | .issue cu part => match s.choose cu part with
    | some t => issueNow t
    | none => .next (s.noTurn cu part)
  | .issueLate cu part => match s.choose cu part with
    | some t => issueNow (t.1.holdBack, t.2)
    | none => .next (s.noTurn cu part)
  | _ => .next (s.cacheAct a)

/-- What a step does once time has passed. -/
def State.proceed (s : State) : Result :=
  match s.port2 with
  | some iss => s.issueSecond iss
  | none => match s.agenda with
    | a :: r => { s with agenda := r }.perform a
    | [] => s.idle

end Sys2Proof.Machine
end

