-- ==== Sys2Proof/Machine/Step.lean ====
section
/-!
DEFINITION. One step of the machine, and the machine in which a given instruction is the next to run.
-/
namespace Sys2Proof.Machine

/-- One step: time passes, and one thing happens. -/
def step (s : State) : Host.Outcome State Fault Refusal := State.proceed { s with clock := s.clock + 1 }

/-- The machine with an instruction of the opcode table as the next that issues (assumption log 5); an event of
the table has no bits and is not placed. -/
def State.withFetchWord (s : State) (nbits w : Nat) : State := s.place (Sys2Proof.wordBytes (w % 2 ^ min nbits 32))

end Sys2Proof.Machine
end

