-- ==== Sys2Proof/Safety.lean ====
section
/-!
DEFINITION. The terms that claims about the machine use: a safe run, a memory in canonical form, an issue that
meets no trap, and what a word has left as it was.
-/
namespace Sys2Proof.Safety
open Sys2Proof.Machine

/-! ### Runs -/

/-- A step goes on. -/
def Goes (s : State) : Prop := ∃ t, step s = .next t

/-- `n` steps lead from a state to another. -/
inductive Runs : Nat → State → State → Prop where
  | done (s : State) : Runs 0 s s
  | more (n : Nat) (s t u : State) : step s = .next t → Runs n t u → Runs (n + 1) s u

/-- Every state that a run from `s` reaches goes on. -/
def Safe (s : State) : Prop := ∀ n t, Runs n s t → Goes t

/-! ### Memory -/

/-- The scratchpad and the hold tiles of a team have their canonical form. -/
def TeamMemOk (t : Team) : Prop := t.mem.wf = true ∧ ∀ h ∈ t.hold, h.mem.wf = true

/-- Every byte memory has its canonical form: device DRAM, host memory, the memories of peers and of their hosts, and the scratchpads and hold
tiles of the teams, saved ones too. -/
def MemOk (s : State) : Prop :=
  s.dram.wf = true ∧ s.hostMem.wf = true ∧ (∀ p ∈ s.peers, p.mem.wf = true ∧ p.hostMem.wf = true) ∧ (∀ t ∈ s.teams, TeamMemOk t) ∧ ∀ v ∈ s.saved, TeamMemOk v.team

/-- Every byte of physical memory reads in `t` as in `s`, with its mark. -/
def SameMemory (s t : State) : Prop :=
  ∀ p : PAddr, (t.memOf p.space).get p.addr = (s.memOf p.space).get p.addr ∧ t.loadPhys p 1 = s.loadPhys p 1

/-! ### An issue of a word -/

/-- The machine has the issue `e`, and the word `i` meets in it no condition of its own word, hints and operands, none
of `more`, no mismatch of a paired issue and no poison (R434, R441, R458). -/
def Clear (s : State) (i : Instr) (e : Env) (more : List Cond) : Prop :=
  s.env? = some e ∧ worst (e.conds i (e.shape i) ++ more) = none ∧ e.mismatch = false ∧ e.poisoned (e.shape i) = false

/-- The lanes of the issue that take part in the word (R224). -/
def Taking (e : Env) (i : Instr) : List Nat := e.take (e.shape i).guard

/-- A lane of the issuing group in another state. -/
def laneIn (t : State) (e : Env) (n : Nat) : Option Thread := (t.group? e.iss.cu e.iss.part e.iss.slot).bind (·.thread? n)

/-- A thread of the issue past the word. -/
def passed (e : Env) (i : Instr) (takes : Bool) (t0 : Thread) : Thread := t0.past (e.windowsAfter (e.shape i) takes t0)

/-- Nothing but the issuing group differs: no other group, no memory, no other piece of the machine. -/
def OnlyGroup (s t : State) (e : Env) : Prop :=
  { t with groups := s.groups } = s ∧
  ∀ cu part slot, (cu, part, slot) ≠ (e.iss.cu, e.iss.part, e.iss.slot) → t.group? cu part slot = s.group? cu part slot

/-- Nothing but threads of the issuing group differ. -/
def OnlyThreads (s t : State) (e : Env) : Prop :=
  OnlyGroup s t e ∧ ∃ g, t.group? e.iss.cu e.iss.part e.iss.slot = some g ∧ { g with threads := e.g.threads } = e.g

/-- What the word leaves in every lane: lanes that take part are past the word and then changed by `f`, which sees the
thread before the issue; other lanes of the issue are past the word; every other lane is as it was. -/
def Lanes (t : State) (e : Env) (i : Instr) (f : Nat → Thread → Thread → Thread) : Prop :=
  (∀ n ∈ Taking e i, ∀ t0, e.thread n = some t0 → laneIn t e n = some (f n t0 (passed e i true t0))) ∧
  (∀ n ∈ e.lanes, n ∉ Taking e i → ∀ t0, e.thread n = some t0 → laneIn t e n = some (passed e i false t0)) ∧
  (∀ n, n ∉ e.lanes → laneIn t e n = e.thread n)

/-- The word completes, changing threads of its group only. -/
def ThreadsBecome (s : State) (e : Env) (i : Instr) (f : Nat → Thread → Thread → Thread) : Prop :=
  ∃ t, exec i s = .next t ∧ OnlyThreads s t e ∧ Lanes t e i f

/-- The word completes with these words in the registers that `d` names, and ORs flags into FX unless `q` (R32). -/
def RegsBecome (s : State) (e : Env) (i : Instr) (d : Ref) (q : Bool) (f : Nat → Thread → List Word × Nat) : Prop :=
  ThreadsBecome s e i fun n t0 t => (t.putRegs (e.sel d t0 true).list (f n t0).1).orFx q (f n t0).2

/-- The word completes with this value in a predicate. -/
def PredBecomes (s : State) (e : Env) (i : Instr) (p : BitVec 3) (q : Bool) (f : Nat → Thread → Bool × Nat) : Prop :=
  ThreadsBecome s e i fun n t0 t => (t.setP p.toNat (f n t0).1).orFx q (f n t0).2

/-- A uniform word completes with this value in an s-register; s0 stays (R34, R125). -/
def SregBecomes (s : State) (e : Env) (i : Instr) (d : BitVec 6) (v : Nat) : Prop :=
  ∃ t, exec i s = .next t ∧ OnlyGroup s t e ∧ Lanes t e i (fun _ _ t => t) ∧
    ∃ g, t.group? e.iss.cu e.iss.part e.iss.slot = some g ∧
      { g with threads := e.g.threads, sregs := e.g.sregs } = e.g ∧
      g.sregs = if d = 0 then e.g.sregs else e.g.sregs.set d.toNat (BitVec.ofNat 64 v)

/-- A one-register operand of a lane, as a 32-bit word (R24). -/
def word (e : Env) (c : BitVec 7) (t : Thread) : Word := BitVec.ofNat 32 (e.val c 1 t)

/-- An s-register as a 64-bit word. -/
def sword (e : Env) (k : BitVec 6) : Word64 := BitVec.ofNat 64 (e.sv k.toNat)

end Sys2Proof.Safety
end

