-- ==== Sys2Proof/Certificates/Slice0/Obligations.lean ====
section
/-!
DEFINITION. The statements about the machine that are to be proved. Each says which rule of the manual it formalises,
or which choice of the model it rests on. `Sys2Proof.Claims` holds the shapes that several statements share.
-/
namespace Sys2Proof.Claims
open Sys2Proof.Machine Sys2Proof.Safety

/-- An integer result under a SAT hint (R118): `f` on signed values and clamped to signed 32 bits under SAT 1, on
unsigned values and clamped to unsigned 32 bits under SAT 2, else modulo 2^32. -/
def satWord (sat : Nat) (f : Int → Int → Int → Int) (x y z : Word) : Word :=
  if sat = 1 then BitVec.ofInt 32 (max (-2147483648) (min 2147483647 (f x.toInt y.toInt z.toInt)))
  else if sat = 2 then BitVec.ofInt 32 (max 0 (min 4294967295 (f x.toNat y.toNat z.toNat)))
  else BitVec.ofInt 32 (f x.toNat y.toNat z.toNat)

/-- A V3 word d, a, b that completes with `f` of its sources, in every lane that takes part. -/
def Two (mk : BitVec 7 → BitVec 7 → BitVec 7 → Bool → BitVec 3 → Instr) (f : Hints → Word → Word → Word) : Prop :=
  ∀ (d a b : BitVec 7) (q : Bool) (g : BitVec 3) (s : State) (e : Env), Clear s (mk d a b q g) e [] →
    RegsBecome s e (mk d a b q g) (.code d 1) q fun _ t => ([f e.h (word e a t) (word e b t)], 0)

/-- The same where the old destination is a third source. -/
def Three (mk : BitVec 7 → BitVec 7 → BitVec 7 → Bool → BitVec 3 → Instr) (f : Hints → Word → Word → Word → Word) : Prop :=
  ∀ (d a b : BitVec 7) (q : Bool) (g : BitVec 3) (s : State) (e : Env), Clear s (mk d a b q g) e [] →
    RegsBecome s e (mk d a b q g) (.code d 1) q fun _ t => ([f e.h (word e a t) (word e b t) (word e d t)], 0)

/-- A V2 word d, a that completes with `f` of its source. -/
def One (mk : BitVec 7 → BitVec 7 → Bool → BitVec 3 → Instr) (f : Word → Word) : Prop :=
  ∀ (d a : BitVec 7) (q : Bool) (g : BitVec 3) (s : State) (e : Env), Clear s (mk d a q g) e [] →
    RegsBecome s e (mk d a q g) (.code d 1) q fun _ t => ([f (word e a t)], 0)

/-- A V2 word D := D op A that completes with `f` of both and flags. -/
def OnSelf (mk : BitVec 7 → BitVec 7 → Bool → BitVec 3 → Instr) (f : Word → Word → Word × Nat) : Prop :=
  ∀ (d a : BitVec 7) (q : Bool) (g : BitVec 3) (s : State) (e : Env), Clear s (mk d a q g) e [] →
    RegsBecome s e (mk d a q g) (.code d 1) q fun _ t => let r := f (word e d t) (word e a t); ([r.1], r.2)

/-- The same with a lookahead field. -/
def OnSelfLong (mk : BitVec 7 → BitVec 7 → BitVec 4 → Bool → BitVec 3 → Instr) (f : Hints → Word → Word → Word × Nat) : Prop :=
  ∀ (d a : BitVec 7) (l : BitVec 4) (q : Bool) (g : BitVec 3) (s : State) (e : Env), Clear s (mk d a l q g) e [] →
    RegsBecome s e (mk d a l q g) (.code d 1) q fun _ t => let r := f e.h (word e d t) (word e a t); ([r.1], r.2)

/-- A VI word d, a with an 11-bit immediate that completes with `f` of its source. No flag changes. -/
def WithImm (mk : BitVec 7 → BitVec 7 → BitVec 11 → Instr) (f : Hints → BitVec 11 → Word → Word) : Prop :=
  ∀ (d a : BitVec 7) (i : BitVec 11) (s : State) (e : Env), Clear s (mk d a i) e [] →
    RegsBecome s e (mk d a i) (.code d 1) true fun _ t => ([f e.h i (word e a t)], 0)

/-- A VI shift by an immediate amount. -/
def WithAmount (mk : BitVec 7 → BitVec 7 → BitVec 5 → Instr) (f : Nat → Word → Word) : Prop :=
  ∀ (d a : BitVec 7) (n : BitVec 5) (s : State) (e : Env), Clear s (mk d a n) e [] →
    RegsBecome s e (mk d a n) (.code d 1) true fun _ t => ([f (e.h.imml.getD n.toNat) (word e a t)], 0)

/-- The 32-bit immediate of R100 over a field that has been extended to 32 bits: IMML alone gives its 25 bits sign-extended,
IMML and IMMH give 25 and 7 bits. -/
def wideImm (h : Hints) (x : Word) : Word :=
  match h.imml, h.immh with
  | some p, some q => BitVec.ofNat 7 q ++ BitVec.ofNat 25 p
  | some p, none => (BitVec.ofNat 25 p).signExtend 32
  | none, _ => x

/-- A flag code of FX (R31): division by zero. -/
def dz : Nat := 2

/-- A predicate as a number. -/
def one (b : Bool) : Word := if b then 1 else 0

/-- Position and length of a field operand (R115). -/
def posOf (b : Word) : Nat := (b &&& 31).toNat
def lenOf (b : Word) : Nat := min ((b >>> 8) &&& 63).toNat 32

/-- A word with its `n` low bits set. -/
def lowOnes (n : Nat) : Word := BitVec.ofNat 32 (2 ^ n - 1)

/-- A result byte of BYSEL (R116). -/
def selByte (a b d : Word) (k : Nat) : BitVec 8 :=
  let x := (d ++ a).extractLsb' (8 * (b.extractLsb' (3 * k) 3).toNat) 8
  if b.getLsbD (12 + k) then 0 else if b.getLsbD (16 + k) then (if x.msb then 0xFF else 0) else x

/-- a cc b (R90, R122). -/
def compares {n : Nat} (c : ICmp) (x y : BitVec n) : Bool :=
  match c with
  | .eq => x == y
  | .ne => x != y
  | .ltS => x.slt y
  | .leS => x.sle y
  | .gtS => y.slt x
  | .geS => y.sle x
  | .ltU => x.ult y
  | .leU => x.ule y
  | .gtU => y.ult x
  | .geU => y.ule x

/-- The table of R149 on exact values: where they are ordered, `FV.cmp` compares them. -/
def comparesFP (c : FCmp) (x y : FV) : Bool :=
  let un := x.isNan || y.isNan
  match c with
  | .eq => !un && FV.cmp x y == .eq
  | .ne => un || FV.cmp x y != .eq
  | .lt => !un && FV.cmp x y == .lt
  | .le => !un && (FV.cmp x y == .lt || FV.cmp x y == .eq)
  | .gt => !un && FV.cmp x y == .gt
  | .ge => !un && (FV.cmp x y == .gt || FV.cmp x y == .eq)
  | .un => un
  | .ord => !un

/-- NV of a comparison (R149): any NaN for the four orderings, a signalling one for the others. -/
def invalidIn (c : FCmp) (x y : FV) : Nat :=
  match c with
  | .lt | .le | .gt | .ge => if x.isNan || y.isNan then fxNV else 0
  | _ => nanFlags [x, y]

/-- A rounded result as a word with its flags. -/
def asWord (r : Rounded) : Word × Nat := (BitVec.ofNat 32 r.pat, r.fx)

/-- FP forms: two sources; two and the old destination; one; D := D op A; the same with lookahead; one with an immediate;
a function of one source. Patterns are read as numbers. -/
def FTwo (mk : BitVec 7 → BitVec 7 → BitVec 7 → Bool → BitVec 3 → Instr) (f : Hints → Nat → Nat → Rounded) : Prop :=
  ∀ (d a b : BitVec 7) (q : Bool) (g : BitVec 3) (s : State) (e : Env), Clear s (mk d a b q g) e [] →
    RegsBecome s e (mk d a b q g) (.code d 1) q fun _ t =>
      let r := asWord (f e.h (word e a t).toNat (word e b t).toNat); ([r.1], r.2)
def FThree (mk : BitVec 7 → BitVec 7 → BitVec 7 → Bool → BitVec 3 → Instr) (f : Hints → Nat → Nat → Nat → Rounded) : Prop :=
  ∀ (d a b : BitVec 7) (q : Bool) (g : BitVec 3) (s : State) (e : Env), Clear s (mk d a b q g) e [] →
    RegsBecome s e (mk d a b q g) (.code d 1) q fun _ t =>
      let r := asWord (f e.h (word e a t).toNat (word e b t).toNat (word e d t).toNat); ([r.1], r.2)
def FOne (mk : BitVec 7 → BitVec 7 → Bool → BitVec 3 → Instr) (f : Hints → Nat → Rounded) : Prop :=
  ∀ (d a : BitVec 7) (q : Bool) (g : BitVec 3) (s : State) (e : Env), Clear s (mk d a q g) e [] →
    RegsBecome s e (mk d a q g) (.code d 1) q fun _ t => let r := asWord (f e.h (word e a t).toNat); ([r.1], r.2)
def FSelf (mk : BitVec 7 → BitVec 7 → Bool → BitVec 3 → Instr) (f : Hints → Nat → Nat → Rounded) : Prop :=
  ∀ (d a : BitVec 7) (q : Bool) (g : BitVec 3) (s : State) (e : Env), Clear s (mk d a q g) e [] →
    RegsBecome s e (mk d a q g) (.code d 1) q fun _ t =>
      let r := asWord (f e.h (word e d t).toNat (word e a t).toNat); ([r.1], r.2)
def FSelfLong (mk : BitVec 7 → BitVec 7 → BitVec 4 → Bool → BitVec 3 → Instr) (f : Hints → Nat → Nat → Rounded) : Prop :=
  ∀ (d a : BitVec 7) (l : BitVec 4) (q : Bool) (g : BitVec 3) (s : State) (e : Env), Clear s (mk d a l q g) e [] →
    RegsBecome s e (mk d a l q g) (.code d 1) q fun _ t =>
      let r := asWord (f e.h (word e d t).toNat (word e a t).toNat); ([r.1], r.2)
def FImm (mk : BitVec 7 → BitVec 7 → BitVec 11 → Instr) (f : Hints → Nat → Nat → Nat → Rounded) : Prop :=
  ∀ (d a : BitVec 7) (i : BitVec 11) (s : State) (e : Env), Clear s (mk d a i) e [] →
    RegsBecome s e (mk d a i) (.code d 1) false fun _ t =>
      let r := asWord (f e.h (wideImm e.h (i ++ 0#21)).toNat (word e a t).toNat (word e d t).toNat); ([r.1], r.2)
def FFun (mk : BitVec 7 → BitVec 7 → BitVec 4 → Bool → BitVec 3 → Instr) (f : Fun1) : Prop :=
  ∀ (d a : BitVec 7) (l : BitVec 4) (q : Bool) (g : BitVec 3) (s : State) (e : Env), Clear s (mk d a l q g) e [] →
    RegsBecome s e (mk d a l q g) (.code d 1) q fun _ t =>
      let r := asWord (fun1 f e.h.mode (fp32.decode (modA e.h (word e a t).toNat))); ([r.1], r.2)

/-- Where a value z that is not negative lies beside √x, 1 ÷ x or 1 ÷ √x of a positive x (R150): z² beside x, z x beside 1, z² x beside 1. -/
def besideFun (f : Fun1) (x z : FV) : Ordering :=
  let times := fun (p q : FV) => (FV.mul p q).getD oneFV
  match f with
  | .sqrt => FV.cmp (times z z) x
  | .rcp => FV.cmp (times z x) oneFV
  | _ => FV.cmp (times (times z z) x) oneFV

/-- A power of two. -/
def twoPow (k : Int) : FV := .fin false 1 k

/-- The values are equal. -/
def sameValue (x y : FV) : Prop := x.isNan = false ∧ y.isNan = false ∧ FV.cmp x y = .eq

/-- The bit of FCLASS's mask that an FP32 pattern sets (R148). -/
def classBit (x : Nat) : Nat :=
  let neg := bitOf x 31
  match fp32.decode x with
  | .nan n => if n.sig then 0 else 1
  | .inf _ => if neg then 2 else 9
  | .fin _ m _ =>
    if m = 0 then (if neg then 5 else 6)
    else if x / 2 ^ 23 % 256 = 0 then (if neg then 4 else 7)
    else if neg then 3 else 8

/-- A half of a packed operand after MOD ARITH, which acts on both halves (R151). -/
def half (h : Hints) (bit x k : Nat) : Nat := modPat h bit 0x80008000 x / 2 ^ (16 * k) % 65536

/-- Two element results in one register, with the flags of both. -/
def halves (f : Nat → Rounded) : Rounded := ⟨(f 0).pat + 65536 * (f 1).pat, (f 0).fx ||| (f 1).fx⟩

/-- The low nibbles of the four bytes of a word, one a byte (R173). -/
def nibblesOf (x : Word) : Word := x &&& 0x0F0F0F0F#32

/-- Codes of `w` bits side by side, the first lowest (R45). -/
def joined (w : Nat) : List Nat → Nat
  | [] => 0
  | x :: xs => x + 2 ^ w * joined w xs

/-- The flags of several results. -/
def flagsOf (rs : List Rounded) : Nat := rs.foldl (fun x r => x ||| r.fx) 0

/-- Lanes that take part with what a source reads there, ascending. -/
def laneWords (e : Env) (g : BitVec 3) (a : BitVec 7) : List (Nat × Word) :=
  (e.take (.pred g)).filterMap fun n => (e.thread n).map fun t => (n, word e a t)

/-- A lane exchange by the source lane that lane n names (R225). -/
def Exchange (mk : BitVec 7 → BitVec 7 → BitVec 7 → Bool → BitVec 3 → Instr) (src : Nat → Word → Option Nat) : Prop :=
  ∀ (d a b : BitVec 7) (q : Bool) (g : BitVec 3) (s : State) (e : Env), Clear s (mk d a b q g) e [] →
    RegsBecome s e (mk d a b q g) (.code d 1) true fun n t =>
      ([((src n (word e b t)).bind (lookupKey (laneWords e g a))).getD (word e a t)], 0)

/-- A vote over the predicate of the lanes that take part. -/
def Votes (mk : BitVec 3 → BitVec 3 → BitVec 3 → Instr) (f : List Bool → Bool) : Prop :=
  ∀ (p a g : BitVec 3) (s : State) (e : Env), Clear s (mk p a g) e [] →
    PredBecomes s e (mk p a g) p true fun _ _ =>
      (f ((e.take (.pred g)).filterMap fun n => (e.thread n).map fun t => t.p a.toNat), 0)

/-- A query over the lanes that take part: their values, this lane's number and its value. -/
def Queries (mk : BitVec 7 → BitVec 7 → Bool → BitVec 3 → Instr) (f : List (Nat × Word) → Nat → Word → Word) : Prop :=
  ∀ (d a : BitVec 7) (q : Bool) (g : BitVec 3) (s : State) (e : Env), Clear s (mk d a q g) e [] →
    RegsBecome s e (mk d a q g) (.code d 1) true fun n t => ([f (laneWords e g a) n (word e a t)], 0)

/-- Fold from the first in order, with the flags of every step. -/
def folded (f : Word → Word → Word × Nat) : List Word → Word × Nat
  | [] => (0, 0)
  | x :: xs => xs.foldl (fun r y => ((f r.1 y).1, r.2 ||| (f r.1 y).2)) (x, 0)

/-- A fold over the lanes that take part, ascending. -/
def Folds (mk : BitVec 7 → BitVec 7 → Bool → BitVec 3 → Instr) (f : Word → Word → Word × Nat) : Prop :=
  ∀ (d a : BitVec 7) (q : Bool) (g : BitVec 3) (s : State) (e : Env), Clear s (mk d a q g) e [] →
    RegsBecome s e (mk d a q g) (.code d 1) q fun _ _ =>
      let r := folded f ((laneWords e g a).map (·.2)); ([r.1], r.2)

/-- A uniform word of two sources that completes with `f` of them. -/
def STwo (mk : BitVec 6 → BitVec 6 → BitVec 6 → Instr) (f : Word64 → Word64 → Word64) : Prop :=
  ∀ (d a b : BitVec 6) (s : State) (e : Env), Clear s (mk d a b) e [] →
    SregBecomes s e (mk d a b) d (f (sword e a) (sword e b)).toNat

/-- The 64-bit immediate of R100 and R127: `x` is the field extended to 64 bits. -/
def wideSImm (h : Hints) (i : BitVec 13) (x : Word64) : Word64 :=
  match h.imml, h.immh with
  | some p, some q => i.signExtend 14 ++ BitVec.ofNat 25 q ++ BitVec.ofNat 25 p
  | some p, none => (BitVec.ofNat 25 p).signExtend 64
  | none, _ => x

/-- A uniform word of a source and a 13-bit immediate. -/
def SImm (mk : BitVec 6 → BitVec 6 → BitVec 13 → Instr) (f : Word64 → Word64 → Word64) (ext : BitVec 13 → Word64) : Prop :=
  ∀ (d a : BitVec 6) (i : BitVec 13) (s : State) (e : Env), Clear s (mk d a i) e [] →
    SregBecomes s e (mk d a i) d (f (sword e a) (wideSImm e.h i (ext i))).toNat

/-- A uniform shift by an immediate amount. -/
def SAmount (mk : BitVec 6 → BitVec 6 → BitVec 6 → Instr) (f : Word64 → Nat → Word64) : Prop :=
  ∀ (d a n : BitVec 6) (s : State) (e : Env), Clear s (mk d a n) e [] →
    SregBecomes s e (mk d a n) d (f (sword e a) (e.h.imml.getD n.toNat)).toNat

/-! ### Shapes of memory instructions -/

/-- Of the groups, only threads of the issuing one differ. -/
def GroupsKept (s t : State) (e : Env) : Prop :=
  (∀ cu part slot, (cu, part, slot) ≠ (e.iss.cu, e.iss.part, e.iss.slot) → t.group? cu part slot = s.group? cu part slot) ∧
  ∃ g, t.group? e.iss.cu e.iss.part e.iss.slot = some g ∧ { g with threads := e.g.threads } = e.g

/-- The threads of the issue are past the word, and the groups are as they were otherwise. -/
def Advanced (s t : State) (e : Env) (i : Instr) : Prop := GroupsKept s t e ∧ Lanes t e i fun _ _ x => x

/-- Nothing of a CU but its L1 differs. -/
def CusKept (s t : State) : Prop := (t.cus.map fun c => { c with l1 := [] }) = s.cus.map fun c => { c with l1 := [] }

/-- Groups and operations in flight apart, only caches differ: every register, all memory and the rest are as they were. -/
def OnlyReads (s t : State) : Prop :=
  { t with groups := s.groups, cus := s.cus, viewCache := s.viewCache, flights := s.flights, nextFlight := s.nextFlight } = s ∧ CusKept s t

/-- Groups and operations in flight apart, only memory with its marks, caches and the marks of preserved pages differ. -/
def OnlyWrites (s t : State) : Prop :=
  { t with groups := s.groups, cus := s.cus, viewCache := s.viewCache, flights := s.flights, nextFlight := s.nextFlight, dram := s.dram, dramBad := s.dramBad, zeroFlags := s.zeroFlags, hostMem := s.hostMem, hostBad := s.hostBad, peers := s.peers, ctxs := s.ctxs } = s ∧
  CusKept s t ∧ (t.ctxs.map fun c => { c with preserves := [] }) = s.ctxs.map fun c => { c with preserves := [] }

/-- No operation is put in flight. -/
def NoNewFlight (s t : State) : Prop := t.flights = s.flights ∧ t.nextFlight = s.nextFlight

/-- An operation of this issue, as it is put in flight; `va` is the first virtual address that it accesses, where it accesses one. -/
def flightOf (e : Env) (s : State) (op : FlightOp) (va : Nat := 0) : Flight :=
  { id := s.nextFlight, ctx := e.l.ctx, launch := e.l.id, team := e.team.id, cu := e.iss.cu, part := e.iss.part, slot := e.iss.slot, order := e.g.order, lanes := e.iss.lanes, op := op, fault := none, refetch := none, va := va, fenced := false }

/-- Groups and operations in flight apart nothing differs, and one operation of this issue goes in flight. -/
def Flies (s t : State) (e : Env) (op : FlightOp) : Prop :=
  { t with groups := s.groups, flights := s.flights, nextFlight := s.nextFlight } = s ∧ GroupsKept s t e ∧ t.flights = s.flights ++ [flightOf e s op]

/-- No shadow of a page that is still to be preserved overlaps these bytes (R443). -/
def NoShadow (s : State) (p : PAddr) (n : Nat) : Prop :=
  ∀ c ∈ s.ctxs, ∀ v ∈ c.preserves, ∀ g ∈ v.pages, g.shadow.space = p.space → overlap g.shadow.addr 4096 p.addr n = false

/-- No element of the accesses holds this byte, and no shadow does. -/
def Untouched (s : State) (m : Mapped) (p : PAddr) : Prop :=
  (∀ v ∈ m, ∀ q va n, Elem.at_ q va n ∈ v.2 → q.space = p.space → ¬(q.addr ≤ p.addr ∧ p.addr < q.addr + n)) ∧ NoShadow s p 1

/-- Bytes that a write reaches: their memory exists and has its canonical form, their page is not retired (R449), no shadow lies there. -/
def Writable (s : State) (p : PAddr) (n : Nat) : Prop :=
  (∀ k, p.space = .peer k ∨ p.space = .peerHost k → s.peers.any (·.node == k) = true) ∧ (s.memOf p.space).wf = true ∧ s.isRetired p = false ∧ s.isRetired ⟨p.space, p.addr + n - 1⟩ = false ∧
  NoShadow s p n

/-- What an element access of a load reads apart (R168, R315, R326): each half of 16 bytes, else the whole; `site` is where each byte of it
lies, `k` its number among the lane's. -/
def halvesOf (k : Nat) (site : Nat → LateSite) (va n : Nat) : List LatePart :=
  if n = 16 then [⟨some (site 0), va, 8, k, none⟩, ⟨some (site 8), va + 8, 8, k, none⟩] else [⟨some (site 0), va, n, k, none⟩]

/-- The parts of a lane's load, from element access `k` on (R312, R313, R315): nothing has been read yet, and padding has no place. -/
def partsOf : Nat → List Elem → List LatePart
  | _, [] => []
  | k, .at_ p va n :: r => halvesOf k (fun j => .mem ⟨p.space, p.addr + j⟩) va n ++ partsOf (k + 1) r
  | k, .pad n :: r => ⟨none, 0, n, k, none⟩ :: partsOf (k + 1) r
  | k, _ :: r => partsOf (k + 1) r

/-- The element accesses of a lane's store, from access `k` on: where each lies, and the bytes that go there (R312, R313). -/
def piecesOf : Nat → List Elem → List Byte → List (Nat × PAddr × List Byte)
  | _, [], _ => []
  | k, .at_ p _ n :: r, bs => (k, p, bs.take n) :: piecesOf (k + 1) r (bs.drop n)
  | k, .pad n :: r, bs => piecesOf (k + 1) r (bs.drop n)
  | k, _ :: r, bs => piecesOf (k + 1) r bs

/-- The stores of one element access that reach memory apart (R168, R175, R326): each word of 8 bytes, or all of up to 8 bytes. -/
def unitsOf (lane k : Nat) (site : Nat → LateSite) (bs : List Byte) : List LateStore :=
  if bs.length ≤ 8 then [⟨lane, k, site 0, bs.map fun b => (b, false)⟩]
  else (List.range (bs.length / 8)).map fun j => ⟨lane, k, site (8 * j), ((bs.drop (8 * j)).take 8).map fun b => (b, false)⟩

/-- No access of a higher lane, and no later element access of this lane, stores to these bytes (R168, R312). -/
def Last (m : Mapped) (data : Nat → List Byte) (lane k : Nat) (p : PAddr) (n : Nat) : Prop :=
  (∀ v ∈ m, lane < v.1 → ∀ q x c, Elem.at_ q x c ∈ v.2 → q.space = p.space → overlap p.addr n q.addr c = false) ∧
  ∀ v ∈ m, v.1 = lane → ∀ y ∈ piecesOf 0 v.2 (data lane), k < y.1 → y.2.1.space = p.space → overlap p.addr n y.2.1.addr y.2.2.length = false

/-- A load of `size` bytes into `w` registers. -/
def LoadCompletes (size w : Nat) (mk : BitVec 7 → BitVec 7 → BitVec 3 → BitVec 4 → Scope → Bool → Instr) : Prop :=
  ∀ (d o : BitVec 7) (b : BitVec 3) (l : BitVec 4) (sc : Scope) (r : Bool) (s s2 : State) (e : Env) (m : Mapped),
    let i := mk d o b l sc r
    let sp : AccSpec := { acc := .read, size := size, scope := sc }
    let as := e.eas .lane b (.code o 1)
    Clear s i e (e.accConds sp as) → e.mapAll (e.advance (e.shape i)) sp as = .ok (m, s2) →
    (e.iss.late = false ∨ r = true → (s2.loadAll e.iss.cu sc m).2.1 = none →
      ∃ t, exec i s = .next t ∧ Advanced s t e i ∧ OnlyReads (e.endEarly s) t ∧
        t.flights = s.flights ++ (if m = [] then [] else [flightOf e s (.load ((s2.loadAll e.iss.cu sc m).1.map fun v =>
          { lane := v.1, regs := e.dest (.code d w) v.1, vals := wordsOf v.2 w, fx := 0 })) m.va])) ∧
    (e.iss.late = true → r = false →
      ∃ t, exec i s = .next t ∧ Advanced s t e i ∧ OnlyReads (e.endEarly s) t ∧
        t.flights = s.flights ++ (if m = [] then [] else [flightOf e s (.lateLoad sc (m.map fun v =>
          { lane := v.1, regs := e.dest (.code d w) v.1, parts := (partsOf 0 v.2).map (e.withEarly v.1), apart := true })) m.va]))

/-- A late store (R328): memory is as it was, and of every element access of every lane, lanes and accesses ascending, the bytes that go there
are held back in the units that reach memory apart; nothing else is, and nothing is put in flight where there is none. -/
def HoldsBack (s : State) (e : Env) (i : Instr) (m : Mapped) (zero : Bool) (data : Nat → List Byte) : Prop :=
  ∃ t ls, exec i s = .next t ∧ Advanced s t e i ∧ OnlyReads s t ∧
    t.flights = s.flights ++ (if ls = [] then [] else [flightOf e s (.lateStore zero ls) m.va]) ∧
    ls = m.flatMap fun v => (piecesOf 0 v.2 (data v.1)).flatMap fun y =>
      unitsOf v.1 y.1 (fun j => .mem ⟨y.2.1.space, y.2.1.addr + j⟩) y.2.2

/-- A store of `size` bytes from `w` registers. -/
def StoreCompletes (size w : Nat) (mk : BitVec 7 → BitVec 7 → BitVec 3 → BitVec 4 → Scope → Bool → Instr) : Prop :=
  ∀ (d o : BitVec 7) (b : BitVec 3) (l : BitVec 4) (sc : Scope) (r : Bool) (s s2 : State) (e : Env) (m : Mapped),
    let i := mk d o b l sc r
    let sp : AccSpec := { acc := .write, size := size, scope := sc }
    let as := e.eas .lane b (.code o 1)
    let data := fun (k : Nat) => (e.thread k).elim [] fun t0 => (regBytes (e.words (.code d w) t0)).take size
    Clear s i e (e.accConds sp as) → e.mapAll (e.advance (e.shape i)) sp as = .ok (m, s2) →
    (e.iss.late = false ∨ r = true → ∃ t, exec i s = .next t ∧ Advanced s t e i ∧ OnlyWrites s t ∧ NoNewFlight s t ∧
      (∀ p, Untouched s m p → (t.memOf p.space).get p.addr = (s.memOf p.space).get p.addr) ∧
      ∀ v ∈ m, ∀ y ∈ piecesOf 0 v.2 (data v.1), Writable s y.2.1 y.2.2.length → Last m data v.1 y.1 y.2.1 y.2.2.length →
        (t.memOf y.2.1.space).read y.2.1.addr y.2.2.length = y.2.2) ∧
    (e.iss.late = true → r = false → HoldsBack s e i m false data)

/-- An atomic of `n` bytes with the new value `new` and the flags `fx`; a relaxed one may be held back (R328). -/
def AtomicCompletes (n : Nat) (mk : BitVec 7 → BitVec 3 → BitVec 3 → BitVec 4 → Scope → Bool → Instr)
    (new : Env → BitVec 7 → Thread → Nat → Nat) (fx : Env → BitVec 7 → Thread → Nat) : Prop :=
  ∀ (d : BitVec 7) (v b : BitVec 3) (l : BitVec 4) (sc : Scope) (r : Bool) (s s2 : State) (e : Env) (m : Mapped),
    let i := mk d v b l sc r
    let sp : AccSpec := { acc := .atomic, size := n, scope := sc, atomic := true }
    let as := e.eas .lane b (.block v.toNat 1)
    let x := e.rmwAll n (new e d) m s2
    Clear s i e (e.accConds sp as) → e.mapAll (e.advance (e.shape i)) sp as = .ok (m, s2) →
    (e.iss.late = true → r = false → ∃ t f, exec i s = .next t ∧ Advanced s t e i ∧ OnlyReads s t ∧
      (∀ t0 old, Rmw.new (f t0) old = new e d t0 old) ∧
      t.flights = s.flights ++ (if m = [] then [] else [flightOf e s (.lateAtomic (e.lateRmws (.code d (n / 4)) f (fx e d)
        (m.filterMap fun v => ((v.2.head?).bind Elem.latePart).map fun p => (v.1, p)))) m.va])) ∧
    (e.iss.late = false ∨ r = true → x.2.1 = none → ∃ t, exec i s = .next t ∧ Advanced s t e i ∧ OnlyWrites s t ∧
      t.flights = s.flights ++ (if m = [] then [] else [flightOf e s (.atomic (x.1.map fun p =>
        { lane := p.1, regs := e.dest (.code d (n / 4)) p.1, vals := natRegs (n / 4) p.2, fx := (e.thread p.1).elim 0 (fx e d) })) m.va]) ∧
      (∀ p, Untouched s m p → (t.memOf p.space).get p.addr = (s.memOf p.space).get p.addr) ∧
      (∀ k p va t0, (k, [Elem.at_ p va n]) ∈ m → e.thread k = some t0 → Writable s p n →
        (∀ v ∈ m, v.1 ≠ k → ∀ q y c, Elem.at_ q y c ∈ v.2 → q.space = p.space → overlap p.addr n q.addr n = false) →
        (k, leNat ((s.memOf p.space).read p.addr n)) ∈ x.1 ∧
        (t.memOf p.space).read p.addr n = leBytes n (new e d t0 (leNat ((s.memOf p.space).read p.addr n)))) ∧
      ∀ p va, (∀ v ∈ m, v.2 = [Elem.at_ p va n] ∧ (e.thread v.1).isSome = true) → Writable s p n →
        let step := fun (old k : Nat) => (e.thread k).elim old fun t0 => new e d t0 old % 2 ^ (8 * n)
        let run := fun (ks : List Nat) => ks.foldl step (leNat ((s.memOf p.space).read p.addr n))
        (∀ j < m.length, x.1[j]?.map (·.2) = some (run ((m.map (·.1)).take j))) ∧
        (m ≠ [] → (t.memOf p.space).read p.addr n = leBytes n (run (m.map (·.1)))))

/-- The operations of R176 on n-bit words. -/
def AtomicTable (n : Nat) : Prop :=
  ∀ old v w : BitVec n,
    let new := fun (c : AtomOp) => BitVec.ofNat n (atomNew c n old.toNat v.toNat w.toNat)
    new .add = old + v ∧ new .minS = (if v.slt old then v else old) ∧ new .maxS = (if old.slt v then v else old) ∧
    new .minU = (if v.ult old then v else old) ∧ new .maxU = (if old.ult v then v else old) ∧ new .and = old &&& v ∧
    new .or = old ||| v ∧ new .xor = old ^^^ v ∧ new .xchg = v ∧ new .cas = if old = v then w else old

/-- Groups apart, only the scratchpad of the issuing team differs, which is the team `m` now. -/
def OnlyScratch (s t : State) (e : Env) (m : Team) : Prop :=
  { t with groups := s.groups, teams := s.teams } = s ∧ GroupsKept s t e ∧ (∀ k, k ≠ e.team.id → t.team? k = s.team? k) ∧
  t.team? e.team.id = some m ∧ { m with mem := e.team.mem, bad := e.team.bad } = e.team

/-- The access of SLD and SST: one address for the issue, in the lowest lane, which wraps modulo 2^64 (R125, R127, R128). -/
def uniAt (e : Env) (a : BitVec 6) (i : BitVec 13) : List LaneEA :=
  [(e.lanes.headD 0, (((sword e a + wideSImm e.h i (i.signExtend 64)).toNat : Nat) : Int))]

/-! ### Shapes of control, synchronisation and system words -/

/-- Where the entry that a lane's RET reads lies (R41). -/
def retAt (e : Env) (k : Nat) : Int := e.stackAt k ((e.thread k).elim 0 (·.depth) - 1)

/-- A call of some lanes to a target, with the return stack in the scratchpad or in memory. -/
def CallsTo (s : State) (e : Env) (i : Instr) (cs : List Cond) (lanes : List Nat) (target : Word64) : Prop :=
  let moved := fun (k : Nat) (t0 t : Thread) => if k ∈ lanes then { t with pc := target, fell := false, depth := t0.depth + 1 } else t
  let slot := fun (k : Nat) => e.stackAt k ((e.thread k).elim 0 (·.depth))
  Clear s i e cs →
  (e.stackMem = false → ∃ t m, exec i s = .next t ∧ OnlyScratch s t e m ∧ Lanes t e i moved ∧
    (∀ off : Nat, (∀ k ∈ lanes, ¬(slot k ≤ (off : Int) ∧ (off : Int) < slot k + 8)) → m.mem.get off = e.team.mem.get off) ∧
    (MemOk s → ∀ k ∈ lanes, m.mem.read (slot k).toNat 8 = leBytes 8 (e.iss.pc + 4).toNat)) ∧
  (e.stackMem = true → ∀ m s2, e.mapAll (e.advance (e.shape i)) (stackSpec .write) (e.callSlots lanes) = .ok (m, s2) →
    ∃ t, exec i s = .next t ∧ GroupsKept s t e ∧ OnlyWrites s t ∧ NoNewFlight s t ∧ Lanes t e i moved ∧
      (∀ p, Untouched s m p → (t.memOf p.space).get p.addr = (s.memOf p.space).get p.addr) ∧
      ∀ k p va, (k, [Elem.at_ p va 8]) ∈ m → Writable s p 8 →
        (∀ v ∈ m, k < v.1 → ∀ q x n, Elem.at_ q x n ∈ v.2 → q.space = p.space → overlap p.addr 8 q.addr n = false) →
        (t.memOf p.space).read p.addr 8 = leBytes 8 (e.iss.pc + 4).toNat)

/-- An issue of a word that meets a condition of its own or of `more` takes the trap of the condition that is raised. -/
def TrapsOn (i : Instr) (more : Env → List Cond) : Prop :=
  ∀ (s : State) (e : Env) (c : Cond), s.env? = some e → worst (e.conds i (e.shape i) ++ more e) = some c →
    exec i s = .next (s.takeTrap e.iss e.l c e.at_ false)

/-- The same in the machines and issues that satisfy `p`. -/
def TrapsWhere (i : Instr) (p : State → Env → Prop) (more : Env → List Cond) : Prop :=
  ∀ (s : State) (e : Env) (c : Cond), s.env? = some e → p s e → worst (e.conds i (e.shape i) ++ more e) = some c →
    exec i s = .next (s.takeTrap e.iss e.l c e.at_ false)

/-- A hint that meets none of the conditions of R101 pends in the lanes of the issue. -/
def Hinted (i : Instr) (yields : Bool) : Prop :=
  ∀ (s : State) (e : Env), s.env? = some e → e.hintBad i = false →
    ∃ t g, exec i s = .next t ∧ OnlyGroup s t e ∧ t.group? e.iss.cu e.iss.part e.iss.slot = some g ∧
      { g with threads := e.g.threads, yielded := e.g.yielded } = e.g ∧ g.yielded = (e.g.yielded || yields) ∧
      (∀ k ∈ e.lanes, ∀ t0, e.thread k = some t0 → laneIn t e k = some { t0 with
        hints := t0.hints ++ [i], hintPc := if t0.hints = [] then e.iss.pc else t0.hintPc, pc := t0.pc + 4, fell := true }) ∧
      ∀ k, k ∉ e.lanes → laneIn t e k = e.thread k

/-- The thread waits for a phase of a barrier: BAR, an arrival that issues again, or BARW (R236). -/
def waitsFor (n phase : Nat) (x : Thread) : Bool :=
  match x.wait with
  | .barrier k p => k == n && p == phase
  | .barrierAgain k p => k == n && p == phase
  | .barw k p _ _ => k == n && p == phase
  | _ => false

/-- The groups that have arrived reach the number of those that the barrier expects (R236). -/
def reached (s : State) (team : Nat) (b : Bar) : Bool :=
  b.roles.any fun r => decide ((s.expected team r).length ≤ (b.now (s.expected team r)).length)

/-- A barrier after that: its next phase, or its arrivals so far. -/
def settled (s : State) (team : Nat) (b : Bar) : Bar :=
  if reached s team b then Bar.start (b.phase + 1)
  else match b.roles with
    | none => b
    | some r => { b with done := b.now (s.expected team r) }

/-- Every thread outside the lanes of the issue is as `f` makes it, which sees its group, and nothing else of any group differs. -/
def OthersBecome (s t : State) (e : Env) (f : Group → Thread → Thread) : Prop :=
  (t.groups.map fun g => { g with threads := [] }) = (s.groups.map fun g => { g with threads := [] }) ∧
  ∀ cu part slot n, ¬((cu, part, slot) = (e.iss.cu, e.iss.part, e.iss.slot) ∧ n ∈ e.lanes) → ∀ g, s.group? cu part slot = some g →
    (t.group? cu part slot).bind (·.thread? n) = (g.thread? n).map (f g)

/-- Where `go` holds, the threads of a team's groups that wait for a phase continue (R236). -/
def wakenBy (e : Env) (n phase : Nat) (go : Bool) (g : Group) (x : Thread) : Thread :=
  if go = true ∧ g.team = e.team.id ∧ g.role.isSome = true ∧ waitsFor n phase x = true then { x with wait := .ready } else x

/-- BAR and BARA where some lane of the issue has not arrived in the phase: those that have not arrive, and those that have wait for the phase
at the word. Where the phase completes, every thread of the team that waits for it continues; every other thread is as it was. -/
def Arrives (s : State) (e : Env) (i : Instr) (n r : BitVec 6) (waits : Bool) : Prop :=
  let b := e.bar n
  let b1 : Bar := { b with roles := some (e.roles r), arrived := insertKey b.arrived e.g.linear (b.lanes e.g.linear ||| maskOf 32 e.lanes) }
  let go := reached s e.team.id b1
  Clear s i e (e.barConds n r true) → (∃ k ∈ e.lanes, k ∉ e.again n) → n.toNat < e.team.bars.length →
  (b.roles = none → ∀ g ∈ s.groups, g.team = e.team.id → g.wrongWaiters n.toNat b.phase (e.roles r) = []) →
  ∃ t m, exec i s = .next t ∧ { t with groups := s.groups, teams := s.teams } = s ∧ (∀ k, k ≠ e.team.id → t.team? k = s.team? k) ∧
    t.team? e.team.id = some m ∧ m = { e.team with bars := e.team.bars.set n.toNat (settled s e.team.id b1) } ∧
    (∀ k ∈ e.lanes, ∀ t0, e.thread k = some t0 →
      (k ∉ e.again n → t0.wait = .ready → laneIn t e k = some { passed e i true t0 with wait := if waits && !go then .barrier n.toNat b.phase else .ready }) ∧
      (k ∈ e.again n → laneIn t e k = some { t0 with wait := if go then .ready else .barrierAgain n.toNat b.phase })) ∧
    OthersBecome s t e (wakenBy e n.toNat b.phase go)

/-- BAR and BARA where every lane of the issue has arrived in the phase already: it waits for the phase at its word (R236). -/
def ArrivesAgain (s : State) (e : Env) (i : Instr) (n r : BitVec 6) : Prop :=
  Clear s i e (e.barConds n r true) → e.again n = e.lanes →
  ∃ t, exec i s = .next t ∧ OnlyThreads s t e ∧ (∀ k, k ∉ e.lanes → laneIn t e k = e.thread k) ∧
    ∀ k ∈ e.lanes, ∀ t0, e.thread k = some t0 → laneIn t e k = some { t0 with wait := .barrierAgain n.toNat (e.bar n).phase }

/-- No thread is parked on the full/empty bit of a window register that a lane of the issue names. -/
def Unwaited (s : State) (e : Env) (c : BitVec 7) (lanes : List Nat) : Prop :=
  ∀ k ∈ lanes, ∀ w, e.winKey c k = some w → ∀ g ∈ s.groups, g.team = e.team.id → ∀ x, g.thread? w.lane = some x → ∀ o, x.wait ≠ .window w o

/-- Exactly one thread is parked on this window register: `x` of the group `h`, which is not the issuing one, with the operation `o`. -/
def OneWaiter (s : State) (e : Env) (w : WinKey) (h : Group) (x : Thread) (o : WindowOp) : Prop :=
  (s.groups.map fun g => (g.cu, g.part, g.slot)).Nodup ∧ h ∈ s.groups ∧ h.team = e.team.id ∧ (h.cu, h.part, h.slot) ≠ (e.iss.cu, e.iss.part, e.iss.slot) ∧
  h.thread? w.lane = some x ∧ x.wait = .window w o ∧
  ∀ g ∈ s.groups, g.team = e.team.id → ∀ y, g.thread? w.lane = some y → ∀ u, y.wait = .window w u → g = h

/-- A window word completes beside the one thread that is parked on its register: the lane becomes as `f` makes it, the parked thread `y`,
and the register holds `cell`; every other thread, register, team and group is as it was. -/
def BesideWaiter (s : State) (e : Env) (i : Instr) (w : WinKey) (h : Group) (f : Thread → Thread) (y : Thread) (cell : Option Word) : Prop :=
  ∃ (t : State) (m : Team) (g h1 : Group), exec i s = .next t ∧ { t with groups := s.groups, teams := s.teams } = s ∧
    (∀ n, n ≠ e.team.id → t.team? n = s.team? n) ∧ t.team? e.team.id = some m ∧ { m with wins := e.team.wins } = e.team ∧
    m.cell? w = cell ∧ (∀ v, v ≠ w → m.cell? v = e.team.cell? v) ∧
    t.group? e.iss.cu e.iss.part e.iss.slot = some g ∧ { g with threads := e.g.threads } = e.g ∧ Lanes t e i (fun _ _ x => f x) ∧
    t.group? h.cu h.part h.slot = some h1 ∧ { h1 with threads := h.threads } = h ∧
    (∀ n, h1.thread? n = if n = w.lane then some y else h.thread? n) ∧
    ∀ cu part slot, (cu, part, slot) ≠ (e.iss.cu, e.iss.part, e.iss.slot) → (cu, part, slot) ≠ (h.cu, h.part, h.slot) →
      t.group? cu part slot = s.group? cu part slot

/-- The register that a window word writes. -/
def windowDest (e : Env) (d : BitVec 7) (t0 : Thread) : Nat := (e.sel (.code d 1) t0 true).list.headD 0

/-- Groups apart, only the window registers of the issuing team differ, which is the team `m` now. -/
def OnlyWindows (s t : State) (e : Env) (m : Team) : Prop :=
  { t with groups := s.groups, teams := s.teams } = s ∧ GroupsKept s t e ∧ (∀ k, k ≠ e.team.id → t.team? k = s.team? k) ∧
  t.team? e.team.id = some m ∧ { m with wins := e.team.wins } = e.team

/-- What SHR and SHP leave in a lane: the value of a full register, or a wait for an empty one. -/
def TakesCell (e : Env) (d a : BitVec 7) (clears : Bool) (k : Nat) (t0 t : Thread) : Thread :=
  let r := windowDest e d t0
  (e.winKey a k).elim t fun w => match e.team.cell? w with
    | some v => { t.putRegs [r] [v] with wait := .ready }
    | none => { t with wait := .window w (.get r clears) }

/-- The issuing group is `g` now and its threads are past the word; no other group differs. -/
def GroupIn (s t : State) (e : Env) (i : Instr) (g : Group) : Prop :=
  (∀ cu part slot, (cu, part, slot) ≠ (e.iss.cu, e.iss.part, e.iss.slot) → t.group? cu part slot = s.group? cu part slot) ∧
  t.group? e.iss.cu e.iss.part e.iss.slot = some g ∧ Lanes t e i fun _ _ x => x

/-- Of the groups, only an s-register and the threads past the word differ. -/
def SregIn (s t : State) (e : Env) (i : Instr) (d : BitVec 6) (v : Nat) : Prop :=
  ∃ g, GroupIn s t e i g ∧ { g with threads := e.g.threads, sregs := e.g.sregs } = e.g ∧
    g.sregs = if d = 0 then e.g.sregs else e.g.sregs.set d.toNat (BitVec.ofNat 64 v)

/-- Returned values stand in the registers of the lanes, their flags in FX, and the operation has ended. -/
def Delivers (s t : State) (f : Flight) (ws : List LaneWrite) : Prop :=
  { t with groups := s.groups, flights := s.flights } = s ∧ t.flights = s.flights.filter (·.id != f.id) ∧
  (∀ k, k ≠ f.order → t.groups.find? (·.order == k) = s.groups.find? (·.order == k)) ∧
  ∀ g, s.groups.find? (·.order == f.order) = some g → ∃ g', t.groups.find? (·.order == f.order) = some g' ∧ { g' with threads := g.threads } = g ∧
    ∀ n, g'.thread? n = (g.thread? n).map fun x => match ws.find? (·.lane == n) with
      | none => x
      | some w => (x.putRegs w.regs w.vals).orFx false w.fx

end Sys2Proof.Claims

open Sys2Proof Sys2Proof.Machine Sys2Proof.Safety Sys2Proof.Claims

/-! ### Encoding and the step -/

/-- R85 to R96: decoding the word of an instruction gives the instruction back, whatever its fields. -/
def Obligations.DecodeOfEncode : Prop := ∀ (i : Instr) (w : Word), i.encode = some w → decode w = .ok i

/-- R85 to R97: a word that decodes is the word of the instruction that it decodes to, so no two words decode to one
instruction and no reserved bit is dropped. -/
def Obligations.EncodeOfDecode : Prop := ∀ (i : Instr) (w : Word), decode w = .ok i → i.encode = some w

/-- Words written out field by field from the encoding tables of R86, R89 to R96, at least one of each block, decode to the instructions
they stand for; the all-zero word, an unassigned major, a nonzero LA, and reserved FN and AOP codes are no instructions (R97). -/
def Obligations.WordsDecodeAsTabled : Prop :=
  decode 0b0000001_0000011_0000010_0000111_0_010#32 = .ok (.iadd 3 2 7 false 2) ∧
  decode 0b0010011_0110_011_0001010_0001011_1_000#32 = .ok (.icmp .ltU 3 10 11 true 0) ∧
  decode 0b0011011_0000001_0000010_0000_00_11111#32 = .ok (.shlImm 1 2 31) ∧
  decode 0b0011101_0000_1_10_0000000_11111111101#32 = .ok (.aadd 2 0x7FD) ∧
  decode 0b0011111_0000101_0000110_1001_010_0_001#32 = .ok (.idivU 5 6 9 false 1) ∧
  decode 0b0100100_0000001_0000010_0000011_1_000#32 = .ok (.ffma 1 2 3 true 0) ∧
  decode 0b0110001_0000100_0000110_0000_000_0_000#32 = .ok (.cvtF32F64 4 6 false 0) ∧
  decode 0b0111100_0000001_0001001_0000_110_0_111#32 = .ok (.lfoldFadd 1 9 false 7) ∧
  decode 0b0111101_0010_010_0000_011_0000_100_0_001#32 = .ok (.pxor 2 3 4 1) ∧
  decode 0b1000000_001001_001000_000111_0010101#32 = .ok (.scmp 9 8 7 .geS) ∧
  decode 0b1000001_000100_000101_1111111111111#32 = .ok (.saddImm 4 5 0x1FFF) ∧
  decode 0b1010010_0001000_0001001_010_0011_100_1#32 = .ok (.ldW 8 9 2 3 .die true) ∧
  decode 0b1011010_0001000_0001001_010_0011_011_0#32 = .ok (.ldl 8 9 2 3 .d) ∧
  decode 0b1011100_0001100_1000_011_001_0000_101_0#32 = .ok (.atom 12 .xchg 3 1 0 .module false) ∧
  decode 0b1100000_0000100_0001000_011_001_0101_0#32 = .ok (.mma 4 8 3 1 5 false) ∧
  decode 0b1100100_000010_000100_000110_0010_001#32 = .ok (.hdrnMom 2 4 6 2) ∧
  decode 0b1101000_000001_000010_000011_0000_011#32 = .ok (.vqry 1 2 3 0) ∧
  decode 0b1101010_001000_001001_001010_0000_000#32 = .ok (.cpym 8 9 10 0) ∧
  decode 0b1101011_0001000_0000011_1100100_0_000#32 = .ok (.spawn 8 3 100 0) ∧
  decode 0b1101101_000100_000110_001000_0001_001#32 = .ok (.cvoy 4 6 8 1) ∧
  decode 0b1110000_011_1_111111111111111111100#32 = .ok (.bra 3 true 0x1FFFFC) ∧
  decode 0b1110100_000000_000000_000000_0000010#32 = .ok (.exit) ∧
  decode 0b1110101_001_100_000000_000000_0000100#32 = .ok (.fence .acquire .die) ∧
  decode 0b1110101_000000_000101_000000_0000110#32 = .ok (.waitc 5) ∧
  decode 0b1111000_000111_000000010000_0000000#32 = .ok (.rdsr 7 16) ∧
  decode 0b1111100_1001000110100010101100111#32 = .ok (.imml 0x1234567) ∧
  decode 0b1111110_00_11_00_101_010_0000000000000#32 = .ok (.modArith 3 0 5 2) ∧
  decode 0b1111110_01_11111111111111111111111#32 = .ok (.modOffset 0x7FFFFF) ∧
  ∀ x ∈ [0b00000000000000000000000000000000#32, 0b0111111_0000011_0000010_0000111_0_010#32, 0b0011110_0000001_0000010_0001_000_0_000#32,
      0b0111101_1001_010_0000_011_0000_000_0_001#32, 0b1011100_0001100_1011_011_001_0000_101_0#32, 0b1110100_000000_000000_000000_0001001#32],
    (decode x).toOption = none

/-- A step that performs an issue runs the instruction that the word at the issue's address decodes to, or takes the word for undefined
(R97, R130), in the machine whose current issue is the turn that the partition takes (R262), and then closes the issue (R249, R259); so
does a step in which a secondary issues (R260); a step that performs an event runs that event. Before a word takes effect, the accesses
that its threads hold back and that it may not pass reach memory, what any thread holds back of scratchpad that it locks, and what was
read early and stands no longer is forgotten (R328, R341): where there is nothing of these and no check of a read or a write fails
(R436), the step runs exec alone. The order of issues and events is the model's schedule (log 6). Where the spec leaves a choice, the
choice is the model's: log 6, 7. -/
def Obligations.StepRunsDecodedInstruction : Prop :=
  (∀ (s : State) (cu part : Nat) (rest : List Act) (x : Turn) (xs : List Turn) (w : Word),
    let s1 := { s with clock := s.clock + 1, agenda := rest }
    let c := { s1 with groups := s1.groups.map (countWaits x.g (x :: xs)), cur := some x.iss, port2 := s1.pairOf x }
    let s2 := if x.g.fresh then c.acquire cu .module else c
    s.port2 = none → s.agenda = .issue cu part :: rest → s1.turns cu part = x :: xs →
    s1.fetch x.g.cu x.l.ctx x.iss.pc = .word w →
    (∀ i, decode w = .ok i → step s = thenNext (runInstr i s2) fun t => t.closeIssue s2) ∧
    ∀ r, decode w = .error r → step s = thenNext (exec (.undefinedEncoding w) s2) fun t => t.closeIssue s2) ∧
  (∀ (s : State) (iss : Issue) (e : Env) (w : Word) (i : Instr),
    let s1 := { s with clock := s.clock + 1, port2 := none, cur := some iss }
    s.port2 = some iss → s1.env? = some e → (∀ n ∈ e.lanes, ∃ t, e.thread n = some t ∧ t.wait = .ready ∧ t.pc = iss.pc) →
    s1.fetch iss.cu e.l.ctx iss.pc = .word w → decode w = .ok i → step s = thenNext (runInstr i s1) fun t => t.closeIssue s1) ∧
  (∀ (s : State) (i : Instr), (∀ e, s.env? = some e → (∀ r ∈ s.early, e.keeps i r = true) ∧ ∀ f ∈ s.flights, f.op.isLate = true →
      e.mine f = false ∧ f.touches (e.claims i).1 = false ∧ (f.op.lateWrites = true → f.touches (e.claims i).2 = false)) →
    s.upset ≠ some .write → (∀ x l, s.upset ≠ some (.read x l)) → runInstr i s = exec i s) ∧
  ∀ (s : State) (i : Instr) (rest : List Act), s.port2 = none → s.upset ≠ some .write → s.agenda = .event i :: rest → isEvent i = true →
    step s = exec i { s with clock := s.clock + 1, agenda := rest }

/-- Every step of every state answers a next state: nothing that the machine meets ends a run in a fault of the model or a refusal. Where
the spec leaves a choice, the choice is the model's: log 6, 19. -/
def Obligations.StepAlwaysGoesOn : Prop := ∀ s : State, ∃ t, step s = .next t

/-- R256 to R258: where no ready thread has reached AGE 256, the primary issues at the key of a ready thread, and no other ready thread has a
lower key: the deepest call ranks first, and within one depth the lowest address does; every lane that issues is ready at that address, and every
ready lane there with the same pending hints issues. -/
def Obligations.VotePicksLowestKey : Prop :=
  ∀ (g : Group) (p : Pick), g.primary = some p → (∀ r ∈ g.ready, r.2.age < 256) →
    ∃ n t, (n, t) ∈ g.ready ∧ t.pc = p.pc ∧
      (∀ r ∈ g.ready, r.2.depth < t.depth ∨ (r.2.depth = t.depth ∧ t.pc.toNat ≤ r.2.pc.toNat)) ∧
      (∀ k, bitOf p.lanes.toNat k = true → ∃ u, (k, u) ∈ g.ready ∧ u.pc = p.pc ∧ u.hints = p.hints) ∧
      ∀ k u, (k, u) ∈ g.ready → u.pc = p.pc → u.hints = p.hints → bitOf p.lanes.toNat k = true

/-- R395: a walk that reaches level 0 maps 4 KiB by an entry with P64 = 0, whatever its neighbours hold, and the 64 KiB page at its PA by
an entry with P64 = 1 where all 16 entries of its line are this entry; where any of the 16 differs the entry is malformed. -/
def Obligations.PageEntries : Prop :=
  (∀ (rd : Nat → Option Nat) (self va table e : Nat),
    let at_ := table + 8 * (va / 2 ^ 12 % 2 ^ 9)
    rd at_ = some e → e % 2 = 1 → pteMalformed self 0 e = false →
    (e / 2 ^ 9 % 2 = 0 → walk rd self va 1 table = .leaf e 4096) ∧
    (e / 2 ^ 9 % 2 = 1 → (∀ i < 16, rd (at_ / 128 * 128 + 8 * i) = some e) → walk rd self va 1 table = .leaf e 65536) ∧
    (e / 2 ^ 9 % 2 = 1 → (∀ i < 16, rd (at_ / 128 * 128 + 8 * i) ≠ none) →
      (∃ i < 16, rd (at_ / 128 * 128 + 8 * i) ≠ some e) → walk rd self va 1 table = .fault 4)) ∧
  ∀ (s : State) (acc : Access) (va e : Nat) (p : PAddr), s.leafAddr acc va e 65536 = .ok p → p.addr = e / 2 ^ 12 % 2 ^ 36 * 2 ^ 12 + va % 2 ^ 16

/-! ### Memory, reset and invariants -/

/-- Every step keeps device DRAM, host memory, the memories of peers and of their hosts, scratchpads and hold tiles in their canonical
form. -/
def Obligations.StepKeepsMemoryCanonical : Prop := ∀ s t : State, MemOk s → step s = .next t → MemOk t

/-- R424, R425: at power-good nothing is ready, no stage has ended, GO2 is clear, no watchdog level is armed, the device error queue is
unconfigured, the spare maps and the mailbox read zero and POWERCAP is 3200; by log 4 no context lives, nothing is placed and memory
lists nothing, in its canonical form. Where the spec leaves a choice, the choice is the model's: log 1, 4, 12. -/
def Obligations.ResetLeaves : Prop :=
  let s := State.reset
  s.cuReady = [] ∧ s.llcReady = 0 ∧ s.stackReady = 0 ∧ s.linkReady = 0 ∧ s.bar0.go2 = 0 ∧ s.bar0.stage1Ended = 0 ∧
  s.bar0.stage2Ended = 0 ∧ s.bar0.wdcu = 0 ∧ s.bar0.wdhm = 0 ∧ s.bar0.wdarm = 0 ∧ s.bar0.deveqlog = 0 ∧ s.bar0.powercap = 3200 ∧
  s.bar0.sparemap = [0, 0, 0, 0] ∧ s.bar0.deveqbase = 0 ∧ s.bar0.mbcmd = List.replicate 64 0 ∧ s.bar0.mbreply = List.replicate 64 0 ∧
  s.ctxs = [] ∧ s.groups = [] ∧ s.teams = [] ∧ s.launches = [] ∧ s.dram = [] ∧ MemOk s

/-! ### Vector integer instructions -/

/-- R113, R114, R118: the results of the V3 integer arithmetic and of the bitwise instructions. -/
def Sys2Proof.Claims.IntegerArithmeticResults : Prop :=
  Two .iadd (fun h x y => satWord h.sat (fun a b _ => a + b) x y 0) ∧
  Two .isub (fun h x y => satWord h.sat (fun a b _ => a - b) x y 0) ∧
  Two .imul (fun h x y => satWord h.sat (fun a b _ => a * b) x y 0) ∧
  Three .imad (fun h x y z => satWord h.sat (fun a b d => a * b + d) x y z) ∧
  Two .imulhS (fun _ x y => (x.signExtend 64 * y.signExtend 64).extractLsb' 32 32) ∧
  Two .imulhU (fun _ x y => (x.zeroExtend 64 * y.zeroExtend 64).extractLsb' 32 32) ∧
  Two .and (fun _ x y => x &&& y) ∧ Two .or (fun _ x y => x ||| y) ∧ Two .xor (fun _ x y => x ^^^ y)

/-- R115, R116: shifts and rotation by a register, field extract and insert, and byte select. -/
def Obligations.ShiftAndFieldResults : Prop :=
  Two .shl (fun _ x y => x <<< y.toNat) ∧ Two .shr (fun _ x y => x >>> y.toNat) ∧
  Two .sar (fun _ x y => x.sshiftRight y.toNat) ∧ Two .rotl (fun _ x y => x.rotateLeft (y.toNat % 32)) ∧
  Two .bfeU (fun _ x y => (x >>> posOf y) &&& lowOnes (lenOf y)) ∧
  Two .bfeS (fun _ x y => ((x.sshiftRight (posOf y)) <<< (32 - lenOf y)).sshiftRight (32 - lenOf y)) ∧
  Three .bfi (fun _ x y z => (z &&& ~~~(lowOnes (lenOf y) <<< posOf y)) ||| ((x &&& lowOnes (lenOf y)) <<< posOf y)) ∧
  Three .bysel (fun _ x y z => selByte x y z 3 ++ selByte x y z 2 ++ selByte x y z 1 ++ selByte x y z 0)

/-- R117, R118: IADC and ISBB read their carry predicate and leave in it the carry or the borrow of the exact operation. -/
def Sys2Proof.Claims.CarryForms : Prop :=
  (∀ (d a b : BitVec 7) (q : Bool) (c : BitVec 3) (s : State) (e : Env), Clear s (.iadc d a b q c) e [] →
    ThreadsBecome s e (.iadc d a b q c) fun _ t0 t =>
      (t.putRegs (e.sel (.code d 1) t0 true).list [satWord e.h.sat (fun x y z => x + y + z) (word e a t0) (word e b t0) (one (t0.p c.toNat))]).setP
        c.toNat (decide (2 ^ 32 ≤ (word e a t0).toNat + (word e b t0).toNat + (one (t0.p c.toNat)).toNat))) ∧
  (∀ (d a b : BitVec 7) (q : Bool) (c : BitVec 3) (s : State) (e : Env), Clear s (.isbb d a b q c) e [] →
    ThreadsBecome s e (.isbb d a b q c) fun _ t0 t =>
      (t.putRegs (e.sel (.code d 1) t0 true).list [satWord e.h.sat (fun x y z => x - y - z) (word e a t0) (word e b t0) (one (t0.p c.toNat))]).setP
        c.toNat (decide ((word e a t0).toNat < (word e b t0).toNat + (one (t0.p c.toNat)).toNat)))

/-- R113, R114, R117, R118: integer arithmetic and bitwise operations, with the carry forms. -/
def Obligations.IntegerArithmetic : Prop := IntegerArithmeticResults ∧ CarryForms

/-- R119, R100: the integer instructions with an immediate; no flag changes. -/
def Obligations.ImmediateForms : Prop :=
  WithImm .iaddImm (fun h i x => satWord h.sat (fun a b _ => a + b) x (wideImm h (i.signExtend 32)) 0) ∧
  WithImm .imulImm (fun h i x => satWord h.sat (fun a b _ => a * b) x (wideImm h (i.signExtend 32)) 0) ∧
  WithImm .andImm (fun h i x => x &&& wideImm h (i.zeroExtend 32)) ∧
  WithImm .orImm (fun h i x => x ||| wideImm h (i.zeroExtend 32)) ∧
  WithImm .xorImm (fun h i x => x ^^^ wideImm h (i.zeroExtend 32)) ∧
  WithAmount .shlImm (fun n x => x <<< n) ∧ WithAmount .shrImm (fun n x => x >>> n) ∧
  WithAmount .sarImm (fun n x => x.sshiftRight n) ∧ WithAmount .rotlImm (fun n x => x.rotateLeft n) ∧
  (∀ (d : BitVec 7) (i : BitVec 11) (s : State) (e : Env), Clear s (.movi d i) e [] →
    RegsBecome s e (.movi d i) (.code d 1) true fun _ _ => ([wideImm e.h (i.signExtend 32)], 0))

/-- R120: the integer unary operations and the minimum and maximum, signed and unsigned. -/
def Sys2Proof.Claims.UnaryAndMinMaxResults : Prop :=
  One .mov (fun x => x) ∧ One .not (fun x => ~~~x) ∧ One .iabs (fun x => if x.msb then -x else x) ∧
  One .popc (fun x => BitVec.ofNat 32 ((List.range 32).countP x.getLsbD)) ∧
  One .clz (fun x => BitVec.ofNat 32 (((List.range 32).takeWhile fun i => !x.getMsbD i).length)) ∧ One .brev (fun x => x.reverse) ∧
  OnSelf .iminS (fun x y => (if y.slt x then y else x, 0)) ∧ OnSelf .iminU (fun x y => (if y.ult x then y else x, 0)) ∧
  OnSelf .imaxS (fun x y => (if x.slt y then y else x, 0)) ∧ OnSelf .imaxU (fun x y => (if x.ult y then y else x, 0))

/-- R121: integer division and remainder. Division by zero gives all ones and the old value, and sets DZ unless q; the most
negative value divided by -1 gives itself with remainder zero and no flag. -/
def Obligations.DivisionResults : Prop :=
  OnSelfLong .idivS (fun _ x y => (if y = 0 then -1 else x.sdiv y, if y = 0 then dz else 0)) ∧
  OnSelfLong .idivU (fun _ x y => (if y = 0 then -1 else x / y, if y = 0 then dz else 0)) ∧
  OnSelfLong .iremS (fun _ x y => (if y = 0 then x else x.srem y, if y = 0 then dz else 0)) ∧
  OnSelfLong .iremU (fun _ x y => (if y = 0 then x else x % y, if y = 0 then dz else 0))

/-- R122, R149: comparisons write their predicate, and SEL selects by the predicate of its G field without a guard. -/
def Sys2Proof.Claims.ComparisonsAndSelect : Prop :=
  (∀ (c : ICmp) (p : BitVec 3) (a b : BitVec 7) (q : Bool) (g : BitVec 3) (s : State) (e : Env), Clear s (.icmp c p a b q g) e [] →
    PredBecomes s e (.icmp c p a b q g) p q fun _ t => (compares c (word e a t) (word e b t), 0)) ∧
  (∀ (c : FCmp) (p : BitVec 3) (a b : BitVec 7) (q : Bool) (g : BitVec 3) (s : State) (e : Env), Clear s (.fcmp c p a b q g) e [] →
    PredBecomes s e (.fcmp c p a b q g) p q fun _ t =>
      let x := fp32.decode (modA e.h (word e a t).toNat)
      let y := fp32.decode (modB e.h (word e b t).toNat)
      (comparesFP c x y, invalidIn c x y)) ∧
  (∀ (d a b : BitVec 7) (q : Bool) (k : BitVec 3) (s : State) (e : Env), Clear s (.sel d a b q k) e [] →
    RegsBecome s e (.sel d a b q k) (.code d 1) q fun _ t => ([if k = 0 ∨ t.p k.toNat then word e a t else word e b t], 0))

/-- R120, R122, R149: the integer unary operations, minimum and maximum, the comparisons and SEL. -/
def Obligations.ComparisonsAndUnary : Prop := UnaryAndMinMaxResults ∧ ComparisonsAndSelect

/-- R123: the predicate instructions in each active lane whose guard is true. All sources are read before the destination is written; a
write to p0 is discarded; FN 9 to 15 of major 0x3D are no instructions. -/
def Obligations.PredicateResults : Prop :=
  (∀ (p a b g : BitVec 3) (s : State) (e : Env),
    (Clear s (.pand p a b g) e [] → PredBecomes s e (.pand p a b g) p true fun _ t => (t.p a.toNat && t.p b.toNat, 0)) ∧
    (Clear s (.por p a b g) e [] → PredBecomes s e (.por p a b g) p true fun _ t => (t.p a.toNat || t.p b.toNat, 0)) ∧
    (Clear s (.pxor p a b g) e [] → PredBecomes s e (.pxor p a b g) p true fun _ t => (t.p a.toNat != t.p b.toNat, 0))) ∧
  (∀ (p a g : BitVec 3) (s : State) (e : Env),
    (Clear s (.pnot p a g) e [] → PredBecomes s e (.pnot p a g) p true fun _ t => (!t.p a.toNat, 0)) ∧
    (Clear s (.pmov p a g) e [] → PredBecomes s e (.pmov p a g) p true fun _ t => (t.p a.toNat, 0))) ∧
  (∀ (t : Thread) (k j : Nat) (v : Bool), k < 8 → j < 8 → (t.setP k v).p j = if j = k ∧ k ≠ 0 then v else t.p j) ∧
  (∀ w : Word, w.extractLsb' 25 7 = 0x3D#7 → 9 ≤ (w.extractLsb' 21 4).toNat → (decode w).toOption = none)

/-- R124, R27: SETA loads CUR, LO and HI and clears OOB; AADD adds to CUR alone and sets OOB where the exact sum leaves 0
to 255. -/
def Sys2Proof.Claims.IndexRegisterResults : Prop :=
  (∀ (k : BitVec 2) (a : BitVec 7) (s : State) (e : Env), Clear s (.seta k a) e [] →
    ThreadsBecome s e (.seta k a) fun _ t0 t => { t with idx := t.idx.set k.toNat (word e a t0 &&& 0x00FFFFFF#32) }) ∧
  (∀ (k : BitVec 2) (i : BitVec 11) (s : State) (e : Env), Clear s (.aadd k i) e [] →
    ThreadsBecome s e (.aadd k i) fun _ t0 t =>
      let a := t0.idx.getD k.toNat 0
      let sum : Int := (a.extractLsb' 0 8).toNat + (wideImm e.h (i.signExtend 32)).toInt
      let oob : Bool := a.msb || decide (sum < 0) || decide (255 < sum)
      { t with idx := t.idx.set k.toNat ((if oob then 0x80#8 else 0x00#8) ++ a.extractLsb' 8 16 ++ BitVec.ofInt 8 sum) })

/-! ### Floating point, conversions and lattices -/

/-- R142, R145 to R148: the FP32 instructions compute from the operands that MOD ARITH leaves and round once in the mode of
the sequence; the VI forms have no Q and always update FX. -/
def Sys2Proof.Claims.FloatArithmeticResults : Prop :=
  FTwo .fadd (fun h x y => fAdd32 h.mode (modA h x) (modB h y)) ∧ FTwo .fsub (fun h x y => fSub32 h.mode (modA h x) (modB h y)) ∧
  FTwo .fmul (fun h x y => fMul32 h.mode (modA h x) (modB h y)) ∧
  FThree .ffma (fun h x y z => fFma32 h.mode (modA h x) (modB h y) (modD h z)) ∧
  FThree .ffms (fun h x y z => fFms32 h.mode (modA h x) (modB h y) (modD h z)) ∧
  FImm .faddImm (fun h w x _ => fAdd32 h.mode (modA h x) (modB h w)) ∧ FImm .fmulImm (fun h w x _ => fMul32 h.mode (modA h x) (modB h w)) ∧
  FImm .ffmaImm (fun h w x z => fFma32 h.mode (modA h x) (modB h w) (modD h z)) ∧
  FOne .fabs (fun h x => ⟨modA h x % 2 ^ 31, 0⟩) ∧ FOne .fneg (fun h x => ⟨modA h x ^^^ 2 ^ 31, 0⟩) ∧
  FOne .fclass (fun _ x => ⟨2 ^ classBit x, 0⟩) ∧
  FSelf .fmin (fun h x y => minMaxFP fp32 false (modD h x) (modA h y)) ∧ FSelf .fmax (fun h x y => minMaxFP fp32 true (modD h x) (modA h y)) ∧
  FSelfLong .fdiv (fun h x y => divFP fp32 h.mode (fp32.decode (modD h x)) (fp32.decode (modA h y)))

/-- R150: the correctly rounded unary functions. -/
def Sys2Proof.Claims.FloatFunctionResults : Prop :=
  FFun .fsqrt .sqrt ∧ FFun .frcp .rcp ∧ FFun .frsq .rsq ∧ FFun .fexp2 .exp2 ∧ FFun .flog2 .log2 ∧ FFun .fsin .sin ∧ FFun .fcos .cos ∧
  FFun .ftanh .tanh

/-- R71, R73, R74, R150: what the unary functions give. A NaN keeps its payload and turns quiet; zeros and infinities as the table has them;
a negative operand of a root or a logarithm is invalid; the exact cases are exact. A root, a reciprocal and a reciprocal root of a positive value
is the greatest representable value not above the exact one under RDN and RTZ, the least not below it under RUP, and the nearer of the two,
ties to even, under RNE, with NX where the two differ. The odd functions keep the sign of their operand, the cosine ignores it; below 2^-40 a sine
and a hyperbolic tangent round to their operand and a cosine to 1; the ends of FEXP2 and FTANH, and values known to 24 bits. -/
def Sys2Proof.Claims.FloatFunctionValues : Prop :=
  let at_ := fun (f : Fun1) (m : RMode) (x : Nat) => fun1 f m (fp32.decode x)
  let all := [Fun1.rcp, .rsq, .sqrt, .exp2, .log2, .sin, .cos, .tanh]
  let bad : Rounded := ⟨0x7FC00000, fxNV⟩
  (∀ (f : Fun1) (m : RMode) (x : Nat), x < 2 ^ 32 → (fp32.decode x).isNan = true → (at_ f m x).pat = x ||| 0x00400000) ∧
  (∀ m : RMode,
    (all.map fun f => at_ f m 0) = [⟨0x7F800000, fxDZ⟩, ⟨0x7F800000, fxDZ⟩, ⟨0, 0⟩, ⟨0x3F800000, 0⟩, ⟨0xFF800000, fxDZ⟩, ⟨0, 0⟩, ⟨0x3F800000, 0⟩, ⟨0, 0⟩] ∧
    (all.map fun f => at_ f m 0x80000000) = [⟨0xFF800000, fxDZ⟩, ⟨0xFF800000, fxDZ⟩, ⟨0x80000000, 0⟩, ⟨0x3F800000, 0⟩, ⟨0xFF800000, fxDZ⟩, ⟨0x80000000, 0⟩,
      ⟨0x3F800000, 0⟩, ⟨0x80000000, 0⟩] ∧
    (all.map fun f => at_ f m 0x7F800000) = [⟨0, 0⟩, ⟨0, 0⟩, ⟨0x7F800000, 0⟩, ⟨0x7F800000, 0⟩, ⟨0x7F800000, 0⟩, bad, bad, ⟨0x3F800000, 0⟩] ∧
    (all.map fun f => at_ f m 0xFF800000) = [⟨0x80000000, 0⟩, bad, bad, ⟨0, 0⟩, bad, bad, bad, ⟨0xBF800000, 0⟩] ∧
    ∀ x, 0x80000000 < x → x < 0xFF800000 → at_ .rsq m x = bad ∧ at_ .sqrt m x = bad ∧ at_ .log2 m x = bad) ∧
  (∀ (m : RMode) (x : Nat) (k : Int), x < 2 ^ 32 →
    (sameValue (fp32.decode x) (intFV k) → -149 ≤ k → k ≤ 127 → (at_ .exp2 m x).fx = 0 ∧ sameValue (fp32.decode (at_ .exp2 m x).pat) (twoPow k)) ∧
    (sameValue (fp32.decode x) (twoPow k) → (at_ .log2 m x).fx = 0 ∧ sameValue (fp32.decode (at_ .log2 m x).pat) (intFV k)) ∧
    ∀ y v, 0 < y → y < 0x7F800000 → FV.mul (fp32.decode y) (fp32.decode y) = some v → sameValue (fp32.decode x) v → at_ .sqrt m x = ⟨y, 0⟩) ∧
  (∀ (f : Fun1) (x : Nat), f = .sqrt ∨ f = .rcp ∨ f = .rsq → 0 < x → x < 0x7F800000 →
    let side := fun (z : FV) => besideFun f (fp32.decode x) z
    let lo := (at_ f .rdn x).pat
    let hi := (at_ f .rup x).pat
    at_ f .rtz x = at_ f .rdn x ∧ (∀ m : RMode, bitOf (at_ f m x).fx 4 = (lo != hi)) ∧
    (∀ z, z < 0x7F800000 → ((z ≤ lo ↔ side (fp32.decode z) ≠ .gt) ∧ (hi ≤ z ↔ side (fp32.decode z) ≠ .lt))) ∧
    (hi < 0x7F800000 → ∀ p q, FV.add .rne (fp32.decode lo) (fp32.decode hi) = some p → FV.mul p (twoPow (-1)) = some q →
      (at_ f .rne x).pat = match side q with
        | .lt => hi
        | .gt => lo
        | .eq => if lo % 2 = 0 then lo else hi)) ∧
  (∀ (m : RMode) (x : Nat), m = .rne ∨ m = .rtz → 0 < x → x < 0x7F800000 →
    (∀ f ∈ [Fun1.rcp, .sin, .tanh], at_ f m (x + 2 ^ 31) = ⟨(at_ f m x).pat ^^^ 2 ^ 31, (at_ f m x).fx⟩) ∧ at_ .cos m (x + 2 ^ 31) = at_ .cos m x) ∧
  (∀ x, 0 < x → x < 0x2B800000 →
    (∀ f ∈ [Fun1.sin, .tanh], at_ f .rne x = ⟨x, if x < 0x00800000 then fxNX + fxUF else fxNX⟩) ∧ at_ .cos .rne x = ⟨0x3F800000, fxNX⟩) ∧
  (∀ x, 0x43000000 ≤ x → x < 0x7F800000 → at_ .exp2 .rne x = ⟨0x7F800000, fxOF + fxNX⟩) ∧
  (∀ x, 0xC3170000 ≤ x → x < 0xFF800000 → at_ .exp2 .rne x = ⟨0, fxUF + fxNX⟩) ∧
  (∀ x, 0x42800000 ≤ x → x < 0x7F800000 → at_ .tanh .rne x = ⟨0x3F800000, fxNX⟩) ∧
  at_ .sin .rne 0x3F800000 = ⟨0x3F576AA4, fxNX⟩ ∧ at_ .cos .rne 0x3F800000 = ⟨0x3F0A5140, fxNX⟩ ∧ at_ .tanh .rne 0x3F800000 = ⟨0x3F42F7D6, fxNX⟩ ∧
  at_ .exp2 .rne 0x3F000000 = ⟨0x3FB504F3, fxNX⟩ ∧ at_ .log2 .rne 0x40400000 = ⟨0x3FCAE00D, fxNX⟩ ∧ at_ .sqrt .rne 0x40000000 = ⟨0x3FB504F3, fxNX⟩ ∧
  at_ .rsq .rne 0x40000000 = ⟨0x3F3504F3, fxNX⟩ ∧ at_ .rcp .rne 0x40400000 = ⟨0x3EAAAAAB, fxNX⟩

/-- R71, R73, R74, R142, R145 to R148, R150: the FP32 instructions, the unary functions and their values. Where the spec leaves a choice,
the choice is the model's: log 17. -/
def Obligations.FloatResults : Prop := FloatArithmeticResults ∧ FloatFunctionResults ∧ FloatFunctionValues

/-- R66, R69: rounding a value that the format holds gives its own pattern, in every mode and without a flag. -/
def Sys2Proof.Claims.RoundingKeepsRepresentable : Prop :=
  ∀ (f : Fmt) (mode : RMode) (x : Nat), f ∈ [fp32, fp16, bf16, e4m3, e5m2, e2m1, fp64] → x < 2 ^ (1 + f.ebits + f.fbits) →
    (f.decode x).isNan = false → roundFV f mode (f.decode x) = ⟨x, 0⟩

/-- R71, R72, R145: a sum or product of FP32 values with a NaN operand is the first NaN made quiet, and the sum of opposite
infinities and the product of an infinity and a zero are the canonical NaN with NV. -/
def Sys2Proof.Claims.FloatInvalidAndNan : Prop :=
  (∀ (m : RMode) (x y : Nat), (fp32.decode x).isNan = true → x < 2 ^ 32 →
    (fAdd32 m x y).pat = x ||| 0x00400000 ∧ (fMul32 m x y).pat = x ||| 0x00400000) ∧
  (∀ (m : RMode) (x y : Nat), (fp32.decode x).isNan = false → (fp32.decode y).isNan = true → y < 2 ^ 32 →
    (fAdd32 m x y).pat = y ||| 0x00400000 ∧ (fMul32 m x y).pat = y ||| 0x00400000) ∧
  (∀ m : RMode, fAdd32 m 0x7F800000 0xFF800000 = ⟨0x7FC00000, fxNV⟩ ∧ fMul32 m 0x7F800000 0 = ⟨0x7FC00000, fxNV⟩) ∧
  (∀ (m : RMode) (z : Nat), fFma32 m 0x7F800000 0 z = ⟨0x7FC00000, fxNV⟩)

/-- R66, R69, R71, R72, R145: rounding keeps what the format holds; NaN operands and invalid operations. -/
def Obligations.RoundingAndInvalid : Prop := RoundingKeepsRepresentable ∧ FloatInvalidAndNan

/-- R151: packed arithmetic works on both halves and ORs the flags of both. -/
def Obligations.PackedResults : Prop :=
  FThree .pkfmaH (fun h x y z => halves fun k => fmaFP fp16 h.mode (fp16.decode (half h 4 x k)) (fp16.decode (half h 2 y k)) (fp16.decode (half h 1 z k))) ∧
  FThree .pkfmaB (fun h x y z => halves fun k => fmaFP bf16 h.mode (bf16.decode (half h 4 x k)) (bf16.decode (half h 2 y k)) (bf16.decode (half h 1 z k))) ∧
  FSelf .pkaddH (fun h x y => halves fun k => eAdd fp16 h.mode (half h 1 x k) (half h 4 y k)) ∧
  FSelf .pkmulH (fun h x y => halves fun k => eMul fp16 h.mode (half h 1 x k) (half h 4 y k)) ∧
  FSelf .pkminH (fun h x y => halves fun k => minMaxFP fp16 false (half h 1 x k) (half h 4 y k)) ∧
  FSelf .pkmaxH (fun h x y => halves fun k => minMaxFP fp16 true (half h 1 x k) (half h 4 y k)) ∧
  FSelf .pksubH (fun h x y => halves fun k => eSub fp16 h.mode (half h 1 x k) (half h 4 y k)) ∧
  FSelf .pkaddB (fun h x y => halves fun k => eAdd bf16 h.mode (half h 1 x k) (half h 4 y k)) ∧
  FSelf .pkmulB (fun h x y => halves fun k => eMul bf16 h.mode (half h 1 x k) (half h 4 y k)) ∧
  FSelf .pkminB (fun h x y => halves fun k => minMaxFP bf16 false (half h 1 x k) (half h 4 y k)) ∧
  FSelf .pkmaxB (fun h x y => halves fun k => minMaxFP bf16 true (half h 1 x k) (half h 4 y k)) ∧
  FSelf .pksubB (fun h x y => halves fun k => eSub bf16 h.mode (half h 1 x k) (half h 4 y k))

/-- R77, R152, R153, R173: the fixed-format conversions and UNPK. -/
def Sys2Proof.Claims.ConversionResults : Prop :=
  FOne .cvtS32F32 (fun h x => toInt32 h.mode true x) ∧ FOne .cvtU32F32 (fun h x => toInt32 h.mode false x) ∧
  FOne .cvtF32S32 (fun h x => roundFV fp32 h.mode (intFV (BitVec.ofNat 32 x).toInt)) ∧ FOne .cvtF32U32 (fun h x => roundFV fp32 h.mode (intFV x)) ∧
  FOne .cvtF16F32 (fun h x => roundFV fp16 h.mode (fp32.decode x)) ∧ FOne .cvtF32F16 (fun h x => roundFV fp32 h.mode (fp16.decode (x % 65536))) ∧
  FOne .cvtBf16F32 (fun h x => roundFV bf16 h.mode (fp32.decode x)) ∧ FOne .cvtF32Bf16 (fun h x => roundFV fp32 h.mode (bf16.decode (x % 65536))) ∧
  (∀ (d a : BitVec 7) (q : Bool) (g : BitVec 3) (s : State) (e : Env),
    (Clear s (.cvtF32F64 d a q g) e [] → RegsBecome s e (.cvtF32F64 d a q g) (.code d 1) q fun _ t =>
      let r := roundFV fp32 e.h.mode (fp64.decode (e.val a 2 t)); ([BitVec.ofNat 32 r.pat], r.fx)) ∧
    (Clear s (.cvtF64F32 d a q g) e [] → RegsBecome s e (.cvtF64F32 d a q g) (.code d 2) q fun _ t =>
      let r := roundFV fp64 e.h.mode (fp32.decode (word e a t).toNat); ([BitVec.ofNat 32 r.pat, BitVec.ofNat 32 (r.pat / 2 ^ 32)], r.fx)) ∧
    (Clear s (.unpk d a q g) e [] → RegsBecome s e (.unpk d a q g) (.code d 2) q fun _ t =>
      ([nibblesOf (word e a t), nibblesOf (word e a t >>> 4)], 0)))

/-- R154 to R159: narrowing, widening and the lattice conversions, by the slot and the scale that the word names. -/
def Sys2Proof.Claims.SlotConversionResults : Prop :=
  (∀ (d a : BitVec 7) (f : BitVec 3) (c : BitVec 4) (q : Bool) (g : BitVec 3) (s : State) (e : Env),
    (Clear s (.cvtn d a f c q g) e [] → RegsBecome s e (.cvtn d a f c q g) (.code d 1) q fun _ t =>
      let k := descKind (e.slot f).bdesc
      let rs := (e.words (.code a (packCount k)) t).map fun x => cvtnElement x.toNat (e.sigma c t) (e.slot f) e.h.mode
      ([BitVec.ofNat 32 (joined (kindBits k) (rs.map (·.pat)))], flagsOf rs)) ∧
    (Clear s (.cvtw d a f c q g) e [] → RegsBecome s e (.cvtw d a f c q g) (.code d (packCount (descKind (e.slot f).adesc))) q fun _ t =>
      let k := descKind (e.slot f).adesc
      let rs := (List.range (packCount k)).map fun j => widenElem .rne
        [elemValue (e.slot f) (e.slot f).adesc k ((word e a t).toNat / 2 ^ (j * kindBits k) % 2 ^ kindBits k),
          fp32.decode (e.sigma c t), fp32.decode (e.slot f).atsc.toNat]
      (rs.map fun r => BitVec.ofNat 32 r.pat, flagsOf rs)) ∧
    (Clear s (.dl8 d a f c q g) e [] → RegsBecome s e (.dl8 d a f c q g) (.block d.toNat 8) q fun _ t =>
      let rs := (latticeOf (e.slot f) (word e a t).toNat).map fun v =>
        widenElem e.h.mode [v, fp32.decode (e.sigma c t), fp32.decode (e.slot f).btsc.toNat]
      (rs.map fun r => BitVec.ofNat 32 r.pat, flagsOf rs))) ∧
  (∀ (d : BitVec 7) (r : BitVec 4) (n f : BitVec 3) (c : BitVec 4) (q : Bool) (g : BitVec 3) (s : State) (e : Env),
    Clear s (.ql8 d r n f c q g) e [] → RegsBecome s e (.ql8 d r n f c q g) (.code d 1) q fun _ t =>
      let xs := (e.words (.block (8 * r.toNat) (if n = 0 then 8 else n.toNat)) t).map fun x => fp32.decode x.toNat
      let w := ql8Word xs (fp32.decode (e.sigma c t)) (fp32.decode (e.slot f).btsc.toNat) (pointWidth (descKind (e.slot f).bdesc))
        (descLpol (e.slot f).bdesc)
      ([BitVec.ofNat 32 w.1], w.2)) ∧
  (∀ (d a : BitVec 7) (f i : BitVec 3) (q : Bool) (g : BitVec 3) (s : State) (e : Env),
    Clear s (.xl8 d a f i q g) e [] → RegsBecome s e (.xl8 d a f i q g) (.code d 1) q fun _ t =>
      let r := widenElem .rne [(latticeOf (e.slot f) (word e a t).toNat).getD i.toNat (.fin false 0 0), fp32.decode (e.slot f).btsc.toNat]
      ([BitVec.ofNat 32 r.pat], r.fx))

/-- R56, R78, R82 to R84, R155, R156: the values behind the conversions of slots. A product of finite factors is rounded once. A quotient by
the tensor scale, or by the block and the tensor scale, that a floating format holds narrows to itself. The worked examples of R156 and R84. The
point that CosetRound finds without a box has an even sum and is a nearest one of D8; the point of the unbounded search is a nearest one of E8,
and that of a search in a box lies in it. QL8 searches for the exact quotients over any common denominator; a NaN coordinate counts as zero
under SAT and gives the all-ones word under NAN. -/
def Sys2Proof.Claims.SlotValues : Prop :=
  let dist := fun (d : Nat) (zs ys : List Int) => ((zs.zip ys).map fun p => sqDiff p.1 d p.2).sum
  (∀ (m : RMode) (s1 s2 s3 : Bool) (m1 m2 m3 : Nat) (e1 e2 e3 : Int),
    widenElem m [.fin s1 m1 e1, .fin s2 m2 e2, .fin s3 m3 e3] = roundFV fp32 m (.fin (s1 != (s2 != s3)) (m1 * (m2 * m3)) (e1 + (e2 + e3)))) ∧
  (∀ (m : RMode) (x sg : Nat) (f : FSlot) (k : Nat) (t : Fmt) (p : Nat) (u v : FV),
    (k, t) ∈ [(1, bf16), (2, fp16), (3, e4m3), (4, e5m2)] → descKind f.bdesc = k → tscOk f.btsc = true →
    p < 2 ^ (1 + t.ebits + t.fbits) → (t.decode p).isNan = false → (t.decode p).isInf = false → (t.decode p).isZero = false →
    (descScf f.bdesc = 0 → FV.mul (fp32.decode x) (fp32.decode sg) = some u → FV.mul (t.decode p) (fp32.decode f.btsc.toNat) = some v → sameValue u v →
      u.isInf = false → cvtnElement x sg f m = ⟨p, 0⟩) ∧
    (descScf f.bdesc ≠ 0 → (fp32.decode x).isInf = false → (fp32.decode sg).isZero = false → (fp32.decode sg).isInf = false →
      (FV.mul (t.decode p) (fp32.decode sg)).bind (FV.mul · (fp32.decode f.btsc.toNat)) = some v → sameValue (fp32.decode x) v →
      cvtnElement x sg f m = ⟨p, 0⟩)) ∧
  (∀ f : FSlot, f.bdesc = 0x00001303 → f.btsc = 0x3F800000 →
    ([0x3F800000, 0xC0400000, 0x44160000, 0x7FC00000].map fun x => cvtnElement x 0x3FA00000 f .rne) =
      [⟨0x35, fxNX⟩, ⟨0xC2, fxNX⟩, ⟨0x7E, fxCL + fxNX⟩, ⟨0x7F, 0⟩]) ∧
  (∀ (zs : List Int) (d : Nat), zs.length = 8 → 0 < d →
    let r := cosetRound none zs d
    r.length = 8 ∧ r.sum % 2 = 0 ∧ ∀ ys : List Int, ys.length = 8 → ys.sum % 2 = 0 → dist d zs r ≤ dist d zs ys) ∧
  (∀ (ts : List Int) (d : Nat), ts.length = 8 → 0 < d →
    let r := latticeSearch none ts (2 * d)
    let from_ := fun (c : Bool) => ts.map fun (t : Int) => if c then t - (d : Int) else t
    r.1.length = 8 ∧ r.1.sum % 2 = 0 ∧ ∀ (c : Bool) (ys : List Int), ys.length = 8 → ys.sum % 2 = 0 → dist (2 * d) (from_ r.2) r.1 ≤ dist (2 * d) (from_ c) ys) ∧
  (∀ (ts : List Int) (d w : Nat), 2 ≤ w → ts.length = 8 → 0 < d →
    ∀ y ∈ (latticeSearch (some (-(2 : Int) ^ (w - 1), (2 : Int) ^ (w - 1) - 1)) ts (2 * d)).1, -(2 : Int) ^ (w - 1) ≤ y ∧ y ≤ (2 : Int) ^ (w - 1) - 1) ∧
  nearestE8 ([1, -7, 10, 3, -1, 6, -10, 0].map Coord.frac) 4 4 false = (0xFA3E05C1, 0) ∧
  nearestE8 ([7, 0, 0, 0, 0, 0, 0, 0].map Coord.frac) 4 2 false = (0x000A, fxLO) ∧
  (∀ (ts : List Coord) (d w : Nat), Coord.nan ∈ ts → nearestE8 ts d w true = (allOnes w, fxNV + fxLO) ∧
    (nearestE8 ts d w false).1 = (nearestE8 (ts.map fun t => if t = .nan then .frac 0 else t) d w false).1) ∧
  ∀ (xs : List FV) (sigma btsc v : FV) (ts : List Int) (d w : Nat) (pol : Bool), xs.length = 8 → ts.length = 8 → 0 < d → FV.mul sigma btsc = some v →
    sigma.isNan = false → btsc.isNan = false → v.isInf = false → v.isZero = false →
    (∀ p ∈ xs.zip ts, p.1.isInf = false ∧ ∃ l r, FV.mul p.1 (intFV (2 * d)) = some l ∧ FV.mul (intFV p.2) v = some r ∧ sameValue l r) →
    ql8Word xs sigma btsc w pol = nearestE8 (ts.map Coord.frac) (2 * d) w pol

/-- R56, R77, R78, R82 to R84, R152 to R159, R173: the fixed-format conversions, UNPK, those of the slots, and the values behind these. -/
def Obligations.Conversions : Prop := ConversionResults ∧ SlotConversionResults ∧ SlotValues

/-- R31, R32, R160: RDFX, WRFX and CLRFX. The reserved bits of FX read as zero and their writes are ignored. -/
def Sys2Proof.Claims.FlagAccess : Prop :=
  (∀ (d : BitVec 7) (q : Bool) (g : BitVec 3) (s : State) (e : Env), Clear s (.rdfx d q g) e [] →
    RegsBecome s e (.rdfx d q g) (.code d 1) true fun _ t => ([t.fx &&& 127], 0)) ∧
  (∀ (a : BitVec 7) (g : BitVec 3) (s : State) (e : Env),
    (Clear s (.wrfx a g) e [] → ThreadsBecome s e (.wrfx a g) fun _ t0 t => { t with fx := word e a t0 &&& 127 }) ∧
    (Clear s (.clrfx a g) e [] → ThreadsBecome s e (.clrfx a g) fun _ t0 t => { t with fx := t.fx &&& ~~~(word e a t0 &&& 127) }))

/-- R27, R31, R32, R124, R160: SETA and AADD on the index registers, RDFX, WRFX and CLRFX on FX. -/
def Obligations.IndexAndFlagRegisters : Prop := IndexRegisterResults ∧ FlagAccess

/-! ### Group instructions -/

/-- R224, R225: the lane exchanges take a from the source lane where that lane takes part, and keep their own a otherwise.
Q is accepted without effect. -/
def Sys2Proof.Claims.LaneExchange : Prop :=
  Exchange .lxi (fun _ y => some (y.toNat % 32)) ∧ Exchange .lxm (fun n y => some (n ^^^ (y.toNat % 32))) ∧
  Exchange .lxr (fun n y => some ((n + y.toNat) % 32)) ∧
  Exchange .lxs (fun n y => if 0 ≤ (n : Int) + y.toInt ∧ (n : Int) + y.toInt < 32 then some ((n : Int) + y.toInt).toNat else none)

/-- R226: votes and lane queries over the lanes that take part. -/
def Sys2Proof.Claims.LaneQueries : Prop :=
  Votes .lany (fun bs => bs.any id) ∧ Votes .lall (fun bs => bs.all id) ∧ Votes .lagree (fun bs => bs.all id || bs.all not) ∧
  Votes .lodd (fun bs => bs.countP id % 2 == 1) ∧
  Queries .lmask (fun vs _ _ => maskOf 32 ((vs.filter fun v => v.2 != 0).map (·.1))) ∧
  Queries .lpeer (fun vs _ x => maskOf 32 ((vs.filter fun v => v.2 == x).map (·.1))) ∧
  Queries .compact (fun vs n _ => BitVec.ofNat 32 (((vs.filter fun v => v.2 != 0).map (·.1)).getD n 32)) ∧
  Queries .lfirst (fun vs _ _ => (vs.map (·.2)).headD 0)

/-- R227: LFOLD combines the lanes that take part in ascending order, starting from the lowest. -/
def Sys2Proof.Claims.LaneFolds : Prop :=
  Folds .lfoldIadd (fun x y => (x + y, 0)) ∧ Folds .lfoldIminS (fun x y => (if y.slt x then y else x, 0)) ∧
  Folds .lfoldImaxS (fun x y => (if x.slt y then y else x, 0)) ∧ Folds .lfoldAnd (fun x y => (x &&& y, 0)) ∧
  Folds .lfoldOr (fun x y => (x ||| y, 0)) ∧ Folds .lfoldXor (fun x y => (x ^^^ y, 0)) ∧
  Folds .lfoldFadd (fun x y => asWord (fAdd32 .rne x.toNat y.toNat)) ∧ Folds .lfoldFmax (fun x y => asWord (minMaxFP fp32 true x.toNat y.toNat))

/-- R224 to R227: lane exchanges, votes and queries, folds. -/
def Obligations.LaneResults : Prop := LaneExchange ∧ LaneQueries ∧ LaneFolds

/-! ### Uniform instructions -/

/-- R125, R126: the register forms of uniform arithmetic. s0 reads as zero and discards writes (R34). -/
def Sys2Proof.Claims.UniformResults : Prop :=
  STwo .sadd (fun x y => x + y) ∧ STwo .ssub (fun x y => x - y) ∧ STwo .smul (fun x y => x * y) ∧ STwo .sand (fun x y => x &&& y) ∧
  STwo .sor (fun x y => x ||| y) ∧ STwo .sxor (fun x y => x ^^^ y) ∧ STwo .sshl (fun x y => x <<< y.toNat) ∧
  STwo .sshr (fun x y => x >>> y.toNat) ∧ STwo .ssar (fun x y => x.sshiftRight y.toNat) ∧
  (∀ (d a : BitVec 6) (s : State) (e : Env), Clear s (.smov d a) e [] → SregBecomes s e (.smov d a) d (sword e a).toNat) ∧
  (∀ (d a b : BitVec 6) (c : ICmp) (s : State) (e : Env), Clear s (.scmp d a b c) e [] →
    SregBecomes s e (.scmp d a b c) d (if compares c (sword e a) (sword e b) then 1 else 0)) ∧
  (∀ (d a b : BitVec 6) (s : State) (e : Env), Clear s (.ssel d a b) e [] →
    SregBecomes s e (.ssel d a b) d (if sword e d = 0 then sword e b else sword e a).toNat) ∧
  (∀ e : Env, sword e 0 = 0)

/-- R127, R100: uniform arithmetic with an immediate. IMML alone gives its 25 bits sign-extended; IMML and IMMH give 25 and
25 bits below IMM13, which is sign-extended there. -/
def Sys2Proof.Claims.UniformImmediates : Prop :=
  SImm .saddImm (fun x y => x + y) (·.signExtend 64) ∧ SImm .sandImm (fun x y => x &&& y) (·.zeroExtend 64) ∧
  SImm .sorImm (fun x y => x ||| y) (·.zeroExtend 64) ∧ SImm .sxorImm (fun x y => x ^^^ y) (·.zeroExtend 64) ∧
  SAmount .sshlImm (fun x n => x <<< n) ∧ SAmount .sshrImm (fun x n => x >>> n) ∧ SAmount .ssarImm (fun x n => x.sshiftRight n) ∧
  (∀ (d : BitVec 6) (i : BitVec 13) (s : State) (e : Env), Clear s (.smovi d i) e [] →
    SregBecomes s e (.smovi d i) d (wideSImm e.h i (i.signExtend 64)).toNat)

/-- R34, R100, R125 to R127: uniform arithmetic on registers and on immediates. -/
def Obligations.UniformArithmetic : Prop := UniformResults ∧ UniformImmediates

/-! ### Memory -/

/-- R161, R162, R165, R167, R328: where every lane's address is good and translates, a load reads each lane's bytes at issue and puts
them in flight, zero-extended to its registers, or, where a relaxed load is late, goes in flight with the places that it will read, in the
units that it may read apart and with what its threads have read early of them; what was read early for the word is gone then, and memory and
every other piece of state but caches are as they were. -/
def Sys2Proof.Claims.LoadsComplete : Prop :=
  LoadCompletes 1 1 .ldB ∧ LoadCompletes 2 1 .ldH ∧ LoadCompletes 4 1 .ldW ∧ LoadCompletes 8 2 .ldD ∧ LoadCompletes 16 4 .ldQ

/-- R169, R301, R328: bytes of one sector, read at issue or late, come from memory where the scope is wider than the CU or the L1 has no copy, and from the
copy otherwise; what has been read already is not read again. -/
def Sys2Proof.Claims.LoadServedFrom : Prop :=
  ∀ (s : State) (cu : Nat) (c : Cu) (sc : Scope) (p : PAddr) (va n k : Nat), s.cu? cu = some c → p.addr % 32 + n ≤ 32 →
    (servedByL1 sc = false ∨ c.l1.find? (·.at_ == p.sector) = none →
      (s.loadElems cu sc [.at_ p va n]).1 = (s.memOf p.space).read p.addr n ∧
      (s.readParts cu sc [⟨some (.mem p), va, n, k, none⟩]).1 = (s.memOf p.space).read p.addr n) ∧
    (∀ bs, (s.readParts cu sc [⟨some (.mem p), va, n, k, some bs⟩]).1 = bs) ∧
    (∀ h, servedByL1 sc = true → c.l1.find? (·.at_ == p.sector) = some h →
      (s.loadElems cu sc [.at_ p va n]).1 = (h.data.drop (p.addr % 32)).take n ∧
      (s.readParts cu sc [⟨some (.mem p), va, n, k, none⟩]).1 = (h.data.drop (p.addr % 32)).take n)

/-- R161, R162, R165, R167, R169, R301: loads from memory, and where their bytes come from. Where the spec leaves a choice, the choice is
the model's: log 7, 111. -/
def Obligations.Loads : Prop := LoadsComplete ∧ LoadServedFrom

/-- R161, R162, R165, R167, R168: where every lane's address is good and translates, a store writes the low bytes of each lane's
registers; of several lanes that store to one place the highest remains; every other byte of memory reads as before. A late store leaves
memory as it is and holds its bytes back (R328). -/
def Sys2Proof.Claims.StoresComplete : Prop :=
  StoreCompletes 1 1 .stB ∧ StoreCompletes 2 1 .stH ∧ StoreCompletes 4 1 .stW ∧ StoreCompletes 8 2 .stD ∧ StoreCompletes 16 4 .stQ

/-- R174, R175, R328: ZFILL leaves zeros in every line that it names and changes no other byte, or holds its zeros back where it is late;
PREF changes caches alone. -/
def Sys2Proof.Claims.LineInstructions : Prop :=
  (∀ (o : BitVec 7) (b : BitVec 3) (l : BitVec 4) (sc : Scope) (r : Bool) (s s2 : State) (e : Env) (m : Mapped),
    let i : Instr := .zfill o b l sc r
    let sp : AccSpec := { acc := .write, size := 128, scope := sc, noView := true }
    let as := e.eas .lane b (.code o 1)
    Clear s i e (e.accConds sp as) → e.mapAll (e.advance (e.shape i)) sp as = .ok (m, s2) →
    (e.iss.late = false ∨ r = true → ∃ t, exec i s = .next t ∧ Advanced s t e i ∧ OnlyWrites s t ∧ NoNewFlight s t ∧
      (∀ p, Untouched s m p → (t.memOf p.space).get p.addr = (s.memOf p.space).get p.addr) ∧
      (∀ k p va n, (k, [Elem.at_ p va n]) ∈ m → Writable s p 128 → (t.memOf p.space).read p.addr 128 = List.replicate 128 0)) ∧
    (e.iss.late = true → r = false → HoldsBack s e i m true fun _ => List.replicate 128 0)) ∧
  (∀ (o : BitVec 7) (b : BitVec 3) (l : BitVec 4) (s : State) (e : Env), Clear s (.pref o b l) e [] →
    ∃ t, exec (.pref o b l) s = .next t ∧ Advanced s t e (.pref o b l) ∧ OnlyReads s t ∧ NoNewFlight s t)

/-- R161, R162, R165, R167, R168, R174, R175: stores, ZFILL and PREF. Where the spec leaves a choice, the choice is the model's: log 7, 37. -/
def Obligations.StoresAndLines : Prop := StoresComplete ∧ LineInstructions

/-- R163, R170 to R172, R328: scratchpad loads. A lane whose bytes lie in present lines loads at once, or goes in flight with the bytes
that it will read where the issue is late; a lane with an absent line parks on what it still has to load. -/
def Sys2Proof.Claims.ScratchpadLoads : Prop :=
  (∀ (d o : BitVec 7) (b : BitVec 3) (l : BitVec 4) (z : Size) (s : State) (e : Env),
    let i : Instr := .ldl d o b l z
    let n := sizeBytes z
    let at_ := fun (t : Thread) => (e.sa b (word e o t).toNat).toNat
    let ready := ((e.sas .lane b (.code o 1)).map fun a => (a.1, a.2.toNat)).filter fun a => s.present e.team.id a.2 n
    Clear s i e (e.scrConds n n false (e.sas .lane b (.code o 1))) →
    (e.iss.late = true → ready ≠ [] → ∃ t, exec i s = .next t ∧
      Flies s t e (.lateLoad .team (ready.map fun a => ⟨a.1, e.dest (.code d z.regs) a.1, halvesOf 0 (fun j => .scr e.team.id (a.2 + j)) a.2 n, true⟩)) ∧
      Lanes t e i fun _ t0 t => if s.present e.team.id (at_ t0) n then t
        else { t with wait := .line (.ldl (at_ t0) n (e.sel (.code d z.regs) t0 true).list) }) ∧
    (e.iss.late = false ∨ ready = [] → (∀ k ∈ Taking e i, ∀ t0, e.thread k = some t0 → s.present e.team.id (at_ t0) n = true → (s.scrRead e.team.id (at_ t0) n).2 = false) →
    ThreadsBecome s e i fun _ t0 t =>
      let rs := (e.sel (.code d z.regs) t0 true).list
      if s.present e.team.id (at_ t0) n then t.putRegs rs (wordsOf (s.scrRead e.team.id (at_ t0) n).1 z.regs)
      else { t with wait := .line (.ldl (at_ t0) n rs) })) ∧
  (∀ (d o : BitVec 7) (b : BitVec 3) (l : BitVec 4) (s : State) (e : Env),
    let i : Instr := .ldt d o b l
    let as := (e.sas .lane b (.code o 1)).map fun a => (a.1, a.2.toNat)
    let here := fun (k : Nat) => (quadRows as k).all fun r => r.all fun a => s.present e.team.id a 16
    Clear s i e (e.scrConds 16 16 false (e.sas .lane b (.code o 1))) →
    (e.iss.late = true → (as.filter fun a => here a.1) ≠ [] → ∃ t, exec i s = .next t ∧
      Flies s t e (.lateLoad .team ((as.filter fun a => here a.1).map fun a => ⟨a.1, e.dest (.code d 4) a.1,
        (List.range 4).flatMap fun m => (quadRows as a.1).map fun r => match r with
          | some x => ⟨some (.scr e.team.id (x + 4 * (a.1 % 4) + m)), x, 1, 0, none⟩
          | none => ⟨none, 0, 1, 0, none⟩, false⟩)) ∧
      Lanes t e i fun k t0 t => if here k then t else { t with wait := .line (.ldt (quadRows as k) (k % 4) (e.sel (.code d 4) t0 true).list) }) ∧
    (e.iss.late = false ∨ (as.filter fun a => here a.1) = [] → (∀ a ∈ as, here a.1 = true → ∀ x, some x ∈ quadRows as a.1 → (s.scrRead e.team.id x 16).2 = false) →
    ThreadsBecome s e i fun k t0 t =>
      let rs := (e.sel (.code d 4) t0 true).list
      if here k then t.putRegs rs (ldtWords (fun a => (s.scrRead e.team.id a 16).1) (quadRows as k) (k % 4))
      else { t with wait := .line (.ldt (quadRows as k) (k % 4) rs) }))

/-- R163, R168, R170, R328: STL writes the low bytes of each lane's registers to the team's scratchpad, the highest lane remaining, and
changes no other byte of it, no memory and no other team; a late one changes nothing and holds its bytes back, 16 of them in two halves. -/
def Sys2Proof.Claims.ScratchpadStoreCompletes : Prop :=
  ∀ (d o : BitVec 7) (b : BitVec 3) (l : BitVec 4) (z : Size) (s : State) (e : Env),
    let i : Instr := .stl d o b l z
    let n := sizeBytes z
    let as := (e.sas .lane b (.code o 1)).map fun a => (a.1, a.2.toNat)
    let data := fun (k : Nat) => (e.thread k).elim [] fun t0 => (regBytes (e.words (.code d z.regs) t0)).take n
    Clear s i e (e.scrConds n n true (e.sas .lane b (.code o 1))) →
    (e.iss.late = true → ∃ t ls, exec i s = .next t ∧ Advanced s t e i ∧
      { t with groups := s.groups, flights := s.flights, nextFlight := s.nextFlight } = s ∧
      t.flights = s.flights ++ (if ls = [] then [] else [flightOf e s (.lateStore false ls)]) ∧
      ls = as.flatMap fun a => unitsOf a.1 0 (fun j => .scr e.team.id (a.2 + j)) (data a.1)) ∧
    (e.iss.late = false → ∃ t m, exec i s = .next t ∧ Advanced s t e i ∧ OnlyScratch s t e m ∧
      (∀ off, (∀ a ∈ as, ¬(a.2 ≤ off ∧ off < a.2 + n)) → m.mem.get off = e.team.mem.get off) ∧
      (MemOk s → ∀ k a t0, (k, a) ∈ as → e.thread k = some t0 → (∀ x ∈ as, k < x.1 → overlap a n x.2 n = false) →
        m.mem.read a n = data k))

/-- R176 to R179, R328: where every lane's address is good and translates, an atomic reads and writes memory in ascending lane order,
puts the old values in flight and changes no other byte; a lane whose bytes no other lane touches leaves the operation's new value and takes
the old one, and where all lanes name one place each takes what the lower lanes have left there. A late one changes no memory and goes in flight with what it will do. -/
def Sys2Proof.Claims.AtomicsComplete : Prop :=
  (∀ (c : AtomOp), AtomicCompletes 4 (fun d v b l sc r => .atom d c v b l sc r) (fun e d t old =>
    let ws := e.words (.code d (atomRegs c false)) t
    atomNew c 32 old (regsNat (ws.take 1)) (regsNat (ws.drop 1))) fun _ _ _ => 0) ∧
  (∀ (c : AtomOp), AtomicCompletes 8 (fun d v b l sc r => .atomD d c v b l sc r) (fun e d t old =>
    let ws := e.words (.code d (atomRegs c true)) t
    atomNew c 64 old (regsNat (ws.take 2)) (regsNat (ws.drop 2))) fun _ _ _ => 0) ∧
  AtomicCompletes 4 .atomFadd (fun e d t old => (fAdd32 .rne old (word e d t).toNat).pat) (fun _ _ _ => 0) ∧
  AtomicCompletes 8 .fxadd (fun e d t old => (old + (fxaddTerm (word e d t).toNat e.h.f).1) % 2 ^ 64)
    (fun e d t => (fxaddTerm (word e d t).toNat e.h.f).2)

/-- R176, R178, R180: the new values of the atomic operations, on 32 and on 64 bits. -/
def Sys2Proof.Claims.AtomicOperations : Prop := AtomicTable 32 ∧ AtomicTable 64 ∧
  (∀ old v w : Word, latomNew .fadd old.toNat v.toNat w.toNat = (fAdd32 .rne old.toNat v.toNat).pat) ∧
  (∀ (c : AtomOp) (old v w : Word), latomNew (.op c) old.toNat v.toNat w.toNat = atomNew c 32 old.toNat v.toNat w.toNat)

/-- R176 to R180: the atomics of memory and their operations. Where the spec leaves a choice, the choice is the model's: log 7, 116. -/
def Obligations.Atomics : Prop := AtomicsComplete ∧ AtomicOperations

/-- R177, R180: ATOML works on the team's scratchpad in ascending lane order and gives every lane the old value; a lane whose bytes no
other lane touches leaves the operation's new value, and lanes that all name one place follow one another; no other byte changes. A late one goes in flight with what it will do (R328). -/
def Sys2Proof.Claims.ScratchpadAtomicCompletes : Prop :=
  ∀ (d o : BitVec 7) (b : BitVec 3) (l : BitVec 4) (c : LAtomOp) (s : State) (e : Env),
    let i : Instr := .atoml d o b l c
    let as := (e.sas .lane b (.code o 1)).map fun a => (a.1, a.2.toNat)
    let new := fun (t : Thread) (old : Nat) =>
      let ws := e.words (.code d c.regs) t
      latomNew c old (regsNat (ws.take 1)) (regsNat (ws.drop 1))
    let x := e.latomAll new as (e.advance (e.shape i))
    Clear s i e (e.scrConds 4 4 true (e.sas .lane b (.code o 1))) →
    (e.iss.late = true → as ≠ [] → ∃ t f, exec i s = .next t ∧ Advanced s t e i ∧ (∀ t0 old, Rmw.new (f t0) old = new t0 old) ∧
      Flies s t e (.lateAtomic (e.lateRmws (.code d 1) f (fun _ => 0) (as.map fun a => (a.1, ⟨some (.scr e.team.id a.2), a.2, 4, 0, none⟩))))) ∧
    (e.iss.late = false ∨ as = [] → x.2.1 = none → ∃ t m, exec i s = .next t ∧ OnlyScratch s t e m ∧
      Lanes t e i (fun k t0 t => (lookupKey x.1 k).elim t fun old => t.putRegs (e.sel (.code d 1) t0 true).list [BitVec.ofNat 32 old]) ∧
      (∀ off, (∀ a ∈ as, ¬(a.2 ≤ off ∧ off < a.2 + 4)) → m.mem.get off = e.team.mem.get off) ∧
      (∀ k a t0, (k, a) ∈ as → e.thread k = some t0 → (∀ y ∈ as, y.1 ≠ k → overlap a 4 y.2 4 = false) →
        (k, leNat (e.team.mem.read a 4)) ∈ x.1 ∧ (MemOk s → m.mem.read a 4 = leBytes 4 (new t0 (leNat (e.team.mem.read a 4))))) ∧
      (MemOk s → ∀ a, (∀ y ∈ as, y.2 = a ∧ (e.thread y.1).isSome = true) →
        let step := fun (old k : Nat) => (e.thread k).elim old fun t0 => new t0 old % 2 ^ 32
        let run := fun (ks : List Nat) => ks.foldl step (leNat (e.team.mem.read a 4))
        (∀ j < as.length, x.1[j]?.map (·.2) = some (run ((as.map (·.1)).take j))) ∧
        (as ≠ [] → m.mem.read a 4 = leBytes 4 (run (as.map (·.1))))))

/-- R163, R168, R170 to R172, R177, R180: LDL, LDT, STL and ATOML. Where the spec leaves a choice, the choice is the model's: log 22, 111. -/
def Obligations.ScratchpadAccess : Prop := ScratchpadLoads ∧ ScratchpadStoreCompletes ∧ ScratchpadAtomicCompletes

/-- R125, R128, R129, R328: SLD puts its 8 bytes in flight for s(d), or the place that it will read; SST writes s(d) to memory, or holds it
back; SLDC reads its launch constant. Where the spec leaves a choice, the choice is the model's: log 7, 38, 80, 112, 130. -/
def Obligations.UniformMemory : Prop :=
  (∀ (d a : BitVec 6) (i : BitVec 13) (s s2 : State) (e : Env) (k : Nat) (es : List Elem),
    let sp : AccSpec := { acc := .read, size := 8, scope := .thread }
    Clear s (.sld d a i) e (e.accConds sp (uniAt e a i)) →
    e.mapAll (e.advance (e.shape (.sld d a i))) sp (uniAt e a i) = .ok ([(k, es)], s2) →
    (e.iss.late = true → ∃ t, exec (.sld d a i) s = .next t ∧ Advanced s t e (.sld d a i) ∧ OnlyReads s t ∧
      t.flights = s.flights ++ [flightOf e s (.lateSload d.toNat (partsOf 0 es)) (Mapped.va [(k, es)])]) ∧
    (e.iss.late = false → (s2.loadElems e.iss.cu .thread es).2.1 = none → ∃ t, exec (.sld d a i) s = .next t ∧ Advanced s t e (.sld d a i) ∧ OnlyReads s t ∧ t.nextFlight = s.nextFlight + 1 ∧
      t.flights = s.flights ++ [flightOf e s (.sload d.toNat (BitVec.ofNat 64 (leNat (s2.loadElems e.iss.cu .thread es).1))) (Mapped.va [(k, es)])])) ∧
  (∀ (d a : BitVec 6) (i : BitVec 13) (s s2 : State) (e : Env) (m : Mapped),
    let sp : AccSpec := { acc := .write, size := 8, scope := .thread }
    Clear s (.sst d a i) e (e.accConds sp (uniAt e a i)) → e.mapAll (e.advance (e.shape (.sst d a i))) sp (uniAt e a i) = .ok (m, s2) →
    (e.iss.late = true → HoldsBack s e (.sst d a i) m false fun _ => leBytes 8 (sword e d).toNat) ∧
    (e.iss.late = false → ∃ t, exec (.sst d a i) s = .next t ∧ Advanced s t e (.sst d a i) ∧ OnlyWrites s t ∧ NoNewFlight s t ∧
      (∀ p, Untouched s m p → (t.memOf p.space).get p.addr = (s.memOf p.space).get p.addr) ∧
      ∀ v ∈ m, ∀ y ∈ piecesOf 0 v.2 (leBytes 8 (sword e d).toNat), Writable s y.2.1 y.2.2.length →
        Last m (fun _ => leBytes 8 (sword e d).toNat) v.1 y.1 y.2.1 y.2.2.length →
        (t.memOf y.2.1.space).read y.2.1.addr y.2.2.length = y.2.2)) ∧
  (∀ (d : BitVec 6) (i : BitVec 13) (s : State) (e : Env) (p : PAddr),
    Clear s (.sldc d i) e (e.when (e.l.hdr.nconst ≤ i.toNat) 0x18 ++ e.when (!usableVA (e.l.hdr.consta + 8 * i.toNat)) 0x10) →
    s.translate e.iss.cu e.l.ctx (e.l.hdr.consta + 8 * i.toNat) .read = .ok p → (s.loadPhys p 8).2 = false →
    SregBecomes s e (.sldc d i) d (leNat ((s.memOf p.space).read p.addr 8)))

/-! ### Control -/

/-- R101, R130, R132, R134, R139: BRA moves the lanes where p XOR N holds to the word's address plus four times OFF21, JMP moves
every lane to s(S), NOP does nothing; YIELD ranks the group last for its next choice. -/
def Sys2Proof.Claims.BranchesAndJumps : Prop :=
  (∀ (p : BitVec 3) (n : Bool) (o : BitVec 21) (s : State) (e : Env), Clear s (.bra p n o) e [] →
    ThreadsBecome s e (.bra p n o) fun _ t0 t =>
      if (t0.p p.toNat != n) = true then { t with pc := e.iss.pc + 4 * o.signExtend 64, fell := false } else t) ∧
  (∀ (r : BitVec 6) (s : State) (e : Env), Clear s (.jmp r) e (e.when (!goodTarget (sword e r).toNat) 9 ++ e.meldConds true) →
    ThreadsBecome s e (.jmp r) fun _ _ t => { t with pc := sword e r, fell := false }) ∧
  (∀ (s : State) (e : Env),
    (Clear s .nop e [] → ThreadsBecome s e .nop fun _ _ t => t) ∧
    (Clear s .yield e [] → ∃ t, exec .yield s = .next t ∧ OnlyGroup s t e ∧ Lanes t e .yield (fun _ _ t => t) ∧
      ∃ g, t.group? e.iss.cu e.iss.part e.iss.slot = some g ∧ g.yielded = true ∧ { g with threads := e.g.threads, yielded := e.g.yielded } = e.g))

/-- R41, R131, R132: a call stores in each calling lane's own entry the address of the next word, in the scratchpad or in memory,
raises its depth and moves it to the target; other lanes go on at the next word. -/
def Sys2Proof.Claims.CallsComplete : Prop :=
  (∀ (p : BitVec 3) (n : Bool) (o : BitVec 21) (s : State) (e : Env),
    CallsTo s e (.call p n o) (e.callConds (e.chosen p n)) (e.chosen p n) (e.iss.pc + 4 * o.signExtend 64)) ∧
  (∀ (r : BitVec 6) (s : State) (e : Env),
    CallsTo s e (.callr r) (e.when (!goodTarget (sword e r).toNat) 9 ++ e.callConds e.lanes) e.lanes (sword e r))

/-- R41, R42, R133: each lane returns to its own entry and lowers its depth; with the return stack in the scratchpad a lane whose
entry lies in an absent line parks at the word. -/
def Sys2Proof.Claims.ReturnsComplete : Prop :=
  (∀ (s : State) (e : Env), Clear s .ret e e.retConds → e.stackMem = false →
    (∀ k ∈ e.lanes, e.retReady (k, retAt e k) = true → (s.scrRead e.team.id (retAt e k).toNat 8).2 = false) →
    ThreadsBecome s e .ret fun k t0 t =>
      if e.retReady (k, retAt e k) then
        { t with pc := BitVec.ofNat 64 (leNat (s.scrRead e.team.id (retAt e k).toNat 8).1), fell := false, depth := t0.depth - 1 }
      else { t with pc := t0.pc, fell := t0.fell, wait := .line (.ret (retAt e k).toNat e.at_) }) ∧
  (∀ (s s2 : State) (e : Env) (m : Mapped), Clear s .ret e e.retConds → e.stackMem = true →
    e.mapAll (e.advance (e.shape .ret)) (stackSpec .read) e.retSlots = .ok (m, s2) →
    let x := s2.loadAll e.iss.cu .thread m
    x.2.1 = none → (∀ v ∈ x.1, goodTarget (leNat v.2) = true) →
    ∃ t, exec .ret s = .next t ∧ GroupsKept s t e ∧ OnlyReads s t ∧ NoNewFlight s t ∧
      Lanes t e .ret fun k t0 t => (lookupKey x.1 k).elim t fun bs =>
        { t with pc := BitVec.ofNat 64 (leNat bs), fell := false, depth := t0.depth - 1 })

/-- R41, R42, R131 to R133: CALL, CALLR and RET. Where the spec leaves a choice, the choice is the model's: log 43, 44, 45. -/
def Obligations.CallsAndReturns : Prop := CallsComplete ∧ ReturnsComplete

/-- R135, R236, R239: EXIT ends the threads of the issue. Threads that wait for a barrier of the team, or for the grid barrier, whose phase
their end completes continue, and the barrier starts its next phase; every other thread, every register of every group, scratchpad, hold
tiles and windows of every team, memory and operations in flight are as they were. -/
def Sys2Proof.Claims.ExitEndsThreads : Prop :=
  ∀ (s : State) (e : Env), Clear s .exit e (e.meldConds true) →
    let ended := fun (g : Group) => { g with threads := g.threads.mapIdx fun k x => if k ∈ e.lanes then none else x }
    let s1 := { s with groups := updFirst (·.at_ e.iss.cu e.iss.part e.iss.slot) ended s.groups }
    let grid := !e.l.gbarArrived.isEmpty && (s1.gridGroups e.l.id).all fun g => g.arrivedIn (e.l.gridLanes g)
    let goes := fun (g : Group) (x : Thread) =>
      (g.team == e.team.id && g.role.isSome && (List.range 16).any fun n => (e.team.bars[n]?).any fun b => reached s1 e.team.id b && waitsFor n b.phase x) ||
      (grid && g.launch == e.l.id && x.wait == .gbar e.l.gbarPhase)
    ∃ t, exec .exit s = .next t ∧ { t with groups := s.groups, teams := s.teams, launches := s.launches, cus := s.cus } = s ∧ CusKept s t ∧
      (∀ k ∈ e.lanes, laneIn t e k = none) ∧ OthersBecome s t e (fun g x => if goes g x then { x with wait := .ready } else x) ∧
      (t.teams.map fun m => { m with bars := [] }) = (s.teams.map fun m => { m with bars := [] }) ∧ (∀ k, k ≠ e.team.id → t.team? k = s.team? k) ∧
      (e.team.bars.length = 16 → (t.team? e.team.id).map (·.bars) = some (e.team.bars.map (settled s1 e.team.id))) ∧
      (∀ k, k ≠ e.l.id → t.launch? k = s.launch? k) ∧
      t.launch? e.l.id = some (if grid then { e.l with gbarPhase := e.l.gbarPhase + 1, gbarArrived := [] } else e.l)

/-- R134: BKPT traps with cause 0x0C and records the next word; TRAP traps with cause 0x0D and records its own. Both carry their
code. -/
def Sys2Proof.Claims.BreakpointAndTrap : Prop :=
  (∀ (c : BitVec 12) (s : State) (e : Env), Clear s (.bkpt c) e [] →
    exec (.bkpt c) s = .next (s.takeTrap e.iss e.l ⟨0x0C, e.lanes.headD 0, 0, c.toNat⟩ (e.iss.pc + 4) true)) ∧
  (∀ (c : BitVec 12) (s : State) (e : Env), Clear s (.trap c) e [] →
    exec (.trap c) s = .next (s.takeTrap e.iss e.l ⟨0x0D, e.lanes.headD 0, 0, c.toNat⟩ e.at_ false))

/-- R134, R135: EXIT, BKPT and TRAP. Where the spec leaves a choice, the choice is the model's: log 21. -/
def Obligations.ExitAndBreakpoint : Prop := ExitEndsThreads ∧ BreakpointAndTrap

/-- R136 to R139: MELD sets PATH, MELDED and p4 to p7 in the lanes of the issue; MSET replaces the eight entries of one path; MEND sets
MELDED to 0 and nothing else of a thread. -/
def Obligations.MeldingResults : Prop :=
  (∀ (s : State) (e : Env), Clear s .mend e (e.meldConds false) → ThreadsBecome s e .mend fun _ _ t => { t with melded := false }) ∧
  (∀ (a b : BitVec 3) (s : State) (e : Env), Clear s (.meld a b) e (e.meldConds true) →
    ThreadsBecome s e (.meld a b) fun _ t0 t =>
      let path := (if t0.p a.toNat then 1 else 0) + if t0.p b.toNat then 2 else 0
      { t with melded := true, path := BitVec.ofNat 2 path, preds := (t.preds &&& 0x0F#8) ||| BitVec.ofNat 8 (2 ^ (4 + path)) }) ∧
  (∀ (p : BitVec 2) (r : BitVec 6) (s : State) (e : Env), Clear s (.mset p r) e (e.msetConds r) → e.g.rename.length = 32 →
    ∃ t, exec (.mset p r) s = .next t ∧ OnlyGroup s t e ∧ Lanes t e (.mset p r) (fun _ _ t => t) ∧
      ∃ g, t.group? e.iss.cu e.iss.part e.iss.slot = some g ∧ { g with threads := e.g.threads, rename := e.g.rename } = e.g ∧
        g.rename = e.g.rename.take (8 * p.toNat) ++ ((List.range 8).map fun j => (sword e r).extractLsb' (8 * j) 8) ++ e.g.rename.drop (8 * p.toNat + 8))

/-! ### Traps -/

namespace Sys2Proof.Claims

/-- An issue of a word that has no condition beyond those of its word, hints and operands. -/
def Traps (i : Instr) : Prop := TrapsOn i fun _ => []

/-- The conditions of loads, stores, atomics, ZFILL, SLD, SST and SLDC (R161 to R165, R129). -/
def MemoryTraps : Prop :=
  (∀ mk ∈ [(Instr.ldB, 1), (.ldH, 2), (.ldW, 4), (.ldD, 8), (.ldQ, 16)], ∀ d o b l sc r, TrapsOn (mk.1 d o b l sc r) fun e =>
    e.accConds { acc := .read, size := mk.2, scope := sc } (e.eas .lane b (.code o 1))) ∧
  (∀ mk ∈ [(Instr.stB, 1), (.stH, 2), (.stW, 4), (.stD, 8), (.stQ, 16)], ∀ d o b l sc r, TrapsOn (mk.1 d o b l sc r) fun e =>
    e.accConds { acc := .write, size := mk.2, scope := sc } (e.eas .lane b (.code o 1))) ∧
  (∀ mk ∈ [(Instr.atom, 4), (.atomD, 8)], ∀ d c v b l sc r, TrapsOn (mk.1 d c v b l sc r) fun e =>
    e.accConds { acc := .atomic, size := mk.2, scope := sc, atomic := true } (e.eas .lane b (.block v.toNat 1))) ∧
  (∀ mk ∈ [(Instr.atomFadd, 4), (.fxadd, 8)], ∀ d v b l sc r, TrapsOn (mk.1 d v b l sc r) fun e =>
    e.accConds { acc := .atomic, size := mk.2, scope := sc, atomic := true } (e.eas .lane b (.block v.toNat 1))) ∧
  (∀ o b l sc r, TrapsOn (.zfill o b l sc r) fun e => e.accConds { acc := .write, size := 128, scope := sc, noView := true } (e.eas .lane b (.code o 1))) ∧
  (∀ d a i, TrapsOn (.sld d a i) fun e => e.accConds { acc := .read, size := 8, scope := .thread } (uniAt e a i)) ∧
  (∀ d a i, TrapsOn (.sst d a i) fun e => e.accConds { acc := .write, size := 8, scope := .thread } (uniAt e a i)) ∧
  ∀ d i, TrapsOn (.sldc d i) fun e => e.when (e.l.hdr.nconst ≤ i.toNat) 0x18 ++ e.when (!usableVA (e.l.hdr.consta + 8 * i.toNat)) 0x10

/-- The conditions of scratchpad accesses and shared windows (R163, R165, R240). -/
def ScratchTraps : Prop :=
  (∀ d o b l z, TrapsOn (.ldl d o b l z) fun e => e.scrConds (sizeBytes z) (sizeBytes z) false (e.sas .lane b (.code o 1))) ∧
  (∀ d o b l z, TrapsOn (.stl d o b l z) fun e => e.scrConds (sizeBytes z) (sizeBytes z) true (e.sas .lane b (.code o 1))) ∧
  (∀ d o b l, TrapsOn (.ldt d o b l) fun e => e.scrConds 16 16 false (e.sas .lane b (.code o 1))) ∧
  (∀ d o b l c, TrapsOn (.atoml d o b l c) fun e => e.scrConds 4 4 true (e.sas .lane b (.code o 1))) ∧
  (∀ d a g, TrapsOn (.shw d a g) fun e => e.winConds d (e.take (.pred g))) ∧
  ∀ mk ∈ [Instr.shrWindow, .shp], ∀ d a g, TrapsOn (mk d a g) fun e => e.winConds a (e.take (.pred g))

/-- The conditions of calls, returns, jumps, EXIT, melding and the words that wait (R42, R132, R140, R196, R235, R239). -/
def ControlTraps : Prop :=
  (∀ p n o, TrapsOn (.call p n o) fun e => e.callConds (e.chosen p n)) ∧
  (∀ r, TrapsOn (.callr r) fun e => e.when (!goodTarget (sword e r).toNat) 9 ++ e.callConds e.lanes) ∧
  (∀ r, TrapsOn (.jmp r) fun e => e.when (!goodTarget (sword e r).toNat) 9 ++ e.meldConds true) ∧ TrapsOn .ret (fun e => e.retConds) ∧
  TrapsOn .exit (fun e => e.meldConds true) ∧ (∀ a b, TrapsOn (.meld a b) fun e => e.meldConds true) ∧ (∀ p r, TrapsOn (.mset p r) fun e => e.msetConds r) ∧
  TrapsOn .mend (fun e => e.meldConds false) ∧ (∀ mk ∈ [Instr.bar, .bara], ∀ n r, TrapsOn (mk n r) fun e => e.barConds n r true) ∧
  (∀ n r, TrapsOn (.barw n r) fun e => e.barConds n r false) ∧ TrapsOn .gbar (fun e => e.when e.g.role.isNone 0x21 ++ e.when (!bitOf e.l.hdr.flags 0) 0x22) ∧
  ∀ r, TrapsOn (.waitc r) fun e => e.when (4096 ≤ e.sv r.toNat) 0x17

/-- The conditions of matrix words, hold moves, HDRN, PILOT and MCHK (R205, R207, R211, R214, R217, R221, R223). -/
def EngineTraps : Prop :=
  (∀ c a b f l r, TrapsOn (.mma c a b f l r) fun e => e.spanConds (Taking e (.mma c a b f l r)) (e.scrBase b) (mmaTB false (slotAt e.l.slots f)) false) ∧
  (∀ c a b f l r, TrapsOn (.mmas c a b f l r) fun e => e.spanConds (Taking e (.mmas c a b f l r)) (e.scrBase b) (mmaTB true (slotAt e.l.slots f)) false) ∧
  (∀ h a b f l r, TrapsOn (.mmah h a b f l r) fun e =>
    e.tileConds (Taking e (.mmah h a b f l r)) h true ++ e.spanConds (Taking e (.mmah h a b f l r)) (e.scrBase b) (mmaTB false (slotAt e.l.slots f)) false) ∧
  (∀ h a l, TrapsOn (.hldReg h a l) fun e => e.tileConds (Taking e (.hldReg h a l)) h true) ∧ (∀ h a l, TrapsOn (.hstReg h a l) fun e => e.tileConds (Taking e (.hstReg h a l)) h false) ∧
  (∀ h b l, TrapsOn (.hldScratch h b l) fun e => e.tileConds (Taking e (.hldScratch h b l)) h true ++ e.spanConds (Taking e (.hldScratch h b l)) (e.scrBase b) 8192 false) ∧
  (∀ h b l, TrapsOn (.hstScratch h b l) fun e => e.tileConds (Taking e (.hstScratch h b l)) h false ++ e.spanConds (Taking e (.hstScratch h b l)) (e.scrBase b) 8192 true) ∧
  (∀ h l, TrapsOn (.hzero h l) fun e => e.tileConds (Taking e (.hzero h l)) h true) ∧
  (∀ mk ∈ [(Instr.hdrn, 0), (.hdrnMom, 1), (.hdrnSq, 2)], ∀ a b c l, TrapsOn (mk.1 a b c l) fun e =>
    e.hdrnConds (hdrnOf mk.2 (e.sv a.toNat) (e.sv b.toNat) (e.sv c.toNat)) (e.sv a.toNat) (Taking e (mk.1 a b c l))) ∧
  (∀ mk ∈ [(Instr.pilotGt, false), (.pilotTop, true)], ∀ a b c l, TrapsOn (mk.1 a b c l) fun e =>
    e.pilotConds (pilotOf mk.2 (e.sv a.toNat) (e.sv (a.toNat + 1)) e.l.slots) (e.sv a.toNat) (e.sv (a.toNat + 1)) (e.sv b.toNat) (e.sv c.toNat) (Taking e (mk.1 a b c l))) ∧
  ∀ a b c l, TrapsOn (.mchk a b c l) fun e =>
    e.mchkConds (mchkOf (fun k => e.sv (a.toNat + k)) c.toNat e.l.slots) (fun k => e.sv (a.toNat + k)) (e.sv b.toNat) (Taking e (.mchk a b c l))

/-- The conditions of copies, view commands, deposits and collectives (R165, R183, R187 to R195, R228, R232, R243). -/
def CommandTraps : Prop :=
  (∀ d o b l z, TrapsOn (.cpy d o b l z) fun e =>
    let xs := e.cpyLanes d o b
    xs.flatMap fun x => rangeConds (e.sampled e.s (xs.map (·.2.1))).1 x.1 (copyBytes z) (copyBytes z) x.2.1 ++
      e.scrConds (copyBytes z) (copyBytes z) false [(x.1, (x.2.2 : Int))]) ∧
  (∀ a b c l, TrapsOn (.cpym a b c l) fun e =>
    let i : Instr := .cpym a b c l
    rangeConds (e.sampled e.s [(e.sv a.toNat : Int)]).1 (e.low (Taking e i)) 16 (goodLen (e.sv b.toNat)) (e.sv a.toNat) ++
      e.rangeIn (Taking e i) ((sword e b).extractLsb' 0 20).toNat ((sword e b).extractLsb' 32 32).toNat 16 ++
      condIf (badLen (e.sv b.toNat) || (sword e c).extractLsb' 16 48 != 0) 0x17 (e.low (Taking e i))) ∧
  (∀ a b l, TrapsOn (.cpyo a b l) fun e =>
    let i : Instr := .cpyo a b l
    let va := e.sv a.toNat
    let last := va + goodLen (e.sv b.toNat) - 1
    condIf (!canonical va || isView va || !canonical last || isView last) 0x10 (e.low (Taking e i)) ++ condIf (va % 16 != 0) 0x11 (e.low (Taking e i)) ++
      e.rangeIn (Taking e i) ((sword e b).extractLsb' 0 20).toNat ((sword e b).extractLsb' 32 32).toNat 16 ++
      condIf (badLen (e.sv b.toNat)) 0x17 (e.low (Taking e i))) ∧
  (∀ a b c l, TrapsOn (.cpyrw a b c l) fun e =>
    let i : Instr := .cpyrw a b c l
    let va := e.sv a.toNat
    let r := rowCopyOf (e.sv b.toNat) (e.sv c.toNat) (.mem 0)
    let sm := (e.sampled e.s [(va : Int)]).1
    condIf (!canonical va) 0x10 (e.low (Taking e i)) ++ condIf (canonical va && (sm.ref va).isNone && !sm.marked.contains (viewNum va)) 0x14 (e.low (Taking e i)) ++
      condIf (e.team.scr < r.dst + r.kmax * r.rowlen || e.team.scr < r.man + manMS r.rows) 0x12 (e.low (Taking e i)) ++
      condIf (r.badField (e.sv b.toNat)) 0x17 (e.low (Taking e i))) ∧
  (∀ a b l, TrapsOn (.csig a b l) fun e => condIf ((sword e a).extractLsb' 15 49 != 0) 0x17 (e.low (Taking e (.csig a b l)))) ∧
  (∀ a b c l, TrapsOn (.vset a b c l) fun e => e.viewCond a (Taking e (.vset a b c l)) ++ condIf (!canonical (e.sv b.toNat) || isView (e.sv b.toNat)) 0x10 (e.low (Taking e (.vset a b c l))) ++
    condIf (e.sv b.toNat % 128 != 0) 0x11 (e.low (Taking e (.vset a b c l)))) ∧
  (∀ a b c l, TrapsOn (.vbase a b c l) fun e => e.viewCond a (Taking e (.vbase a b c l))) ∧ (∀ a l, TrapsOn (.vinv a l) fun e => e.viewCond a (Taking e (.vinv a l))) ∧
  (∀ a b c l, TrapsOn (.vqry a b c l) fun e => e.viewCond a (Taking e (.vqry a b c l)) ++ condIf ((sword e b).extractLsb' 40 24 != 0) 0x17 (e.low (Taking e (.vqry a b c l)))) ∧
  (∀ d a b g, TrapsOn (.spawn d a b g) fun e => e.depositConds b (e.take (.pred g))) ∧
  (∀ d a b g, TrapsOn (.park d a b g) fun e => e.depositConds b (e.take (.pred g)) ++
    (e.take (.pred g)).filterMap fun k => if (e.thread k).any (·.melded) then some (laneCond 0x0A k) else none) ∧
  ∀ a b c l (x : Ctx) (g : ConvoyGroup), TrapsWhere (.cvoy a b c l)
    (fun s e => s.ctx? e.l.ctx = some x ∧ s.convoyGroup x (e.convoyArgs a).group = .good g) fun e =>
    condIf ((e.convoyArgs a).badAddr (some g)) 0x10 (e.low (Taking e (.cvoy a b c l))) ++ condIf (e.convoyArgs a).misaligned 0x11 (e.low (Taking e (.cvoy a b c l))) ++
      condIf ((e.convoyArgs a).badField (some g) || (sword e b).extractLsb' 16 48 != 0) 0x17 (e.low (Taking e (.cvoy a b c l)))

/-- A hint that R101 forbids where it stands raises the illegal-hint trap. -/
def HintTraps (i : Instr) : Prop :=
  ∀ (s : State) (e : Env), s.env? = some e → e.hintBad i = true → exec i s = .next (s.takeTrap e.iss e.l ⟨2, e.lanes.headD 0, 0, 0⟩ e.at_ false)

/-- Every hint. -/
def HintsTrap : Prop :=
  (∀ p, HintTraps (.imml p)) ∧ (∀ p, HintTraps (.immh p)) ∧ (∀ r m n a, HintTraps (.modArith r m n a)) ∧ (∀ o, HintTraps (.modOffset o)) ∧
  (∀ c i, HintTraps (.modCounter c i)) ∧ (∀ p n f, HintTraps (.modLane p n f)) ∧ ∀ o d, HintTraps (.sched o d)

end Sys2Proof.Claims

/-- R265, R266, R251: taking a trap halts the group with the lanes of the trapping issue and the recorded address, and writes its
error record with the status word of R251; no thread changes. Under STOP the launch is stopped with status 8; under HALT it goes
on. -/
def Sys2Proof.Claims.TrapEntry : Prop :=
  ∀ (s : State) (iss : Issue) (l : Launch) (c : Cond) (addr : Word64) (brk : Bool) (g : Group),
    s.group? iss.cu iss.part iss.slot = some g → g.halt = none → s.launch? l.id = some l → l.stop = none →
    c.cause < 256 → c.lane < 32 → c.code < 4096 → c.detail < 2 ^ 32 →
    let t := s.takeTrap iss l c addr brk
    t.group? iss.cu iss.part iss.slot = some { g with
      halt := some ⟨iss.lanes, addr, brk⟩
      err := some ⟨addr, BitVec.ofNat 32 c.detail ++ 1#1 ++ 0#3 ++ BitVec.ofNat 12 c.code ++ 0#3 ++ BitVec.ofNat 5 c.lane ++ BitVec.ofNat 8 c.cause⟩ } ∧
    (∀ cu part slot, (cu, part, slot) ≠ (iss.cu, iss.part, iss.slot) → t.group? cu part slot = s.group? cu part slot) ∧
    t.launch? l.id = some (if bitOf l.hdr.flags 3 then l else { l with stop := some ⟨8, false, 0x0D⟩, state := .stopped, claims := false, ringTeams := [] }) ∧
    t.flights = s.flights

/-- R458: the condition raised is one that the issue meets, and none with a lower cause, or with its cause in a lower lane. -/
def Sys2Proof.Claims.LowestCauseIsRaised : Prop :=
  ∀ (cs : List Cond), (worst cs = none ↔ cs = []) ∧
    ∀ c, worst cs = some c → c ∈ cs ∧ ∀ d ∈ cs, c.cause < d.cause ∨ (c.cause = d.cause ∧ c.lane ≤ d.lane)

/-- R23, R25, R97, R165, R458: an issue that meets conditions takes the trap of the one that is raised and does nothing else, whatever the
instruction; the trap is recorded at the word or at the first hint of its sequence. -/
def Sys2Proof.Claims.ConditionsTrap : Prop :=
  (∀ mk ∈ [Instr.iadd, .isub, .iadc, .isbb, .imul, .imulhS, .imulhU, .imad, .and, .or, .xor, .shl, .shr, .sar, .rotl, .bfeS, .bfeU, .bfi, .sel, .bysel,
      .fadd, .fsub, .fmul, .ffma, .ffms, .pkfmaH, .pkfmaB, .lxi, .lxm, .lxr, .lxs], ∀ d a b q g, Traps (mk d a b q g)) ∧
  (∀ c p a b q g, Traps (.icmp c p a b q g)) ∧ (∀ c p a b q g, Traps (.fcmp c p a b q g)) ∧
  (∀ mk ∈ [Instr.iaddImm, .imulImm, .andImm, .orImm, .xorImm, .faddImm, .fmulImm, .ffmaImm], ∀ d a i, Traps (mk d a i)) ∧
  (∀ mk ∈ [Instr.shlImm, .shrImm, .sarImm, .rotlImm], ∀ d a n, Traps (mk d a n)) ∧
  (∀ d i, Traps (.movi d i)) ∧ (∀ k a, Traps (.seta k a)) ∧ (∀ k i, Traps (.aadd k i)) ∧
  (∀ mk ∈ [Instr.mov, .not, .iabs, .popc, .clz, .brev, .iminS, .iminU, .imaxS, .imaxU, .fabs, .fneg, .fclass, .fmin, .fmax, .pkaddH, .pkmulH, .pkminH, .pkmaxH,
      .pksubH, .pkaddB, .pkmulB, .pkminB, .pkmaxB, .pksubB, .cvtS32F32, .cvtU32F32, .cvtF32S32, .cvtF32U32, .cvtF16F32, .cvtF32F16, .cvtBf16F32, .cvtF32Bf16,
      .cvtF32F64, .cvtF64F32, .unpk, .lmask, .lpeer, .compact, .lfirst, .lfoldIadd, .lfoldIminS, .lfoldImaxS, .lfoldAnd, .lfoldOr, .lfoldXor, .lfoldFadd,
      .lfoldFmax], ∀ d a q g, Traps (mk d a q g)) ∧
  (∀ mk ∈ [Instr.fdiv, .idivS, .idivU, .iremS, .iremU, .fsqrt, .frcp, .frsq, .fexp2, .flog2, .fsin, .fcos, .ftanh], ∀ d a l q g, Traps (mk d a l q g)) ∧
  (∀ mk ∈ [Instr.cvtn, .cvtw, .dl8], ∀ d a f c q g, Traps (mk d a f c q g)) ∧ (∀ d r n f c q g, Traps (.ql8 d r n f c q g)) ∧
  (∀ d a f i q g, Traps (.xl8 d a f i q g)) ∧
  (∀ mk ∈ [Instr.pand, .por, .pxor], ∀ p a b g, Traps (mk p a b g)) ∧ (∀ mk ∈ [Instr.pnot, .pmov, .lany, .lall, .lagree, .lodd], ∀ p a g, Traps (mk p a g)) ∧
  (∀ d q g, Traps (.rdfx d q g)) ∧ (∀ mk ∈ [Instr.wrfx, .clrfx], ∀ a g, Traps (mk a g)) ∧
  (∀ mk ∈ [Instr.sadd, .ssub, .smul, .sand, .sor, .sxor, .sshl, .sshr, .ssar, .ssel, .sshlImm, .sshrImm, .ssarImm], ∀ d a b, Traps (mk d a b)) ∧
  (∀ d a, Traps (.smov d a)) ∧ (∀ d a b c, Traps (.scmp d a b c)) ∧ (∀ mk ∈ [Instr.saddImm, .sandImm, .sorImm, .sxorImm], ∀ d a i, Traps (mk d a i)) ∧
  (∀ d i, Traps (.smovi d i)) ∧
  (∀ mk ∈ [Instr.rdclk, .errq], ∀ r, Traps (mk r)) ∧ (∀ mk ∈ [Instr.rdsr, .wrsr], ∀ r k, Traps (mk r k)) ∧ (∀ o c, Traps (.fence o c)) ∧
  (∀ c, Traps (.cinv c)) ∧ Traps .nop ∧ Traps .yield ∧ (∀ mk ∈ [Instr.bkpt, .trap], ∀ c, Traps (mk c)) ∧ (∀ p n o, Traps (.bra p n o)) ∧
  (∀ o b l, Traps (.pref o b l)) ∧ (∀ a c l, Traps (.cvqry a c l)) ∧ (∀ a l, Traps (.bflush a l)) ∧
  MemoryTraps ∧ ScratchTraps ∧ ControlTraps ∧ EngineTraps ∧ CommandTraps ∧ HintsTrap

/-- R25, R97, R165, R458: the condition that an issue raises, and that the trap of it is all that the issue does. Where the spec leaves a
choice, the choice is the model's: log 37, 40, 112, 114. -/
def Obligations.Conditions : Prop := LowestCauseIsRaised ∧ ConditionsTrap

/-- R97, R101, R130, R397, R458: a word that is no instruction raises the illegal-instruction trap, or, where it has the major of a
hint, the illegal-hint trap; an address that is not canonical or is a view address raises the instruction-fetch fault, or, after
hints, the illegal-hint trap; a fetch that fails translation stalls, after hints too. -/
def Sys2Proof.Claims.UndefinedWordsTrap : Prop :=
  (∀ (w : Word) (s : State) (e : Env), s.env? = some e →
    exec (.undefinedEncoding w) s = .next (s.takeTrap e.iss e.l ⟨if 0x7C#7 ≤ w.extractLsb' 25 7 then 2 else 1, e.lanes.headD 0, 0, 0⟩ e.at_ false)) ∧
  (∀ (s : State) (e : Env), s.env? = some e → (canonical e.iss.pc.toNat = false ∨ isView e.iss.pc.toNat = true) →
    exec .instructionFetchFault s = .next (s.takeTrap e.iss e.l ⟨if e.hs = [] then 0x0B else 2, e.lanes.headD 0, 0, 0⟩ e.at_ false)) ∧
  ∀ (s : State) (e : Env) (k : Nat), s.env? = some e → canonical e.iss.pc.toNat = true → isView e.iss.pc.toNat = false →
    s.translate e.iss.cu e.l.ctx e.iss.pc.toNat .fetch = .fault k →
    exec .instructionFetchFault s = .next (s.stallIssue e.iss e.l k e.iss.pc.toNat .fetch false 0)

/-- R97, R101, R130, R251, R265, R266, R397, R458: taking a trap, and what words that are no instructions or cannot be fetched do. Where the
spec leaves a choice, the choice is the model's: log 40, 41, 64, 113. -/
def Obligations.TrapEntries : Prop := TrapEntry ∧ UndefinedWordsTrap

/-- R98, R101: a hint that is legal where it stands joins the pending hints of the lanes of the issue, which go on at the next
word; SCHED's bit [4] ranks the group last. -/
def Sys2Proof.Claims.HintsPend : Prop :=
  (∀ p : BitVec 25, Hinted (.imml p) false) ∧ (∀ p : BitVec 25, Hinted (.immh p) false) ∧
  (∀ (r m : BitVec 2) (n a : BitVec 3), Hinted (.modArith r m n a) false) ∧ (∀ o : BitVec 23, Hinted (.modOffset o) false) ∧
  (∀ (c : Scope) (i : BitVec 12), Hinted (.modCounter c i) false) ∧
  (∀ (p : BitVec 3) (n : Bool) (f : BitVec 6), Hinted (.modLane p n f) false) ∧ (∀ (o : Bool) (d : BitVec 4), Hinted (.sched o d) o)

/-- R98, R101, R130, R132, R134: BRA, JMP, NOP and YIELD, and the hints that pend. Where the spec leaves a choice, the choice is the
model's: log 30, 39, 42. -/
def Obligations.BranchesAndHints : Prop := BranchesAndJumps ∧ HintsPend

/-! ### Synchronisation -/

/-- R235, R236: BAR and BARA arrive with the lanes of the issue, the first arrival fixing the mask; the phase completes when as many groups
have arrived as it expects, every thread that waits for it then continues, and BAR waits where it does not complete; lanes that have
arrived already wait at the word. BARW waits for the current phase without arriving. Every other thread is as it was. -/
def Sys2Proof.Claims.TeamBarriers : Prop :=
  (∀ (n r : BitVec 6) (s : State) (e : Env), Arrives s e (.bar n r) n r true) ∧
  (∀ (n r : BitVec 6) (s : State) (e : Env), Arrives s e (.bara n r) n r false) ∧
  (∀ (n r : BitVec 6) (s : State) (e : Env), ArrivesAgain s e (.bar n r) n r ∧ ArrivesAgain s e (.bara n r) n r) ∧
  (∀ (n r : BitVec 6) (s : State) (e : Env), Clear s (.barw n r) e (e.barConds n r false) → n.toNat < e.team.bars.length →
    let b := e.bar n
    let go := reached s e.team.id b
    ∃ t m, exec (.barw n r) s = .next t ∧ { t with groups := s.groups, teams := s.teams } = s ∧ (∀ k, k ≠ e.team.id → t.team? k = s.team? k) ∧
      t.team? e.team.id = some m ∧ m = { e.team with bars := e.team.bars.set n.toNat (settled s e.team.id b) } ∧
      (∀ k ∈ e.lanes, ∀ t0, e.thread k = some t0 →
        laneIn t e k = some { passed e (.barw n r) true t0 with wait := if go then .ready else .barw n.toNat b.phase (e.roles r) e.at_ }) ∧
      OthersBecome s t e (wakenBy e n.toNat b.phase go))

/-- R239: GBAR arrives at the grid barrier of a RESIDENT launch; when every group of the launch has arrived its phase completes
and every waiting thread continues, as an acquire at MODULE scope, else the threads wait; every other thread is as it was. -/
def Sys2Proof.Claims.GridBarrier : Prop :=
  ∀ (s : State) (e : Env), Clear s .gbar e (e.when e.g.role.isNone 0x21 ++ e.when (!bitOf e.l.hdr.flags 0) 0x22) →
    let arrived := (e.team.id, e.g.linear, e.l.gridLanes e.g ||| maskOf 32 e.lanes) ::
      e.l.gbarArrived.filter fun a => !(a.1 == e.team.id && a.2.1 == e.g.linear)
    let all := (s.gridGroups e.l.id).all fun g => g.arrivedIn (({ e.l with gbarArrived := arrived } : Launch).gridLanes g)
    ∃ t l, exec .gbar s = .next t ∧ { t with groups := s.groups, launches := s.launches, cus := s.cus } = s ∧ CusKept s t ∧
      (all = true → ∀ g ∈ s.gridGroups e.l.id, ∀ u, t.cu? g.cu = some u → u.l1 = []) ∧ (∀ k, k ≠ e.l.id → t.launch? k = s.launch? k) ∧
      OthersBecome s t e (fun g x => if all = true ∧ g.launch = e.l.id ∧ x.wait = .gbar e.l.gbarPhase then { x with wait := .ready } else x) ∧
      t.launch? e.l.id = some l ∧ l = { e.l with gbarPhase := e.l.gbarPhase + (if all then 1 else 0), gbarArrived := if all then [] else arrived } ∧
      ∀ k ∈ e.lanes, ∀ t0, e.thread k = some t0 →
        laneIn t e k = some { passed e .gbar true t0 with wait := if all then .ready else .gbar e.l.gbarPhase }

/-- R235, R236, R239: BAR, BARA, BARW and GBAR. Where the spec leaves a choice, the choice is the model's: log 21. -/
def Obligations.Barriers : Prop := TeamBarriers ∧ GridBarrier

/-- R181, R182, R332: FENCE with acquire and CINV discard the L1 of the CU at DIE scope and wider, and leave it otherwise; memory
and all registers are as they were. -/
def Sys2Proof.Claims.FenceAndInvalidate : Prop :=
  (∀ (o : FenceOrd) (c : Scope) (s : State) (e : Env), Clear s (.fence o c) e [] →
    ∃ t, exec (.fence o c) s = .next t ∧ Advanced s t e (.fence o c) ∧ OnlyReads s t ∧ NoNewFlight s t ∧
      (o = .release ∨ servedByL1 c = true → t.cus = s.cus) ∧
      (o ≠ .release → servedByL1 c = false → ∀ u, t.cu? e.iss.cu = some u → u.l1 = [])) ∧
  (∀ (c : Scope) (s : State) (e : Env), Clear s (.cinv c) e [] →
    ∃ t, exec (.cinv c) s = .next t ∧ Advanced s t e (.cinv c) ∧ OnlyReads s t ∧ NoNewFlight s t ∧
      (servedByL1 c = true → t.cus = s.cus) ∧ (servedByL1 c = false → ∀ u, t.cu? e.iss.cu = some u → u.l1 = []))

/-- R196, R300: WAITC goes on, as an acquire at MODULE scope, where the counter is at or below zero as a signed value, and waits
otherwise. -/
def Sys2Proof.Claims.WaitForCounter : Prop :=
  ∀ (r : BitVec 6) (s : State) (e : Env) (c : Ctx), Clear s (.waitc r) e (e.when (4096 ≤ e.sv r.toNat) 0x17) → s.ctx? e.l.ctx = some c →
    ((c.counter (e.sv r.toNat)).toInt ≤ 0 → ∃ t, exec (.waitc r) s = .next t ∧ Advanced s t e (.waitc r) ∧ OnlyReads s t ∧ NoNewFlight s t ∧
      ∀ u, t.cu? e.iss.cu = some u → u.l1 = []) ∧
    (0 < (c.counter (e.sv r.toNat)).toInt → ThreadsBecome s e (.waitc r) fun _ _ t => { t with wait := .counter (e.sv r.toNat) })

/-- R39, R241: where no thread is parked on the registers it names, SHW fills an empty register of each lane and parks on a full one, SHR
takes the value of a full register and empties it, SHP takes it and leaves it, and both park on an empty one. Where a thread of another
group is parked on the register of the one lane, its operation follows where the bit allows it: after SHW has filled the register a
parked SHR takes the value and empties it and a parked SHP takes it and leaves it; after SHR has emptied the register a parked SHW fills
it again; a thread whose operation the bit does not allow stays parked. Where the spec leaves a choice, the choice is the model's: log
31. -/
def Obligations.SharedWindows : Prop :=
  (∀ (d a : BitVec 7) (g : BitVec 3) (s : State) (e : Env), Clear s (.shw d a g) e (e.winConds d (e.take (.pred g))) → Unwaited s e d (e.take (.pred g)) →
    ∃ t m, exec (.shw d a g) s = .next t ∧ OnlyWindows s t e m ∧
      Lanes t e (.shw d a g) (fun k t0 t => (e.winKey d k).elim t fun w =>
        { t with wait := if (e.team.cell? w).isSome then .window w (.put (word e a t0)) else .ready }) ∧
      ∀ w, m.cell? w = match e.team.cell? w with
        | some v => some v
        | none => ((e.take (.pred g)).find? fun k => e.winKey d k == some w).bind fun k => (e.thread k).map (word e a)) ∧
  (∀ (d a : BitVec 7) (g : BitVec 3) (s : State) (e : Env), Clear s (.shrWindow d a g) e (e.winConds a (e.take (.pred g))) → Unwaited s e a (e.take (.pred g)) →
    ∃ t m, exec (.shrWindow d a g) s = .next t ∧ OnlyWindows s t e m ∧
      Lanes t e (.shrWindow d a g) (TakesCell e d a true) ∧
      ∀ w, m.cell? w = if (e.take (.pred g)).any fun k => e.winKey a k == some w then none else e.team.cell? w) ∧
  (∀ (d a : BitVec 7) (g : BitVec 3) (s : State) (e : Env), Clear s (.shp d a g) e (e.winConds a (e.take (.pred g))) → Unwaited s e a (e.take (.pred g)) →
    ∃ t m, exec (.shp d a g) s = .next t ∧ OnlyWindows s t e m ∧ Lanes t e (.shp d a g) (TakesCell e d a false) ∧
      ∀ w, m.cell? w = e.team.cell? w) ∧
  (∀ (d a : BitVec 7) (g : BitVec 3) (s : State) (e : Env) (k : Nat) (w : WinKey) (t0 x : Thread) (h : Group) (o : WindowOp),
    Clear s (.shw d a g) e (e.winConds d (e.take (.pred g))) → e.take (.pred g) = [k] → e.winKey d k = some w → e.thread k = some t0 →
    OneWaiter s e w h x o →
    (∀ r clears, o = .get r clears → e.team.cell? w = none → BesideWaiter s e (.shw d a g) w h (fun t => { t with wait := .ready })
      { x.putRegs [r] [word e a t0] with wait := .ready } (if clears then none else some (word e a t0))) ∧
    ∀ u v, o = .put u → e.team.cell? w = some v →
      BesideWaiter s e (.shw d a g) w h (fun t => { t with wait := .window w (.put (word e a t0)) }) x (some v)) ∧
  ∀ (clears : Bool) (d a : BitVec 7) (g : BitVec 3) (s : State) (e : Env) (k : Nat) (w : WinKey) (t0 x : Thread) (h : Group) (o : WindowOp),
    let i : Instr := if clears then .shrWindow d a g else .shp d a g
    Clear s i e (e.winConds a (e.take (.pred g))) → e.take (.pred g) = [k] → e.winKey a k = some w → e.thread k = some t0 →
    OneWaiter s e w h x o →
    (∀ u v, o = .put u → e.team.cell? w = some v → BesideWaiter s e i w h (fun t => { t.putRegs [windowDest e d t0] [v] with wait := .ready })
      (if clears then { x with wait := .ready } else x) (some (if clears then u else v))) ∧
    ∀ r b, o = .get r b → e.team.cell? w = none →
      BesideWaiter s e i w h (fun t => { t with wait := .window w (.get (windowDest e d t0) clears) }) x none

/-! ### Special registers -/

/-- R248 to R250: RDSR writes s(S) with the special register. The value of PERFCNT under event 3 and that of RDCLK are free values of
the model (logs 8 and 9). -/
def Sys2Proof.Claims.SpecialRegisterReads : Prop :=
  (∀ (r : BitVec 6) (k : BitVec 12) (s : State) (e : Env), Clear s (.rdsr r k) e [] →
    ∃ t, exec (.rdsr r k) s = .next t ∧ SregIn s t e (.rdsr r k) r (if k = 0x22 then e.perf else e.special k.toNat) ∧
      { t with groups := s.groups, free := s.free } = s ∧ t.free = s.free + if k = 0x22 ∧ e.g.perfsel = 3 then 1 else 0) ∧
  (∀ (r : BitVec 6) (s : State) (e : Env), Clear s (.rdclk r) e [] → SregBecomes s e (.rdclk r) r (Config.freeClock s.clock).toNat) ∧
  (∀ (s : State) (e : Env), s.env? = some e → (e.g.perfsel ≠ 3 → e.perf = e.g.perfcnt.toNat) ∧
    (∀ c, s.cu? e.iss.cu = some c → c.berths.length = 16 → e.special 0x30 < 2 ^ 16 ∧
      ∀ k < 16, bitOf (e.special 0x30) k = (c.berths[k]?.join).any fun b => b.launch == e.l.id) ∧
    e.special 0 = e.iss.cu + 256 * e.iss.part ∧
    (∀ q, e.g.role = some q → e.special 1 = e.g.slot + 2 ^ 8 * q + 2 ^ 16 * e.g.index) ∧ (e.g.role = none → e.special 1 = e.g.slot + 2 ^ 24) ∧
    e.special 2 = e.team.linear ∧
    e.special 3 = e.team.linear % e.l.hdr.gx + 2 ^ 21 * (e.team.linear / e.l.hdr.gx % e.l.hdr.gy) + 2 ^ 42 * (e.team.linear / e.l.hdr.gx / e.l.hdr.gy) ∧
    e.special 4 = e.l.hdr.gx + 2 ^ 21 * e.l.hdr.gy + 2 ^ 42 * e.l.hdr.gz ∧ e.special 5 = e.l.ctx + 2 ^ 8 * s.bar0.nodeid ∧
    (∀ k < 32, bitOf (e.special 6) k = (e.g.thread? k).isSome ∧ bitOf (e.special 7) k = e.lanes.contains k) ∧
    (∀ k < 4, ∀ b < 64, bitOf (e.special (0x10 + k)) b = s.cuReady.contains (64 * k + b)) ∧
    e.special 0x14 = s.stackReady.toNat + 2 ^ 16 * s.llcReady.toNat ∧ e.special 0x15 = s.linkReady.toNat ∧
    e.special 0x20 = e.g.wdgroup.toNat ∧ e.special 0x21 = e.g.perfsel.toNat)

/-- R248, R249, R251: WRSR writes WDGROUP, PERFSEL or PERFCNT and nothing else; ERRQ reads the group's error record into s(S) and
s(S + 1), zeros where there is none, and clears it. -/
def Sys2Proof.Claims.SpecialRegisterWrites : Prop :=
  (∀ (r : BitVec 6) (k : BitVec 12) (s : State) (e : Env), Clear s (.wrsr r k) e [] →
    ∃ t g, exec (.wrsr r k) s = .next t ∧ GroupIn s t e (.wrsr r k) g ∧ { t with groups := s.groups, free := s.free } = s ∧
      { g with threads := e.g.threads, wdgroup := e.g.wdgroup, perfsel := e.g.perfsel, perfcnt := e.g.perfcnt } = e.g ∧
      g.wdgroup = (if k = 0x20 then (sword e r).setWidth 32 else e.g.wdgroup) ∧
      g.perfsel = (if k = 0x21 then (sword e r).setWidth 8 else e.g.perfsel) ∧
      (k = 0x22 → g.perfcnt = sword e r) ∧ (k = 0x21 → e.g.perfsel ≠ 3 → g.perfcnt = e.g.perfcnt) ∧ (k ≠ 0x21 → k ≠ 0x22 → g.perfcnt = e.g.perfcnt)) ∧
  (∀ (s : State) (iss : Issue) (g : Group), s.cur = some iss → s.group? iss.cu iss.part iss.slot = some g → iss.took g = true →
    ∃ g', (s.closeIssue s).group? iss.cu iss.part iss.slot = some g' ∧ { g' with threads := g.threads, perfcnt := g.perfcnt, wdExpired := g.wdExpired } = g ∧
      (g.perfsel = 0 → g'.perfcnt = g.perfcnt + 1) ∧ (g.perfsel = 1 → g'.perfcnt = g.perfcnt + if iss.secondary then 1 else 0) ∧
      (g.perfsel = 2 → g'.perfcnt = g.perfcnt + if (lanesOf iss.lanes).any (fun n => (g.thread? n).any (·.melded)) then 1 else 0) ∧
      (3 ≤ g.perfsel.toNat → g'.perfcnt = g.perfcnt)) ∧
  (∀ (r : BitVec 6) (s : State) (e : Env), Clear s (.errq r) e [] →
    ∃ t g, exec (.errq r) s = .next t ∧ GroupIn s t e (.errq r) g ∧ { t with groups := s.groups } = s ∧
      { g with threads := e.g.threads, sregs := e.g.sregs, err := e.g.err } = e.g ∧ g.err = none ∧
      g.sregs = (e.g.sregs.set r.toNat (e.g.err.elim 0 (·.addr))).set (r.toNat + 1) (e.g.err.elim 0 (·.status)))

/-- R248 to R251: RDSR, RDCLK, WRSR and ERRQ. The values of PERFCNT under event 3 and of RDCLK are free values of the model (logs 8, 9).
Where the spec leaves a choice, the choice is the model's: log 8, 9, 81. -/
def Obligations.SpecialRegisters : Prop := SpecialRegisterReads ∧ SpecialRegisterWrites

/-! ### What returns after its issue -/

/-- R33, R102, R128, R167, R176, R177, R214, R328: a returning load or atomic writes the registers of its lanes and ORs its flags into FX,
a late one reading, or performing what is left of it, as it returns; SLD's data goes to its s-register and HLD's to its tile, and the
operation ends; every other group, team and tile and every other operation is as it was, and nothing else changes. A late atomic alone leaves the operation's new value where it lies and takes the old one. -/
def Sys2Proof.Claims.DataReturns : Prop :=
  (∀ (k : Nat) (s : State) (f : Flight) (ws : List LaneWrite), s.flight? k = some f → f.fault = none → f.refetch = none →
    (f.op = .load ws → ∃ t, exec (.loadDataReturn k) s = .next t ∧ Delivers s t f ws) ∧
    (∀ sc ls, f.op = .lateLoad sc ls → (s.readLate f.cu sc ls).2.1 = none → ∃ t s1, exec (.loadDataReturn k) s = .next t ∧
      { s1 with cus := s.cus } = s ∧ CusKept s s1 ∧ Delivers s1 t f (s.readLate f.cu sc ls).1) ∧
    (f.op = .atomic ws → ∃ t, exec (.atomicReturn k) s = .next t ∧ Delivers s t f ws) ∧
    (∀ ops, f.op = .lateAtomic ops → (s.rmwRest f.cu ops).2.1 = none → ∃ t, exec (.atomicReturn k) s = .next t ∧
      Delivers (s.rmwRest f.cu ops).2.2 t f ((s.rmwRest f.cu ops).1.map fun o => ⟨o.lane, o.regs, natRegs o.regs.length (o.got.getD 0), o.fx⟩)) ∧
    (∀ r ps, f.op = .lateSload r ps → (s.readParts f.cu .thread ps).2.1 = none → ∃ t s1, exec (.loadDataReturn k) s = .next t ∧
      { s1 with cus := s.cus } = s ∧ CusKept s s1 ∧ { t with groups := s1.groups, flights := s1.flights } = s1 ∧
      t.flights = s.flights.filter (·.id != k) ∧
      t.groups = updFirst (·.order == f.order) (fun g =>
        { g with sregs := if r = 0 then g.sregs else g.sregs.set r (BitVec.ofNat 64 (leNat (s.readParts f.cu .thread ps).1)) }) s.groups) ∧
    (∀ h base m0 p, f.op = .lateHold h base → s.team? f.team = some m0 → m0.hold.find? (·.part == f.part) = some p →
      ∃ t m, exec (.loadDataReturn k) s = .next t ∧ { t with teams := s.teams, flights := s.flights } = s ∧
        t.flights = s.flights.filter (·.id != k) ∧ (∀ j, j ≠ f.team → t.team? j = s.team? j) ∧ t.team? f.team = some m ∧ { m with hold := m0.hold } = m0 ∧
        m.hold.map (·.part) = m0.hold.map (·.part) ∧ (∀ q, q ≠ f.part → m.holdPart q = m0.holdPart q) ∧
        (∀ j, j ∈ (m.holdPart f.part).bad ↔ if 2048 * h ≤ j ∧ j < 2048 * h + 2048
          then ∃ b < 4, (base + 4 * (j - 2048 * h) + b) / 32 * 32 ∈ m0.bad else j ∈ p.bad) ∧
        (MemOk s → ∀ off, (m.holdPart f.part).mem.get off =
          if 8192 * h ≤ off ∧ off < 8192 * h + 8192 then m0.mem.get (base + (off - 8192 * h)) else p.mem.get off))) ∧
  (∀ (s : State) (cu va n : Nat) (p : PAddr) (o : LateRmw), o.got = none → o.part = ⟨some (.mem p), va, n, 0, none⟩ →
    (s.loadPhys p n).2 = false → let old := leNat ((s.memOf p.space).read p.addr n)
    (s.rmwRest cu [o]).1 = [{ o with got := some old }] ∧ (s.rmwRest cu [o]).2.1 = none ∧
    (Writable s p n → ((s.rmwRest cu [o]).2.2.memOf p.space).read p.addr n = leBytes n (Rmw.new o.rmw old))) ∧
  (∀ (k r : Nat) (v : Word64) (s : State) (f : Flight), s.flight? k = some f → f.fault = none → f.refetch = none → f.op = .sload r v →
    ∃ t, exec (.loadDataReturn k) s = .next t ∧ { t with groups := s.groups, flights := s.flights } = s ∧
      t.flights = s.flights.filter (·.id != k) ∧
      t.groups = updFirst (·.order == f.order) (fun g => { g with sregs := if r = 0 then g.sregs else g.sregs.set r v }) s.groups)

/-- R171, R172, R42: when the lines of a parked lane are present its access is performed: it goes on with its loaded registers, or
at its return entry; while one of them is absent, or once its launch has stopped, it stays as it is. What the setting of presence bits of a team lets go on are its parked
lanes, each by itself. -/
def Sys2Proof.Claims.ParkedLanesResume : Prop :=
  (∀ (team : Nat) (s : State), s.unparkTeam team = ((s.groups.filter (·.team == team)).flatMap fun g => (List.range 32).map fun k => (g, k)).foldl
    (fun t x => t.unparkLane x.1.cu x.1.part x.1.slot x.2) s) ∧
  (∀ (cu part slot lane : Nat) (s : State), exec (.parkedLaneResume cu part slot lane) s = .next (s.unparkLane cu part slot lane) ∧
    ∀ g t0, s.group? cu part slot = some g → g.thread? lane = some t0 →
      (∀ op, t0.wait = .line op → (∃ r ∈ op.ranges, s.present g.team r.1 r.2 = false) ∨ ∃ l, s.launch? g.launch = some l ∧ l.stop ≠ none) → s.unparkLane cu part slot lane = s) ∧
  ∀ (cu part slot lane : Nat) (s : State) (g : Group) (l : Launch) (t0 : Thread) (op : ParkedOp),
    s.group? cu part slot = some g → s.launch? g.launch = some l → l.stop = none → g.thread? lane = some t0 → lane < 32 → t0.wait = .line op →
    (∀ r ∈ op.ranges, s.present g.team r.1 r.2 = true ∧ (s.scrRead g.team r.1 r.2).2 = false) →
    op.badReturn (fun off n => (s.scrRead g.team off n).1) = none →
    ∃ t g', exec (.parkedLaneResume cu part slot lane) s = .next t ∧ { t with groups := s.groups } = s ∧
      t.group? cu part slot = some g' ∧ { g' with threads := g.threads } = g ∧ (∀ k, k ≠ lane → g'.thread? k = g.thread? k) ∧
      g'.thread? lane = some (match op with
        | .ldl off len regs => { t0.putRegs regs (natRegs regs.length (leNat (s.scrRead g.team off len).1)) with wait := .ready }
        | .ldt rows j regs => { t0.putRegs regs (ldtWords (fun a => (s.scrRead g.team a 16).1) rows j) with wait := .ready }
        | .ret off _ => { t0 with pc := BitVec.ofNat 64 (leNat (s.scrRead g.team off 8).1), fell := false, depth := t0.depth - 1, wait := .ready })

/-- R33, R42, R102, R128, R167, R171, R172, R176: data that returns, and parked lanes that resume. Where the spec leaves a choice, the
choice is the model's: log 7, 111, 131. -/
def Obligations.DataReturn : Prop := DataReturns ∧ ParkedLanesResume

/-! ### Engines -/

namespace Sys2Proof.Claims

/-- Groups, teams, CUs and cached views apart, only operations in flight differ. -/
def OnlyEngine (s t : State) : Prop :=
  { t with groups := s.groups, cus := s.cus, teams := s.teams, viewCache := s.viewCache, flights := s.flights, nextFlight := s.nextFlight } = s

/-- A word puts an engine operation in flight: the entries `ks` join the CU's range-lock table, and the lines of the ranges `ds` of
the team turn absent (R190, R292). `s0` is the machine with the word's samples of views taken (R318). -/
def Starts (s s0 t : State) (e : Env) (i : Instr) (op : FlightOp) (ks : List Lock) (ds : List (Nat × Nat)) : Prop :=
  t.viewCache = s0.viewCache ∧
  Advanced s t e i ∧ OnlyEngine s t ∧ t.flights = s.flights ++ [flightOf e s op] ∧ t.nextFlight = s.nextFlight + 1 ∧
  (∀ k, t.cu? k = (s0.cu? k).map fun c => if k = e.iss.cu then { c with locks := c.locks ++ ks } else c) ∧
  ∀ k, t.team? k = (s.team? k).map fun m =>
    if k = e.team.id then { m with absent := (ds.flatMap fun r => linesOf r.1 r.2).foldl insertNat m.absent } else m

/-- MMA, MMAH and MMAS: nothing where no lane takes part; a wait for absent lines of B; else the operation starts with its operands
as read and an OPND entry on B. -/
def MmaIssues (i : Instr) (sparse : Bool) (tile : Option (BitVec 5)) (c a : BitVec 7) (b f : BitVec 3) : Prop :=
  ∀ (s : State) (e : Env),
    let sl := slotAt e.l.slots f
    let base := (sword e (b.setWidth 6)).toNat % 2 ^ 32
    let n := mmaTB sparse sl
    let r := s.scrRead e.team.id base n
    Clear s i e ((tile.elim [] fun t => e.tileConds (Taking e i) t true) ++ e.spanConds (Taking e i) base n false) →
    (Taking e i = [] → ThreadsBecome s e i fun _ _ t => t) ∧
    (Taking e i ≠ [] → s.present e.team.id base n = false →
      ∃ t, exec i s = .next t ∧ OnlyThreads s t e ∧ ∀ k ∈ e.lanes, ∀ t0, e.thread k = some t0 → laneIn t e k = some { t0 with wait := .presence base n }) ∧
    (Taking e i ≠ [] → s.present e.team.id base n = true → r.2 = false →
      (∀ h, tile = some h → ∀ k ∈ Taking e i, (s.holdPart e.team.id e.iss.part).badCols h.toNat k = []) →
      (sparse = true → firstMalformed r.1 = none ∧ s.upset ≠ some .line) →
      ∃ t, exec i s = .next t ∧ Starts s s t e i (.mma (e.mmaOf sparse tile c a sl r.1)) [lockOf .opnd s.nextFlight e.team.id base n] [])

/-- A group with what its threads wait for left out. -/
def forgetWaits (g : Group) : Group := { g with threads := g.threads.map (Option.map fun x => { x with wait := .ready }) }

/-- The entries of a range-lock table once the owner of a DEST entry has written its range: the earlier DEST entries of other owners that
meet it skip it from now on (R190). -/
def told (k team lo len : Nat) (ks : List Lock) : List Lock :=
  let pos := ks.findIdx fun j => j.owner == k && j.team == team && j.kind == .dest
  ks.mapIdx fun i j => if i < pos ∧ j.kind = .dest ∧ j.owner ≠ k ∧ j.team = team ∧ overlap j.lo j.len lo len = true
    then { j with skip := (lo, len) :: j.skip } else j

/-- The lines of a range that an operation sets as it ends: those that no other operation still writes (R190). -/
def setsLine (s : State) (f : Flight) (lo len n : Nat) : Bool :=
  (linesOf lo len).contains n && !s.flights.any fun g => g.id != f.id && g.pendingLines.contains (f.team, n)

/-- The groups with the threads of a team that wait for a range of present lines ready again (R204). -/
def wokenAt (u : State) (team : Nat) (gs : List Group) : List Group :=
  gs.map fun g => if g.team = team then { g with threads := g.threads.map (Option.map fun x => match x.wait with
    | .presence a n => if u.present team a n then { x with wait := .ready } else x
    | _ => x) } else g

/-- An operation in flight has ended that wrote the range `lo`, `len` of its team: it and its lock entries are gone; other entries are as they
were but that earlier ones skip the range; the groups are `gs`, but that threads whose awaited lines are all present are ready; the lines of the
range that no other operation still writes are present and every other line is as it was; marks of the range are gone where whole sectors were
written, and every other mark and every byte outside the range are as they were; the L1 of the team's CU is discarded (R334). Then the lanes
that were parked at such lines alone go on, each as PARKED_LANE_RESUME takes it (R171). -/
def EngineEnds (s t : State) (f : Flight) (lo len : Nat) (gs : List Group) (m0 m : Team) : Prop :=
  ∃ u : State, t = u.unparkTeam f.team ∧ { u with groups := s.groups, teams := s.teams, cus := s.cus, flights := s.flights } = s ∧
  u.flights = s.flights.filter (·.id != f.id) ∧ u.groups = wokenAt u f.team gs ∧
  (u.cus.map fun c => { c with l1 := [], locks := [] }) = (s.cus.map fun c => { c with l1 := [], locks := [] }) ∧
  (∀ k, u.cu? k = (s.cu? k).map fun c => { c with
    l1 := if k = m0.cu then [] else c.l1
    locks := (if k = m0.cu then told f.id f.team lo len c.locks else c.locks).filter (·.owner != f.id) }) ∧
  (∀ k, k ≠ f.team → u.team? k = s.team? k) ∧ u.team? f.team = some m ∧
  { m with mem := m0.mem, bad := m0.bad, absent := m0.absent, hold := m0.hold } = m0 ∧
  (∀ off, ¬(lo ≤ off ∧ off < lo + len) → m.mem.get off = m0.mem.get off) ∧
  (∀ n, n ∈ m.bad ↔ n ∈ m0.bad ∧ ¬(n % 32 = 0 ∧ lo ≤ n ∧ n + 32 ≤ lo + len)) ∧
  m.absent = m0.absent.filter fun n => !setsLine s f lo len n

/-- Nothing that another command wrote later lies in the entries of an operation (R190). -/
def NoSkips (s : State) (f : Flight) : Prop := ∀ c ∈ s.cus, ∀ k ∈ c.locks, k.owner = f.id → k.skip = []

/-- The groups with flags ORed into FX in the lanes of an operation's issue. -/
def withFlags (s : State) (f : Flight) (fx : Nat) : List Group :=
  updFirst (·.order == f.order) (fun g => g.mapLanes f.lanes fun _ x => x.orFx false fx) s.groups

/-- Of teams and groups, only hold tiles of the issuing team in the issuing partition and threads past the word differ; the team is `m`
now. -/
def OnlyHold (s t : State) (e : Env) (i : Instr) (m : Team) : Prop :=
  { t with groups := s.groups, teams := s.teams } = s ∧ Advanced s t e i ∧ (∀ k, k ≠ e.team.id → t.team? k = s.team? k) ∧
  t.team? e.team.id = some m ∧ { m with hold := e.team.hold } = e.team ∧ ∀ p, p ≠ e.iss.part → m.holdPart p = e.team.holdPart p

/-- The operands of HDRN in its three s-registers (R215). -/
def hdrnFields (fn : Nat) (a b c : Word64) : HdrnOp :=
  { fn := fn, eps := (a.extractLsb' 30 8).toNat, st := (a.extractLsb' 25 5).toNat, gt := (a.extractLsb' 20 5).toNat,
    waddr := (a.extractLsb' 0 20).toNat, clip := b.extractLsb' 32 32, alpha := b.extractLsb' 0 32, beta := c.extractLsb' 32 32,
    lossScale := c.extractLsb' 0 32 }

/-- A thread of a row that took part, after its sums (R202, R203, R211). -/
def summed (m : MmaOp) (n : Nat) (x : Thread) : Thread :=
  (m.arows.find? (·.1 == n)).elim x fun r =>
    let d := mmaRow m.sparse m.slot r.2 ((lookupKey m.accs n).getD []) m.b
    (if m.tile.isSome then x else x.putRegs ((List.range 64).map (m.dreg + ·)) d.1).orFx false d.2

/-- HDRN starts with its weight range as an engine destination (R217). -/
def HdrnIssues (mk : BitVec 6 → BitVec 6 → BitVec 6 → BitVec 4 → Instr) (fn : Nat) : Prop :=
  ∀ (a b c : BitVec 6) (l : BitVec 4) (s : State) (e : Env),
    let i := mk a b c l
    let h := hdrnFields fn (sword e a) (sword e b) (sword e c)
    Clear s i e (e.hdrnConds h (sword e a).toNat (Taking e i)) →
    ∃ t, exec i s = .next t ∧ Starts s s t e i (.hdrn h) [lockOf .dest s.nextFlight e.team.id h.waddr 8192] [(h.waddr, 8192)]

/-- The operands of PILOT in its s-registers (R218). -/
def pilotFields (top : Bool) (a b : Word64) (slots : List FSlot) (p1 p2 : MemRef) : PilotOp :=
  { top := top, rk := (a.extractLsb' 54 8).toNat + 1, dm := (a.extractLsb' 40 14).toNat + 1, maddr := (a.extractLsb' 20 20).toNat,
    xaddr := (a.extractLsb' 0 20).toNat, tau := b.extractLsb' 32 32, topk := (b.extractLsb' 32 17).toNat,
    slot := slotAt slots (b.extractLsb' 16 3), n := (b.extractLsb' 0 16).toNat + 1, p1 := p1, p2 := p2, x := none }

/-- PILOT starts with x as a source and its manifest as a destination (R221). -/
def PilotIssues (mk : BitVec 6 → BitVec 6 → BitVec 6 → BitVec 4 → Instr) (top : Bool) : Prop :=
  ∀ (a b c : BitVec 6) (l : BitVec 4) (s : State) (e : Env),
    let i := mk a b c l
    let sb := e.sv (a.toNat + 1)
    let q := (e.sampled (e.advance (e.shape i)) [(e.sv b.toNat : Int), (e.sv c.toNat : Int)]).1
    let s0 := (e.sampled (e.advance (e.shape i)) [(e.sv b.toNat : Int), (e.sv c.toNat : Int)]).2
    let at_ := fun (r : BitVec 6) => (q.ref (e.sv r.toNat)).getD (.mem 0)
    let p := pilotFields top (sword e a) (BitVec.ofNat 64 sb) e.l.slots (at_ b) (at_ c)
    Clear s i e (e.pilotConds { p with p1 := .mem 0, p2 := .mem 0 } (sword e a).toNat sb (e.sv b.toNat) (e.sv c.toNat) (Taking e i)) → q.marked = [] →
    ∃ t, exec i s = .next t ∧ Starts s s0 t e i (.pilot p)
      [lockOf .src s.nextFlight e.team.id p.xaddr (2 * p.dm), lockOf .dest s.nextFlight e.team.id p.maddr (manMS p.n)] [(p.maddr, manMS p.n)]

/-- The operands of MCHK in s(EA) to s(EA + 3) (R222). -/
def mchkFields (a b c d : Word64) (sc : Nat) (slots : List FSlot) (w : MemRef) : MchkOp :=
  { dm := (a.extractLsb' 40 14).toNat + 1, maddr := (a.extractLsb' 20 20).toNat, xaddr := (a.extractLsb' 0 20).toNat,
    pd := (b.extractLsb' 40 3).toNat, raddr := (b.extractLsb' 20 20).toNat, slot := slotAt slots (b.extractLsb' 16 3),
    n := (b.extractLsb' 0 16).toNat + 1, eps := c.extractLsb' 32 32, theta := c.extractLsb' 0 32, h := d.extractLsb' 0 32, w := w, sc := sc,
    x := none, map := none }

/-- PILOT with its x read ends with the manifest of the rows that its scores select from the data taken as `via` says (R219, R221, R440). -/
def PilotEnds (s : State) (f : Flight) (l : Launch) (via : Via) (m0 : Team) (ran : State → Prop) : Prop :=
  ∀ p x b1 b2, f.op = .pilot p → p.x = some x → s.landingHeld f.id f.team p.maddr (manMS p.n) = false →
    s.engineRead f.cu l via p.p1 p.p1Bytes = .ok b1 → s.engineRead f.cu l via p.p2 p.p2Bytes = .ok b2 → (b1 ++ b2).any (·.2) = false →
    let r := pilotSelect p x (b1.map (·.1)) (b2.map (·.1))
    ∃ t m, ran t ∧ EngineEnds s t f p.maddr (manMS p.n) (withFlags s f r.2) m0 m ∧ m.hold = m0.hold ∧
      (MemOk s → m.mem.read p.maddr (manMS p.n) = manifestBytes p.n r.1)

/-- MCHK with its sources read ends with its manifest, count and predicate from the weights taken as `via` says (R223, R440). -/
def MchkEnds (s : State) (f : Flight) (l : Launch) (via : Via) (m0 : Team) (ran : State → Prop) : Prop :=
  ∀ o x map w, f.op = .mchk o → o.x = some x → o.map = some map → s.landingHeld f.id f.team o.raddr (manMS o.n) = false →
    s.engineRead f.cu l via o.w o.wBytes = .ok w → w.any (·.2) = false →
    let r := mchkSelect o x map (w.map (·.1))
    ∃ t m, ran t ∧ EngineEnds s t f o.raddr (manMS o.n) (updFirst (·.order == f.order) (fun g =>
      (g.mapLanes f.lanes fun _ x => (x.setP o.pd r.2.1).orFx false r.2.2).setS o.sc (r.1.length + if r.2.1 then 2 ^ 32 else 0)) s.groups) m0 m ∧
      m.hold = m0.hold ∧ (MemOk s → m.mem.read o.raddr (manMS o.n) = manifestBytes o.n r.1)

/-- A finite term as a whole multiple of 2^q, cut toward zero, and whether that loses anything (R80). -/
def cutTerm (q : Int) : FV → Int
  | .fin s m e => let k : Int := (m * 2 ^ (e - q).toNat / 2 ^ (q - e).toNat : Nat); if s then -k else k
  | _ => 0
def cutLoses (q : Int) : FV → Bool
  | .fin _ m e => m * 2 ^ (e - q).toNat % 2 ^ (q - e).toNat != 0
  | _ => false

/-- R71, R72, R79 to R81: what a matrix sum gives. A term is the exact product of its factors; a product of an infinity and a zero is
invalid, and a block scale of zero gives +0 without a flag. Chunk sums follow one another. A chunk of finite terms, the greatest with exponent q + 48,
sums their multiples of 2^q, cut toward zero with NX, and rounds once; zeros alone give -0 only where all are -0; an infinity prevails, two
opposite ones are invalid, a NaN accumulator keeps its payload. The chunk of the worked example of R81. -/
def MatrixValues : Prop :=
  (∀ fs : List (Bool × Nat × Int), termOf (fs.map fun p => .fin p.1 p.2.1 p.2.2) =
    (.fin (fs.foldr (fun p b => p.1 != b) false) (fs.map (·.2.1)).prod (fs.map (·.2.2)).sum, 0)) ∧
  (∀ fs : List FV, (∀ v ∈ fs, v.isNan = false) → (∃ v ∈ fs, v.isInf = true) → (∃ v ∈ fs, v.isZero = true) → termOf fs = (.nan (canonNan false), fxNV)) ∧
  (∀ x : Option (List FV), mmaTerm none x = (.fin false 0 0, 0) ∧ mmaTerm x none = (.fin false 0 0, 0)) ∧
  (∀ (c acc : Nat) (xs ys : List (FV × Nat)), xs.length = c → 0 < c →
    let r := chunkSum acc xs
    sumChunks c acc xs = r ∧ sumChunks c acc (xs ++ ys) = ⟨(sumChunks c r.pat ys).pat, (sumChunks c r.pat ys).fx ||| r.fx⟩) ∧
  (∀ (acc : Nat) (ps : List (FV × Nat)),
    let ts := ps.map (·.1) ++ [fp32.decode acc]
    let fx := ps.foldl (fun x p => x ||| p.2) 0
    ((∀ v ∈ ts, v.isZero = true) → chunkSum acc ps = ⟨if ∀ v ∈ ts, v.sign = true then 0x80000000 else 0, fx⟩) ∧
    (∀ q : Int, (∀ v ∈ ts, v.isNan = false ∧ v.isInf = false) → (∀ s m e, FV.fin s m e ∈ ts → m ≠ 0 → (Nat.log2 m : Int) + e ≤ q + 48) →
      (∃ s m e, FV.fin s m e ∈ ts ∧ m ≠ 0 ∧ (Nat.log2 m : Int) + e = q + 48) →
      let sum := (ts.map (cutTerm q)).sum
      let r : Rounded := if sum = 0 then ⟨0, 0⟩ else roundFV fp32 .rne (.fin (decide (sum < 0)) sum.natAbs q)
      chunkSum acc ps = ⟨r.pat, r.fx ||| (if ts.any (cutLoses q) then fxNX else 0) ||| fx⟩) ∧
    (∀ n : Bool, (∀ v ∈ ts, v.isNan = false) → FV.inf n ∈ ts → chunkSum acc ps = if FV.inf (!n) ∈ ts then ⟨0x7FC00000, fxNV ||| fx⟩ else ⟨fp32.inf n, fx⟩) ∧
    ((∀ p ∈ ps, p.1.isNan = false) → (fp32.decode acc).isNan = true → acc < 2 ^ 32 → (chunkSum acc ps).pat = acc ||| 0x00400000) ∧
    ∀ b : Bool × Nat, ps.find? (fun p => p.1.isNan) = some (.nan (canonNan b.1), b.2) → (chunkSum acc ps).pat = 0x7FC00000) ∧
  chunkSum 0x4B800000 ((FV.fin false 1 (-30), 0) :: List.replicate 15 (FV.fin false 1 (-1), 0)) = ⟨0x4B800004, fxNX⟩

/-- R216: what one element of HDRN gives: t is the clipped and descaled gradient, each in one rounding; under FN 0 the weight becomes
w - αt in one rounding, under FN 1 the momentum becomes βS + t and the weight w - αm; under FN 2 the state becomes the exact βS + (1 - β)t²
rounded once, q is √v + ε rounded once, of which v = y² shows the value, and w - αt ÷ q is rounded once, of which αt = uq shows it. -/
def DrainValues : Prop :=
  (∀ (h : HdrnOp) (g st w : Nat),
    let t1 := fMul32 .rne g h.clip.toNat
    let t := divFP fp32 .rne (fp32.decode t1.pat) (fp32.decode h.lossScale.toNat)
    let m := fFma32 .rne h.beta.toNat st t.pat
    let less := fun (x : Nat) => fFma32 .rne (h.alpha ^^^ 0x80000000).toNat x w
    let ok := fun (x : Nat) => (fp32.decode h.alpha.toNat).isNan = false ∧ (fp32.decode x).isNan = false ∧ (fp32.decode w).isNan = false
    (h.fn = 0 → ok t.pat → hdrnElem h g st w = (st, (less t.pat).pat, t1.fx ||| t.fx ||| (less t.pat).fx)) ∧
    (h.fn = 1 → ok m.pat → hdrnElem h g st w = (m.pat, (less m.pat).pat, t1.fx ||| t.fx ||| m.fx ||| (less m.pat).fx)) ∧
    (h.fn = 2 →
      let v := secondMoment (fp32.decode h.beta.toNat) (fp32.decode st) (fp32.decode t.pat)
      let q := sqrtPlus (fp32.decode v.pat) h.eps
      let r := stepDiv (fp32.decode w) (fp32.decode h.alpha.toNat) (fp32.decode t.pat) (fp32.decode q.pat)
      hdrnElem h g st w = (v.pat, r.pat, t1.fx ||| t.fx ||| v.fx ||| q.fx ||| r.fx))) ∧
  (∀ b st t x o u y z : FV, b.isNan = false → st.isNan = false → t.isNan = false → FV.mul b st = some x → FV.add .rne oneFV (b.flip true) = some o →
    FV.mul t t = some u → FV.mul o u = some y → FV.add .rne x y = some z → secondMoment b st t = roundFV fp32 .rne z) ∧
  (∀ (v y eps : Nat) (u : FV), y < 0x7F800000 → 1 ≤ eps → eps ≤ 254 → FV.mul (fp32.decode y) (fp32.decode y) = some u → sameValue (fp32.decode v) u →
    sqrtPlus (fp32.decode v) eps = fAdd32 .rne y (eps * 2 ^ 23)) ∧
  ∀ (w u : Nat) (a t q x y : FV), (fp32.decode w).isNan = false → (fp32.decode u).isZero = false → (∃ p, a = fp32.decode p) → (∃ p, t = fp32.decode p) →
    (∃ p, q = fp32.decode p) → q.isZero = false → q.isInf = false → FV.mul a t = some x → FV.mul (fp32.decode u) q = some y → x.isInf = false → sameValue x y →
    stepDiv (fp32.decode w) a t q = fSub32 .rne w u

/-- The score of row j of PILOT (R219), and the gate of row j of MCHK (R223): sums in chunks of 16. -/
def pilotScore (p : PilotOp) (x p1 p2 : List Byte) (j : Nat) : FV :=
  let u := (List.range p.rk).map fun r => fp32.decode (dotColumn (bf16List x p.dm) (columnFactors p.slot p.slot.adesc p.slot.atsc p1 p.rk p.dm r)).pat
  fp32.decode (dotColumn u (columnFactors p.slot p.slot.bdesc p.slot.btsc p2 p.n p.rk j)).pat
def mchkGate (o : MchkOp) (x w : List Byte) (j : Nat) : FV :=
  fp32.decode (dotColumn (bf16List x o.dm) (columnFactors o.slot o.slot.bdesc o.slot.btsc w o.n o.dm j)).pat

/-- a > b of values, false where either is NaN (R149). -/
def above (a b : FV) : Prop := a.isNan = false ∧ b.isNan = false ∧ FV.cmp a b = .gt

/-- The sum of the gates of rows from the first, each addition rounded (R223). -/
def gateSum (g : Nat → FV) (js : List Nat) : FV := fp32.decode (js.foldl (fun m j => (addFP fp32 .rne (fp32.decode m) (g j)).pat) 0)

/-- R219, R223: which rows are listed, ascending. PILOT.GT lists those whose score exceeds τ; PILOT.TOP the k first in rank, where a greater
score ranks first, a NaN last and the lower index first among equals. MCHK sums the gates above θ of the rows that were not predicted, in
ascending order; where the sum is above εH it lists the fewest of them, greatest first, that leave a rest that is not above it, and all where none
does; else it lists none. The worked example of R223. -/
def PilotValues : Prop :=
  (∀ (p : PilotOp) (x p1 p2 : List Byte), let r := (pilotSelect p x p1 p2).1; let s := pilotScore p x p1 p2
    r.Pairwise (· < ·) ∧ (∀ j ∈ r, j < p.n) ∧ (p.top = false → ∀ j < p.n, (j ∈ r ↔ above (s j) (fp32.decode p.tau.toNat))) ∧
    (p.top = true → r.length = min p.topk p.n ∧ ∀ i j, i ∈ r → j < p.n → j ∉ r →
      ((s j).isNan = true ∧ ((s i).isNan = false ∨ i < j)) ∨ above (s i) (s j) ∨ (sameValue (s i) (s j) ∧ i < j))) ∧
  (∀ (o : MchkOp) (x map w : List Byte), let r := mchkSelect o x map w; let g := mchkGate o x w
    let act := (List.range o.n).filter fun j => !bitOf (numAt map (j / 8) 1) (j % 8) && gtFP (g j) (fp32.decode o.theta.toNat)
    let bound := fp32.decode (fMul32 .rne o.eps.toNat o.h.toNat).pat
    (¬above (gateSum g act) bound → r.1 = [] ∧ r.2.1 = false) ∧
    (above (gateSum g act) bound → r.2.1 = true ∧ r.1.Pairwise (· < ·) ∧ ∃ (ord : List Nat) (q : Nat), ord.Perm act ∧ 1 ≤ q ∧ (∀ j, j ∈ r.1 ↔ j ∈ ord.take q) ∧
      (∀ a b i j : Nat, a < b → ord[a]? = some i → ord[b]? = some j → above (g i) (g j) ∨ (sameValue (g i) (g j) ∧ i < j)) ∧
      let rest := fun (n : Nat) => gateSum g (act.filter fun j => !(ord.take n).contains j)
      (∀ n, 1 ≤ n → n < q → leFP (rest n) bound = false) ∧ (leFP (rest q) bound = true ∨ act.length ≤ q))) ∧
  ∀ (o : MchkOp) (w : List Byte), o.dm = 1 → o.n = 8 → o.slot.bdesc = 1 → o.slot.btsc = 0x3F800000 → o.theta = 0x3EC00000 →
    o.h = 0x41200000 → w = [0, 0, 0x00, 0x3F, 0, 0, 0x40, 0x40, 0x80, 0xBF, 0, 0, 0x00, 0x40, 0x80, 0x3E] →
    (o.eps = 0x3E800000 → (mchkSelect o [0x80, 0x3F] [0x25] w).1 = [3] ∧ (mchkSelect o [0x80, 0x3F] [0x25] w).2.1 = true) ∧
    (o.eps = 0x3E000000 → (mchkSelect o [0x80, 0x3F] [0x25] w).1 = [3, 6] ∧ (mchkSelect o [0x80, 0x3F] [0x25] w).2.1 = true)

end Sys2Proof.Claims

/-- R202 to R205, R208 to R211: MMA, MMAH and MMAS start with their operands as read at issue; when the array completes, every row that took
part receives its 64 sums in registers or in its row of the hold tile, its flags join FX, and the B lock goes; when B has been read the
lock may go before. The sums are those of R79 to R81. Where the spec leaves a choice, the choice is the model's: log 22, 51, 117. -/
def Obligations.MatrixOperations : Prop :=
  MatrixValues ∧
  (∀ (c a : BitVec 7) (b f : BitVec 3) (l : BitVec 4) (r : Bool), MmaIssues (.mma c a b f l r) false none c a b f) ∧
  (∀ (h : BitVec 5) (a : BitVec 7) (b f : BitVec 3) (l : BitVec 4) (r : Bool), MmaIssues (.mmah h a b f l r) false (some h) 0 a b f) ∧
  (∀ (c a : BitVec 7) (b f : BitVec 3) (l : BitVec 4) (r : Bool), MmaIssues (.mmas c a b f l r) true none c a b f) ∧
  (∀ (k : Nat) (s : State) (f : Flight) (m : MmaOp), s.flight? k = some f → f.fault = none → f.refetch = none → f.op = .mma m →
    s.upset ≠ some .residue → (m.arows.map (·.1)).Nodup → (∀ r ∈ m.arows, r.1 < 32) →
    (∀ h, m.tile = some h → ∃ t0 p, s.team? f.team = some t0 ∧ t0.hold.find? (·.part == f.part) = some p) →
    ∃ t, exec (.mmaComplete k) s = .next t ∧ { t with groups := s.groups, teams := s.teams, cus := s.cus, flights := s.flights } = s ∧
      t.flights = s.flights.filter (·.id != k) ∧
      t.cus = (s.cus.map fun c => { c with locks := c.locks.filter (·.owner != k) }) ∧
      t.groups = updFirst (·.order == f.order) (fun g => { g with threads := g.threads.mapIdx fun n x => x.map (summed m n) }) s.groups ∧
      (m.tile = none → t.teams = s.teams) ∧
      ∀ h, m.tile = some h → (∀ v, v ≠ f.team → t.team? v = s.team? v) ∧ ∀ h' n, MemOk s → n < 32 →
        (t.holdPart f.team f.part).row h' n = match (if h' = h then m.arows.find? (·.1 == n) else none) with
          | none => (s.holdPart f.team f.part).row h' n
          | some r => (mmaRow m.sparse m.slot r.2 ((lookupKey m.accs n).getD []) m.b).1) ∧
  (∀ (k : Nat) (s : State) (f : Flight) (m : MmaOp), s.flight? k = some f → f.fault = none → f.refetch = none → f.op = .mma m → m.locked = true →
    ∃ t, exec (.lastSourceRead k) s = .next t ∧ { t with cus := s.cus, flights := s.flights } = s ∧
      t.cus = (s.cus.map fun c => { c with locks := c.locks.filter (·.owner != k) }) ∧
      t.flight? k = some { f with op := .mma { m with locked := false } } ∧ ∀ j, j ≠ k → t.flight? j = s.flight? j)

/-- R43, R214: HLD fills the rows of its lanes from registers, or a tile from scratchpad; HST reads them into registers, or a tile into
scratchpad; HZERO clears a tile. Every other row, tile and byte is as it was. Where the spec leaves a choice, the choice is the model's:
log 22. -/
def Obligations.HoldMoves : Prop :=
  (∀ (h : BitVec 5) (a : BitVec 7) (l : BitVec 4) (s : State) (e : Env) (p : HoldPart), Clear s (.hldReg h a l) e (e.tileConds (Taking e (.hldReg h a l)) h true) →
    e.team.hold.find? (·.part == e.iss.part) = some p →
    ∃ t m, exec (.hldReg h a l) s = .next t ∧ OnlyHold s t e (.hldReg h a l) m ∧ ∀ h' n, n < 32 → ∀ t0,
      (n ∈ Taking e (.hldReg h a l) → e.thread n = some t0 → MemOk s → (m.holdPart e.iss.part).row h.toNat n = t0.getRegs ((List.range 64).map (2 * a.toNat + ·))) ∧
      (h' ≠ h.toNat ∨ n ∉ Taking e (.hldReg h a l) → (m.holdPart e.iss.part).row h' n = p.row h' n)) ∧
  (∀ (h : BitVec 5) (a : BitVec 7) (l : BitVec 4) (s : State) (e : Env), Clear s (.hstReg h a l) e (e.tileConds (Taking e (.hstReg h a l)) h false) →
    (∀ n ∈ Taking e (.hstReg h a l), (s.holdPart e.team.id e.iss.part).badCols h.toNat n = []) →
    ThreadsBecome s e (.hstReg h a l) fun n _ t =>
      t.putRegs ((List.range 64).map (2 * a.toNat + ·)) ((s.holdPart e.team.id e.iss.part).row h.toNat n)) ∧
  (∀ (h : BitVec 5) (b : BitVec 3) (l : BitVec 4) (s : State) (e : Env) (p : HoldPart),
    let i : Instr := .hldScratch h b l
    let base := (sword e (b.setWidth 6)).toNat % 2 ^ 32
    Clear s i e (e.tileConds (Taking e i) h true ++ e.spanConds (Taking e i) base 8192 false) → e.team.hold.find? (·.part == e.iss.part) = some p →
    (Taking e i = [] → ThreadsBecome s e i fun _ _ t => t) ∧
    (Taking e i ≠ [] → s.present e.team.id base 8192 = false →
      ∃ t, exec i s = .next t ∧ OnlyThreads s t e ∧ ∀ k ∈ e.lanes, ∀ t0, e.thread k = some t0 → laneIn t e k = some { t0 with wait := .presence base 8192 }) ∧
    (Taking e i ≠ [] → s.present e.team.id base 8192 = true → e.iss.late = true →
      ∃ t, exec i s = .next t ∧ Advanced s t e i ∧ Flies s t e (.lateHold h.toNat base)) ∧
    (Taking e i ≠ [] → s.present e.team.id base 8192 = true → e.iss.late = false → ∃ t m, exec i s = .next t ∧ OnlyHold s t e i m ∧
      (MemOk s → ∀ off, 8192 * h.toNat ≤ off → off < 8192 * h.toNat + 8192 → (m.holdPart e.iss.part).mem.get off = e.team.mem.get (base + (off - 8192 * h.toNat))) ∧
      ∀ off, ¬(8192 * h.toNat ≤ off ∧ off < 8192 * h.toNat + 8192) → (m.holdPart e.iss.part).mem.get off = p.mem.get off)) ∧
  (∀ (h : BitVec 5) (b : BitVec 3) (l : BitVec 4) (s : State) (e : Env),
    let i : Instr := .hstScratch h b l
    let base := (sword e (b.setWidth 6)).toNat % 2 ^ 32
    Clear s i e (e.tileConds (Taking e i) h false ++ e.spanConds (Taking e i) base 8192 true) →
    (Taking e i = [] → ThreadsBecome s e i fun _ _ t => t) ∧
    (Taking e i ≠ [] → e.iss.late = true → ∃ t lane, exec i s = .next t ∧ Advanced s t e i ∧
      Flies s t e (.lateStore false ((List.range 256).map fun k =>
        ⟨lane, 0, .scr e.team.id (base + 32 * k), (((s.holdPart e.team.id e.iss.part).tile h.toNat).drop (32 * k)).take 32⟩))) ∧
    (Taking e i ≠ [] → e.iss.late = false → ∃ t m, exec i s = .next t ∧ OnlyScratch s t e m ∧ Advanced s t e i ∧
      (MemOk s → ∀ k < 8192, m.mem.get (base + k) = (s.holdPart e.team.id e.iss.part).mem.get (8192 * h.toNat + k)) ∧
      ∀ off, ¬(base ≤ off ∧ off < base + 8192) → m.mem.get off = e.team.mem.get off)) ∧
  (∀ (h : BitVec 5) (l : BitVec 4) (s : State) (e : Env) (p : HoldPart), Clear s (.hzero h l) e (e.tileConds (Taking e (.hzero h l)) h true) →
    e.team.hold.find? (·.part == e.iss.part) = some p →
    (Taking e (.hzero h l) = [] → ThreadsBecome s e (.hzero h l) fun _ _ t => t) ∧
    (Taking e (.hzero h l) ≠ [] → ∃ t m, exec (.hzero h l) s = .next t ∧ OnlyHold s t e (.hzero h l) m ∧
      (MemOk s → ∀ off, (m.holdPart e.iss.part).mem.get off = if 8192 * h.toNat ≤ off ∧ off < 8192 * h.toNat + 8192 then 0 else p.mem.get off)))

/-- R212, R213, R215 to R217: the three HDRN operations start with their fields as read; when one completes, its 2,048 weights in scratchpad
and, but for FN 0, its state tile take their new elements, its flags join FX, and nothing else of the team changes. The elements have
the values of R216. Where the spec leaves a choice, the choice is the model's: log 35, 50. -/
def Obligations.WeightUpdates : Prop :=
  DrainValues ∧
  HdrnIssues .hdrn 0 ∧ HdrnIssues .hdrnMom 1 ∧ HdrnIssues .hdrnSq 2 ∧
  ∀ (k : Nat) (s : State) (f : Flight) (h : HdrnOp) (m0 : Team) (c : Cu) (p : HoldPart), s.flight? k = some f → f.fault = none → f.refetch = none →
    f.op = .hdrn h → s.team? f.team = some m0 → s.cu? m0.cu = some c → m0.hold.find? (·.part == f.part) = some p →
    s.linesReady k f.team h.waddr 8192 .dest = true → s.landingHeld k f.team h.waddr 8192 = false → s.tileBefore f h.tiles = false → NoSkips s f →
    ((p.tile h.gt ++ p.tile (if h.fn = 0 then h.gt else h.st) ++ s.scrMarked f.team h.waddr 8192).all fun b => !b.2) = true →
    let r := fun (n : Nat) => hdrnElem h (p.mem.num (8192 * h.gt + 4 * n) 4)
      (p.mem.num (8192 * (if h.fn = 0 then h.gt else h.st) + 4 * n) 4) (m0.mem.num (h.waddr + 4 * n) 4)
    ∃ t m, exec (.hdrnComplete k) s = .next t ∧
      EngineEnds s t f h.waddr 8192 (withFlags s f ((List.range 2048).foldl (fun x n => x ||| (r n).2.2) 0)) m0 m ∧
      (MemOk s → ∀ n < 2048, m.mem.num (h.waddr + 4 * n) 4 = (r n).2.1 % 2 ^ 32) ∧
      (h.fn = 0 → m.hold = m0.hold) ∧ (h.fn ≠ 0 → m.hold.map (·.part) = m0.hold.map (·.part) ∧
        (∀ j, j ∈ (m.holdPart f.part).bad ↔ j ∈ p.bad ∧ ¬(2048 * h.st ≤ j ∧ j < 2048 * h.st + 2048)) ∧ (MemOk s → ∀ n < 2048, (m.holdPart f.part).mem.num (8192 * h.st + 4 * n) 4 = (r n).1 % 2 ^ 32) ∧
        (∀ q, q ≠ f.part → m.holdPart q = m0.holdPart q) ∧
        ∀ off, ¬(8192 * h.st ≤ off ∧ off < 8192 * h.st + 8192) → (m.holdPart f.part).mem.get off = p.mem.get off)

/-- R218 to R223, R190: PILOT and MCHK start with their fields as read; x and the prediction bitmap are read once their lines are ready, and
their SRC entries go; on completion the manifest of the selected rows lies at its place, the flags join FX, and MCHK writes its count
with bit [32] for a repair and its predicate. The rows are those that the scores and the gates select. Where the spec leaves a choice,
the choice is the model's: log 63, 123. -/
def Obligations.PilotUnit : Prop :=
  PilotValues ∧
  PilotIssues .pilotGt false ∧ PilotIssues .pilotTop true ∧
  (∀ (a b c : BitVec 6) (l : BitVec 4) (s : State) (e : Env),
    let i : Instr := .mchk a b c l
    let v := fun (k : Nat) => BitVec.ofNat 64 (e.sv (a.toNat + k))
    let q := (e.sampled (e.advance (e.shape i)) [(e.sv b.toNat : Int)]).1
    let s0 := (e.sampled (e.advance (e.shape i)) [(e.sv b.toNat : Int)]).2
    let m := mchkFields (v 0) (v 1) (v 2) (v 3) c.toNat e.l.slots ((q.ref (e.sv b.toNat)).getD (.mem 0))
    Clear s i e (e.mchkConds { m with w := .mem 0 } (fun k => (v k).toNat) (e.sv b.toNat) (Taking e i)) → q.marked = [] →
    ∃ t, exec i s = .next t ∧ Starts s s0 t e i (.mchk m) [lockOf .src s.nextFlight e.team.id m.xaddr (2 * m.dm),
      lockOf .src s.nextFlight e.team.id m.maddr (manMS m.n), lockOf .dest s.nextFlight e.team.id m.raddr (manMS m.n)] [(m.raddr, manMS m.n)]) ∧
  (∀ (k : Nat) (s : State) (f : Flight), s.flight? k = some f → f.fault = none → f.refetch = none →
    let reads := fun (op : FlightOp) => ∃ t, exec (.lastSourceRead k) s = .next t ∧ { t with cus := s.cus, flights := s.flights } = s ∧
      t.cus = (s.cus.map fun c => { c with locks := c.locks.filter fun j => !(j.owner == k && j.kind == .src) }) ∧ t.flight? k = some { f with op := op } ∧
      ∀ j, j ≠ k → t.flight? j = s.flight? j
    (∀ p, f.op = .pilot p → p.x = none → s.linesReady k f.team p.xaddr (2 * p.dm) .src = true → (s.scrRead f.team p.xaddr (2 * p.dm)).2 = false →
      reads (.pilot { p with x := some (s.scrRead f.team p.xaddr (2 * p.dm)).1 })) ∧
    (∀ m, f.op = .mchk m → m.x = none → s.linesReady k f.team m.xaddr (2 * m.dm) .src = true → (s.scrRead f.team m.xaddr (2 * m.dm)).2 = false →
      s.linesReady k f.team m.maddr (manMB m.n) .src = true → (s.scrRead f.team m.maddr (manMB m.n)).2 = false →
      reads (.mchk { m with x := some (s.scrRead f.team m.xaddr (2 * m.dm)).1, map := some (s.scrRead f.team m.maddr (manMB m.n)).1 }))) ∧
  (∀ (k : Nat) (s : State) (f : Flight) (l : Launch) (m0 : Team) (u : Cu), s.flight? k = some f → f.fault = none → f.refetch = none →
    s.launch? f.launch = some l → s.team? f.team = some m0 → s.cu? m0.cu = some u → s.upset ≠ some .residue → NoSkips s f →
    PilotEnds s f l .home m0 (fun t => exec (.pilotComplete k) s = .next t) ∧ MchkEnds s f l .home m0 fun t => exec (.mchkComplete k) s = .next t)

/-! ### View commands and copies -/

namespace Sys2Proof.Claims

/-- Bytes are written at a place that can be written, and no other byte of memory changes but for shadows of preserved pages. -/
def WritesAt (s t : State) (q : PAddr) (bs : List Byte) : Prop :=
  (Writable s q bs.length → (t.memOf q.space).read q.addr bs.length = bs) ∧
  ∀ p : PAddr, ¬(p.space = q.space ∧ q.addr ≤ p.addr ∧ p.addr < q.addr + bs.length) → NoShadow s p 1 →
    (t.memOf p.space).get p.addr = (s.memOf p.space).get p.addr

/-- A view word puts its command in flight with its operands as read (R183, R188); `s0` is the machine with its sample of the view taken, and
`d` what it sampled, where it takes one (R318). -/
def ViewStarts (s s0 : State) (e : Env) (i : Instr) (fn : Nat) (a : BitVec 6) (eb ec : Word64) (sd : BitVec 6) (d : Option ViewDesc) : Prop :=
  let v : ViewOp := ⟨fn, ((sword e a).extractLsb' 0 12).toNat, eb, ec, sd.toNat, Scope.ofCode ((sword e a).extractLsb' 12 3).toNat, d⟩
  ∃ t, exec i s = .next t ∧ Advanced s t e i ∧ { t with groups := s0.groups, flights := s0.flights, nextFlight := s0.nextFlight } = s0 ∧
    t.nextFlight = s.nextFlight + 1 ∧ t.flights = s.flights ++ [flightOf e s (.view v)]

/-- What a sample of a view gives (R306, R310, R318, R319, R434): the copy of the CU's view unit, and nothing changes; where it has none, the entry
in memory, which is cached then, and the CU's L1 is discarded, since the entry may have been released (R334); nothing where that is marked. A
descriptor that is not configured samples as none. -/
def Samples : Prop :=
  ∀ (s : State) (cu ctx view : Nat) (c : Ctx), s.ctx? ctx = some c →
    let judge := fun (raw : List Byte) => if (viewOfBytes raw).configured s.bar0.nodeid then some (viewOfBytes raw) else none
    let copy := s.viewCache.find? fun v => v.cu == cu && v.ctx == ctx && v.view == view
    let r := s.loadPhys ⟨.dram, c.desc.vtbase + 128 * view⟩ 128
    (∀ v, copy = some v → s.sample cu ctx view = (some (judge v.raw), s)) ∧
    (copy = none → r.2 = true → s.sample cu ctx view = (none, s)) ∧
    (copy = none → r.2 = false → ∃ t, s.sample cu ctx view = (some (judge r.1), t) ∧
      { t with viewCache := s.viewCache, cus := s.cus } = s ∧ t.viewCache = ⟨cu, ctx, view, r.1⟩ :: s.viewCache ∧ CusKept s t ∧
      ∀ k, t.cu? k = (s.cu? k).map fun u => if k = cu then { u with l1 := [] } else u)

/-- The condition of the view operand: its bits [63:15] are zero (R165, R183). -/
def viewOperand (e : Env) (i : Instr) (a : BitVec 6) : List Cond := condIf ((sword e a).extractLsb' 15 49 != 0) 0x17 (e.low (Taking e i))

/-- A view command ends with a result in its s-register. -/
def ViewEnds (s t : State) (f : Flight) (v : ViewOp) (res : Nat) : Prop :=
  t.groups = updFirst (·.order == f.order) (fun g => g.setS v.sd res) s.groups ∧ t.flights = s.flights.filter (·.id != f.id)

/-- The cached copies of a view are dropped everywhere. -/
def CopiesDropped (s t : State) (ctx view : Nat) : Prop := t.viewCache = s.viewCache.filter fun c => !(c.ctx == ctx && c.view == view)

/-- A dependence counter of a context becomes `f` of what it was, no other counter changes; where that is at or below zero every thread of
the context that waits for it continues, a saved one too, and every queue at a WAIT for it is released; but for them and the L1 of CUs
nothing else changes (R189, R196, R299, R300). -/
def CounterMoves (s t : State) (ctx i : Nat) (f : Word → Word) : Prop :=
  { t with groups := s.groups, ctxs := s.ctxs, saved := s.saved, cus := s.cus } = s ∧ CusKept s t ∧
  t.groups.map forgetWaits = s.groups.map forgetWaits ∧
  (t.ctxs.map fun c => { c with counters := [], queues := [] }) = (s.ctxs.map fun c => { c with counters := [], queues := [] }) ∧
  (∀ k j, (t.ctx? k).map (·.counter j) = (s.ctx? k).map fun c => if k = ctx ∧ j = i then f (c.counter j) else c.counter j) ∧
  let go := (s.ctx? ctx).any fun c => decide ((f (c.counter i)).toInt ≤ 0)
  let wakes := fun (g : Group) => if go && (s.launch? g.launch).any (·.ctx == ctx) then
    { g with threads := g.threads.map (Option.map fun x => if x.wait = .counter i then { x with wait := .ready } else x) } else g
  t.groups = s.groups.map wakes ∧ t.saved = (s.saved.map fun v => { v with groups := v.groups.map wakes }) ∧
  (t.ctx? ctx).map (·.queues) = (s.ctx? ctx).map fun c => c.queues.map fun q =>
    { q with walk := q.walk.map fun w => if go && w.waiting == some i then { w with released := true } else w }

/-- The counter of a command goes down by one; a command without one changes nothing. -/
def CounterDown (s t : State) (ctx : Nat) (c : Option (Nat × Scope)) : Prop :=
  (c = none → t = s) ∧ ∀ i sc, c = some (i, sc) → CounterMoves s t ctx i fun v => v - 1

/-- The machine without an operation in flight and its lock entries. -/
def without (s : State) (k : Nat) : State :=
  { s with flights := s.flights.filter (·.id != k), cus := s.cus.map fun c => { c with locks := c.locks.filter (·.owner != k) } }

/-- Memory, its marks, caches, locks and operations in flight apart, nothing differs. -/
def OnlyMemory (s t : State) : Prop :=
  { t with dram := s.dram, dramBad := s.dramBad, zeroFlags := s.zeroFlags, hostMem := s.hostMem, hostBad := s.hostBad, peers := s.peers, ctxs := s.ctxs, cus := s.cus, flights := s.flights } = s ∧
  (t.cus.map fun c => { c with l1 := [], locks := [] }) = (s.cus.map fun c => { c with l1 := [], locks := [] }) ∧
  (t.ctxs.map fun c => { c with preserves := [] }) = s.ctxs.map fun c => { c with preserves := [] }

/-- A record is reported about a context or the device: what `State.report` makes of it (R431; its effect is stated in ErrorRecords). -/
def Reports (s t : State) (q : Option Nat) (cls source action : Nat) : Prop :=
  ∃ r, r.cls = cls ∧ r.source = source ∧ r.action = action ∧ r.count = 1 ∧ t = s.report q r

/-- A context with nothing said of which of its preserved pages have been copied. -/
def forgetCopied (c : Ctx) : Ctx := { c with preserves := c.preserves.map fun v => { v with pages := v.pages.map fun g => { g with copied := false } } }

/-- Of the contexts only marks of which preserved pages have been copied differ. -/
def CtxsKept (s t : State) : Prop := t.ctxs.map forgetCopied = s.ctxs.map forgetCopied

/-- Presence bits of a team's lines have been set, and the lanes that were parked at them alone have gone on, each as PARKED_LANE_RESUME
takes it (R171, R190); lock entries apart, nothing else differs. -/
def SetPresent (s t : State) (team line : Nat) : Prop :=
  let u := s.setPresent team [line]
  { t with cus := u.cus } = u ∧ (t.cus.map fun c => { c with locks := [] }) = u.cus.map fun c => { c with locks := [] }

/-- A line of a copy into scratchpad lands with the bytes that its runs read as `via` says, and no other byte changes; then it is present,
unless another operation still writes it (R190, R192, R194, R440). Where runs share a byte the last one's stays. -/
def CopyLands (s : State) (f : Flight) (l : Launch) (via : Via) (team line : Nat) (ran : State → Prop) : Prop :=
  ∀ (c0 c : CopyOp) (bs : MarkedBytes) (m0 : Team) (u : Cu),
    let whole := c.pieces.filter fun p => (p.inLine line).isSome
    let ps := whole.filterMap (·.inLine line)
    f.op = .copy c0 → c0.kind ≠ .cpyo → s.team? team = some m0 → s.cu? m0.cu = some u → (team, line) ∈ c0.todo → s.behindStalled f = false →
    s.opened f c0 = some (.ok c) → ps ≠ [] → (∀ p ∈ ps, s.landingHeld f.id team p.scr p.len = false) → lookupKey c.buf line = none →
    whole.findSome? Piece.badAddr = none → s.readPieces f.cu l via ps = .ok bs → NoSkips s f →
    ∃ t s1 m c', ran t ∧ SetPresent s1 t team line ∧ { s1 with teams := s.teams, cus := s.cus, flights := s.flights } = s ∧
      (s1.cus.map fun c => { c with locks := [] }) = (s.cus.map fun c => { c with locks := [] }) ∧
      (∀ j, j ≠ team → s1.team? j = s.team? j) ∧ s1.team? team = some m ∧ { m with mem := m0.mem, bad := m0.bad } = m0 ∧
      (∀ off, (∀ p ∈ ps, ¬(p.scr ≤ off ∧ off < p.scr + p.len)) → m.mem.get off = m0.mem.get off) ∧
      (MemOk s → ∀ as p zs k b, ps = as ++ p :: zs → k < p.len → bs[(as.map (·.len)).sum + k]? = some b →
        (∀ q ∈ zs, ¬(q.scr ≤ p.scr + k ∧ p.scr + k < q.scr + q.len)) → m.mem.get (p.scr + k) = b.1) ∧
      s1.flights = updFirst (·.id == f.id) (fun g => { g with op := .copy c' }) s.flights ∧
      { c' with todo := c.todo, buf := c.buf } = c ∧ c'.todo = c.todo.filter (· != (team, line))

/-- A source line of CPYO is written to memory (R193). -/
def CopyLeaves (s : State) (f : Flight) (team line : Nat) (ran : State → Prop) : Prop :=
  ∀ (va : Nat) (c : CopyOp) (p : Piece) (q : PAddr), f.op = .copy c → c.kind = .cpyo → (team, line) ∈ c.todo →
    (c.pieces.findSome? fun p => p.inLine line) = some p → p.ref = .mem va → lookupKey c.buf line = none →
    s.linesReady f.id team (128 * line) 128 .src = true → s.translate f.cu f.ctx va .write = .ok q → va % 4096 + p.len ≤ 4096 → q.addr % 4096 = va % 4096 →
    ∃ t, ran t ∧ OnlyMemory s t ∧ WritesAt s t q ((s.scrMarked team p.scr p.len).map (·.1)) ∧
      t.flight? f.id = some { f with op := .copy { c with todo := c.todo.filter (· != (team, line)), buf := c.buf.filter (·.1 != line) } } ∧
      ∀ j, j ≠ f.id → t.flight? j = s.flight? j

end Sys2Proof.Claims

/-- R168, R312, R315, R322, R326, R328 to R330, R335, R341, R436: a store that was held back lands alone, in lane order where stores of its issue
share a byte and in ascending order of a lane's element accesses, and changes no other byte, team or operation; a part of a load that may be read
apart is read alone, after the lane's earlier element accesses; a thread may read plain memory early for a load, and that changes nothing else;
what a thread has held back is performed before a word of it that may not pass it: every access before a word that releases, loads before an
acquire fence, what a release fence has met before later writes, an access to bytes that the word accesses or reads its index from before the
word; what any thread has held back of scratchpad comes before a word that locks it; what was read early is gone once it stands no longer. Where
only stores to memory are held back, only memory, caches, early reads and operations in flight differ then. -/
def Sys2Proof.Claims.LateAccesses : Prop :=
  (∀ (id k : Nat) (s : State) (rest : List Act) (f : Flight) (ls : List LateStore) (l : LateStore), s.port2 = none → s.upset ≠ some .write →
    s.agenda = .landStore id k :: rest → s.flight? id = some f → f.refetch = none → f.op = .lateStore false ls → ls[k]? = some l →
    ((∀ j < k, ∀ m, ls[j]? = some m → LateStore.meets m l.place l.bytes.length = false ∧ ¬(m.lane = l.lane ∧ m.elem < l.elem)) →
      ∃ t, step s = .next t ∧ (∀ j, j ≠ id → t.flight? j = s.flight? j) ∧
        t.flight? id = (if ls.length = 1 then none else some { f with op := .lateStore false (ls.eraseIdx k) }) ∧
        (∀ p, l.place = .mem p → OnlyMemory s { t with clock := s.clock, agenda := s.agenda } ∧ WritesAt s t p (l.bytes.map (·.1))) ∧
        ∀ tm off m0, l.place = .scr tm off → s.team? tm = some m0 → ∃ m, t.team? tm = some m ∧ { m with mem := m0.mem, bad := m0.bad } = m0 ∧
          { t with clock := s.clock, agenda := s.agenda, teams := s.teams, flights := s.flights } = s ∧ (∀ j, j ≠ tm → t.team? j = s.team? j) ∧
          (MemOk s → m.mem.read off l.bytes.length = l.bytes.map (·.1)) ∧
          (∀ n, ¬(n % 32 = 0 ∧ overlap n 32 off l.bytes.length = true) → (n ∈ m.bad ↔ n ∈ m0.bad)) ∧
          ∀ x, ¬(off ≤ x ∧ x < off + l.bytes.length) → m.mem.get x = m0.mem.get x) ∧
    ((∃ j < k, ∃ m, ls[j]? = some m ∧ (LateStore.meets m l.place l.bytes.length = true ∨ (m.lane = l.lane ∧ m.elem < l.elem))) →
      step s = .next { s with clock := s.clock + 1, agenda := rest })) ∧
  (∀ (id j : Nat) (s : State) (rest : List Act) (f : Flight) (sc : Scope) (as zs : List LateLoad) (l : LateLoad) (x : LatePart) (p : PAddr),
    s.port2 = none → s.upset ≠ some .write → s.agenda = .landStore id ((as.map (·.parts.length)).sum + j) :: rest → s.flight? id = some f →
    f.refetch = none → f.op = .lateLoad sc (as ++ l :: zs) → l.parts[j]? = some x → x.place = some (.mem p) → x.got = none →
    let r := s.loadCached f.cu sc p x.len
    let waits := fun (m : LatePart) => m.place.isSome = true ∧ m.got = none
    (l.apart = true → (∀ m ∈ l.parts, waits m → x.elem ≤ m.elem) → r.2.1 = false →
      ∃ t, step s = .next t ∧ { t with clock := s.clock, agenda := s.agenda, cus := s.cus, flights := s.flights } = s ∧ CusKept s t ∧
        (∀ k, k ≠ id → t.flight? k = s.flight? k) ∧
        t.flight? id = some { f with op := .lateLoad sc (as ++ { l with parts := l.parts.set j { x with got := some r.1 } } :: zs) }) ∧
    (l.apart = false ∨ (∃ m ∈ l.parts, waits m ∧ m.elem < x.elem) → step s = .next { s with clock := s.clock + 1, agenda := rest })) ∧
  (∀ (cu part slot lane : Nat) (pc : Word64) (add : Int) (s : State) (rest : List Act), s.port2 = none →
    s.agenda = .readEarly cu part slot lane pc add :: rest →
    ∃ t, step s = .next t ∧ { t with clock := s.clock, agenda := s.agenda, early := s.early } = s ∧
      (t.early = s.early ∨ ∃ r p sc, t.early = r :: s.early.filter (fun x => !(x.order == r.order && x.lane == lane && x.pc == pc)) ∧
        r.lane = lane ∧ r.pc = pc ∧ r.part.place = some (.mem p) ∧ (∃ g, s.group? cu part slot = some g ∧ r.order = g.order) ∧
        r.part.got = some (s.peek cu sc p r.part.len).1 ∧ (s.peek cu sc p r.part.len).2 = false)) ∧
  (∀ (s : State) (e e1 : Env) (i : Instr), s.env? = some e → (s.flights.map (·.id)).Nodup →
    State.env? (((s.withEnv (·.forgetEarly i)).withEnv (·.settleClaims i)).withEnv (·.settleIndex i)) = some e1 →
    let held := (s.orderFor i).flights.filter fun f => f.op.isLate && e.mine f
    (memOrder i = .all → held = []) ∧
    (∀ a b, memOrder i = .fence a b → ∀ f ∈ held, (a = true → f.op.lateStores = true) ∧ (b = true → f.fenced = true)) ∧
    (memOrder i = .reads ∨ memOrder i = .writes → ∀ f ∈ held, f.touches ((e1.names i).flatMap e1.places) = false) ∧
    (memOrder i = .writes → ∀ f ∈ held, f.fenced = false) ∧
    (∀ f ∈ (s.orderFor i).flights, f.op.isLate = true → f.touches (e.claims i).1 = false ∧ (f.op.lateWrites = true → f.touches (e.claims i).2 = false)) ∧
    (s.orderFor i).early = s.early.filter (e.keeps i) ∧
    ((∀ f ∈ s.flights, f.op.isLate = true → ∃ z ls, f.op = .lateStore z ls ∧ ∀ l ∈ ls, ∃ p, l.place = .mem p) →
      OnlyMemory s { s.orderFor i with early := s.early })) ∧
  (∀ (e : Env) (r : EarlyRead) (c : Scope) (n m : BitVec 6) (d o : BitVec 7) (b : BitVec 3) (l : BitVec 4) (g : BitVec 3) (z : Size),
    r.order = e.g.order → e.lanes.contains r.lane = true →
    ∀ i ∈ [Instr.fence .acquire c, .fence .acqRel c, .bar n m, .barw n m, .gbar, .waitc n, .cinv c, .shrWindow d o g, .shp d o g,
      .ldW d o b l c true, .ldl d o b l z, .hldScratch 0 b l], e.keeps i r = false) ∧
  ∀ (c : Scope) (n r a b d : BitVec 6) (o v x : BitVec 7) (sb : BitVec 3) (l : BitVec 4) (z : Size) (y : LAtomOp),
    memOrder (.fence .acqRel c) = .all ∧ memOrder (.fence .acquire c) = .fence true false ∧ memOrder (.fence .release c) = .fence false true ∧
    memOrder (.bar n r) = .all ∧ memOrder (.bara n r) = .all ∧ memOrder .gbar = .all ∧ memOrder (.csig a b l) = .all ∧
    memOrder (.vset a b d l) = .all ∧ memOrder (.stW v o sb l c true) = .all ∧ memOrder (.stW v o sb l c false) = .writes ∧
    memOrder (.stl v o sb l z) = .writes ∧ memOrder (.atoml v o sb l y) = .writes ∧ memOrder (.ldW x o sb l c false) = .reads ∧
    memOrder (.cpyrw a b d l) = .writes ∧ memOrder (.mchk a b d l) = .writes ∧ memOrder (.cvoy a b d l) = .writes ∧ memOrder (.cinv c) = .reads

/-- R168, R181, R182, R196, R300, R312, R322, R328, R330, R332, R335, R341: FENCE, CINV and WAITC, and the accesses that a thread holds back
or makes early. Where the spec leaves a choice, the choice is the model's: log 7, 111. -/
def Obligations.FencesAndWaits : Prop := FenceAndInvalidate ∧ WaitForCounter ∧ LateAccesses

/-- R183 to R188, R306, R318, R319: VSET, VBASE and VQRY start with their operands as read, VQRY with its sample of the view, VINV drops
every cached copy of its view. VSET stores an accepted image and answers 0, or answers 1; VBASE replaces the base and counts the version
up where the expected version is the one that stands, and answers what R185 says; VQRY answers the physical address or a code with bit
[63]. Where the spec leaves a choice, the choice is the model's: log 57, 58, 111, 112. -/
def Obligations.ViewCommands : Prop :=
  Samples ∧
  (∀ (a b c : BitVec 6) (l : BitVec 4) (s : State) (e : Env),
    (Clear s (.vset a b c l) e (viewOperand e (.vset a b c l) a ++ condIf (!canonical (e.sv b.toNat) || isView (e.sv b.toNat)) 0x10 (e.low (Taking e (.vset a b c l))) ++
        condIf (e.sv b.toNat % 128 != 0) 0x11 (e.low (Taking e (.vset a b c l)))) →
      (∃ p, s.translate e.iss.cu e.l.ctx (e.sv b.toNat) .read = .ok p) → ViewStarts s s e (.vset a b c l) 0 a (sword e b) 0 c none) ∧
    (Clear s (.vbase a b c l) e (viewOperand e (.vbase a b c l) a) → ViewStarts s s e (.vbase a b c l) 1 a (sword e b) (sword e c) c none) ∧
    (∀ d s0, s.sample e.iss.cu e.l.ctx ((sword e a).extractLsb' 0 12).toNat = (some d, s0) →
      Clear s (.vqry a b c l) e (viewOperand e (.vqry a b c l) a ++ condIf ((sword e b).extractLsb' 40 24 != 0) 0x17 (e.low (Taking e (.vqry a b c l)))) →
      ViewStarts s s0 e (.vqry a b c l) 3 a (sword e b) 0 c d) ∧
    (Clear s (.vinv a l) e (viewOperand e (.vinv a l) a) → ∃ t, exec (.vinv a l) s = .next t ∧ Advanced s t e (.vinv a l) ∧
      { t with groups := s.groups, viewCache := s.viewCache } = s ∧ CopiesDropped s t e.l.ctx ((sword e a).extractLsb' 0 12).toNat)) ∧
  ∀ (k : Nat) (s : State) (f : Flight) (v : ViewOp), s.flight? k = some f → f.fault = none → f.refetch = none → f.op = .view v →
    let q := s.viewEntry f.ctx v.view
    (∀ p, v.fn = 0 → s.translate f.cu f.ctx v.eb.toNat .read = .ok p →
      let part := fun (n : Nat) => s.peek f.cu v.scope ⟨p.space, p.addr + 32 * n⟩ 32
      let bs := (part 0).1 ++ (part 1).1 ++ (part 2).1 ++ (part 3).1
      (∀ n < 4, (part n).2 = false) → bs.length = 128 →
      let ok := if (viewOfBytes bs).valid then (viewOfBytes bs).configured s.bar0.nodeid else bs.all (· == 0)
      (ok = true → ∃ t, exec (.viewCommandComplete k) s = .next t ∧ OnlyWrites s t ∧ WritesAt s t q bs ∧ ViewEnds s t f v 0 ∧ CopiesDropped s t f.ctx v.view) ∧
      (ok = false → ∃ t, exec (.viewCommandComplete k) s = .next t ∧ { t with groups := s.groups, flights := s.flights } = s ∧ ViewEnds s t f v 1)) ∧
    (v.fn = 1 → (s.loadPhys q 128).2 = false →
      let d := viewOfBytes (s.loadPhys q 128).1
      let ver := d.version.toNat
      let fits := d.configured s.bar0.nodeid && d.version == v.ec.setWidth 32
      (fits = false → ∃ t, exec (.viewCommandComplete k) s = .next t ∧ { t with groups := s.groups, flights := s.flights } = s ∧ ViewEnds s t f v ver) ∧
      (fits = true → d.baseOk v.eb.toNat = false →
        ∃ t, exec (.viewCommandComplete k) s = .next t ∧ { t with groups := s.groups, flights := s.flights } = s ∧ ViewEnds s t f v (ver + 2 ^ 33)) ∧
      (fits = true → d.baseOk v.eb.toNat = true → ∃ t, exec (.viewCommandComplete k) s = .next t ∧ OnlyWrites s t ∧
        WritesAt s t q (leBytes 8 v.eb.toNat ++ leBytes 4 (ver + 1)) ∧ ViewEnds s t f v (ver + 2 ^ 32) ∧ CopiesDropped s t f.ctx v.view)) ∧
    (v.fn = 3 →
      let ends := fun (r : Nat) => ∃ t, exec (.viewCommandComplete k) s = .next t ∧
        { t with groups := s.groups, flights := s.flights, cus := s.cus } = s ∧ CusKept s t ∧ ViewEnds s t f v r
      (v.sampled = none → ends (2 ^ 63 + 1)) ∧ (∀ w, v.sampled = some w → w.coords v.eb.toNat = none → ends (2 ^ 63 + 4)) ∧
      ∀ w c b n, v.sampled = some w → w.coords v.eb.toNat = some (c, b) →
        (match w.indexAddr c with
          | none => Except.ok 0
          | some a => s.indexWord f.cu f.cu f.ctx v.scope w a) = Except.ok n →
        ends (match w.place c b n with
          | .code cc => 2 ^ 63 + cc
          | .padded => 2 ^ 63 + 3
          | .at_ a => a))

/-- R188 to R195, R290, R292: a lighter command starts with DEST entries and absent lines where it will write, or, for CPYO, with a SRC
entry on its source; a CPY without lanes and a CPYM without teams only count. CSIG lowers a counter by its amount. Where the spec leaves
a choice, the choice is the model's: log 53, 56, 118. -/
def Obligations.CopiesStart : Prop :=
  (∀ (d o : BitVec 7) (b : BitVec 3) (l : BitVec 4) (z : CopySize) (s : State) (e : Env),
    let i : Instr := .cpy d o b l z
    let n := copyBytes z
    let xs := e.cpyLanes d o b
    let sm := (e.sampled (e.advance (e.shape i)) (xs.map (·.2.1))).1
    let s0 := (e.sampled (e.advance (e.shape i)) (xs.map (·.2.1))).2
    let runs := e.cpyRuns d o b z
    Clear s i e (xs.flatMap fun x => rangeConds (e.sampled s (xs.map (·.2.1))).1 x.1 n n x.2.1 ++ e.scrConds n n false [(x.1, (x.2.2 : Int))]) →
    sm.marked = [] → e.team.cu = e.iss.cu →
    (xs = [] → ∃ t, exec i s = .next t ∧ CounterDown (e.advance (e.shape i)) t e.l.ctx e.h.counter) ∧
    (xs ≠ [] → ∃ t, exec i s = .next t ∧ Starts s s0 t e i
      (.copy { kind := .cpy, pieces := xs.filterMap fun x => ((goodVA x.2.1).bind sm.ref).map fun r => ⟨r, x.2.2, n⟩, rows := none, targets := [e.team.id],
               todo := (linesCovered runs).map fun k => (e.team.id, k), counter := e.h.counter, buf := [] })
      (runs.map fun r => lockOf .dest s.nextFlight e.team.id r.1 r.2) runs)) ∧
  (∀ (a b c : BitVec 6) (l : BitVec 4) (s : State) (e : Env),
    let i : Instr := .cpym a b c l
    let dst := ((sword e b).extractLsb' 0 20).toNat
    let n := ((sword e b).extractLsb' 32 32).toNat
    let sm := (e.sampled (e.advance (e.shape i)) [(e.sv a.toNat : Int)]).1
    let s0 := (e.sampled (e.advance (e.shape i)) [(e.sv a.toNat : Int)]).2
    let ts := (e.castTeams (e.sv c.toNat)).map (·.id)
    Clear s i e (rangeConds (e.sampled s [(e.sv a.toNat : Int)]).1 (e.low (Taking e i)) 16 (goodLen (e.sv b.toNat)) (e.sv a.toNat) ++
      e.rangeIn (Taking e i) dst n 16 ++ condIf (badLen (e.sv b.toNat) || (sword e c).extractLsb' 16 48 != 0) 0x17 (e.low (Taking e i))) →
    sm.marked = [] → ts.Nodup →
    (ts = [] → ∃ t, exec i s = .next t ∧ CounterDown s0 t e.l.ctx e.h.counter) ∧
    (ts ≠ [] → ∃ t, exec i s = .next t ∧ Advanced s t e i ∧ OnlyEngine s t ∧ t.viewCache = s0.viewCache ∧ t.nextFlight = s.nextFlight + 1 ∧
      t.flights = s.flights ++ [flightOf e s (.copy
        { kind := .cpym, pieces := [⟨(sm.ref (e.sv a.toNat)).getD (.mem 0), dst, n⟩], rows := none, targets := ts,
          todo := ts.flatMap fun t => (linesOf dst n).map fun k => (t, k), counter := e.h.counter, buf := [] })] ∧
      (∀ k, t.team? k = (s.team? k).map fun m => if k ∈ ts then { m with absent := (linesOf dst n).foldl insertNat m.absent } else m) ∧
      ∀ k, t.cu? k = (s0.cu? k).map fun u => { u with locks := u.locks ++
        (ts.filter fun j => (s.team? j).map (·.cu) == some k).map fun j => lockOf .dest s.nextFlight j dst n })) ∧
  (∀ (a b : BitVec 6) (l : BitVec 4) (s : State) (e : Env),
    let i : Instr := .cpyo a b l
    let src := ((sword e b).extractLsb' 0 20).toNat
    let n := ((sword e b).extractLsb' 32 32).toNat
    let va := e.sv a.toNat
    let last := va + goodLen (e.sv b.toNat) - 1
    Clear s i e (condIf (!canonical va || isView va || !canonical last || isView last) 0x10 (e.low (Taking e i)) ++ condIf (va % 16 != 0) 0x11 (e.low (Taking e i)) ++
      e.rangeIn (Taking e i) src n 16 ++ condIf (badLen (e.sv b.toNat)) 0x17 (e.low (Taking e i))) →
    ∃ t, exec i s = .next t ∧ Starts s s t e i
      (.copy { kind := .cpyo, pieces := [⟨.mem va, src, n⟩], rows := none, targets := [e.team.id],
               todo := (linesOf src n).map fun k => (e.team.id, k), counter := e.h.counter, buf := [] })
      [lockOf .src s.nextFlight e.team.id src n] []) ∧
  (∀ (a b c : BitVec 6) (l : BitVec 4) (s : State) (e : Env),
    let i : Instr := .cpyrw a b c l
    let va := e.sv a.toNat
    let sm := (e.sampled (e.advance (e.shape i)) [(va : Int)]).1
    let s0 := (e.sampled (e.advance (e.shape i)) [(va : Int)]).2
    let r : RowCopy := { rows := ((sword e b).extractLsb' 40 17).toNat, man := ((sword e b).extractLsb' 0 20).toNat, dst := ((sword e b).extractLsb' 20 20).toNat,
                         kmax := ((sword e c).extractLsb' 48 16).toNat, rowlen := ((sword e c).extractLsb' 32 16).toNat,
                         stride := ((sword e c).extractLsb' 0 32).toNat, base := (sm.ref va).getD (.mem 0) }
    Clear s i e (condIf (!canonical va) 0x10 (e.low (Taking e i)) ++
      condIf (canonical va && ((e.sampled s [(va : Int)]).1.ref va).isNone && !(e.sampled s [(va : Int)]).1.marked.contains (viewNum va)) 0x14 (e.low (Taking e i)) ++
      condIf (e.team.scr < r.dst + r.kmax * r.rowlen || e.team.scr < r.man + manMS r.rows) 0x12 (e.low (Taking e i)) ++
      condIf (r.badField (e.sv b.toNat)) 0x17 (e.low (Taking e i))) →
    sm.marked = [] → e.team.cu = e.iss.cu →
    ∃ t, exec i s = .next t ∧ Starts s s0 t e i
      (.copy { kind := .cpyrw, pieces := [], rows := some r, targets := [e.team.id],
               todo := (linesOf r.dst (r.kmax * r.rowlen)).map fun k => (e.team.id, k), counter := e.h.counter, buf := [] })
      [lockOf .dest s.nextFlight e.team.id r.dst (r.kmax * r.rowlen)] [(r.dst, r.kmax * r.rowlen)]) ∧
  ∀ (a b : BitVec 6) (l : BitVec 4) (s : State) (e : Env),
    Clear s (.csig a b l) e (condIf ((sword e a).extractLsb' 15 49 != 0) 0x17 (e.low (Taking e (.csig a b l)))) →
    ∃ t, exec (.csig a b l) s = .next t ∧ CounterMoves (e.advance (e.shape (.csig a b l))) t e.l.ctx ((sword e a).extractLsb' 0 12).toNat
      fun v => v - (sword e b).setWidth 32

/-- R171, R189, R190, R193, R194: a line that may land takes the bytes of all its runs, and no other byte changes; it is present then,
unless another operation still writes it, and what waits for it goes on; a source line of CPYO is written to memory, or read early with
all that are left; a command that owes nothing ends, its entries go, lines that it kept absent are present, and its counter goes down.
Where the spec leaves a choice, the choice is the model's: log 48, 49, 55, 63. -/
def Obligations.CopiesLand : Prop :=
  (∀ (k team line : Nat) (s : State) (f : Flight) (l : Launch), s.flight? k = some f → f.fault = none → f.refetch = none → s.launch? f.launch = some l →
    CopyLands s f l .home team line (fun t => exec (.lineLands k team line) s = .next t) ∧
    CopyLeaves s f team line fun t => exec (.lineLands k team line) s = .next t) ∧
  (∀ (k : Nat) (s : State) (f : Flight) (c : CopyOp),
    s.flight? k = some f → f.fault = none → f.refetch = none → f.op = .copy c → c.kind = .cpyo → c.unread ≠ [] →
    (∀ x ∈ c.unread, s.linesReady k x.1 (128 * x.2) 128 .src = true) →
    let got := c.unread.filterMap fun x => (c.pieces.findSome? fun p => p.inLine x.2).map fun p => (x.2, s.scrMarked x.1 p.scr p.len)
    ∃ t, exec (.lastSourceRead k) s = .next t ∧ { t with cus := s.cus, flights := s.flights } = s ∧
      t.cus = (s.cus.map fun c => { c with locks := c.locks.filter (·.owner != k) }) ∧ (∀ j, j ≠ k → t.flight? j = s.flight? j) ∧
      t.flight? k = some { f with op := .copy { c with buf := c.buf ++ got } }) ∧
  (∀ (k : Nat) (s : State) (f : Flight) (c0 c : CopyOp),
    s.flight? k = some f → f.fault = none → f.refetch = none → f.op = .copy c0 → s.opened f c0 = some (.ok c) → (∀ x ∈ c.todo, c.owes x.1 = false) →
    ∃ t, exec (.copyCommandComplete k) s = .next t ∧ CounterDown (c.todo.foldl (fun m x => m.setPresent x.1 [x.2]) (without s k)) t f.ctx c.counter) ∧
  ∀ (team : Nat) (lines : List Nat) (s : State) (m0 : Team), s.team? team = some m0 →
    ∃ s1 m, s.setPresent team lines = s1.unparkTeam team ∧ { s1 with groups := s.groups, teams := s.teams, cus := s.cus } = s ∧ CusKept s s1 ∧
      s1.groups.map forgetWaits = s.groups.map forgetWaits ∧ (∀ j, j ≠ team → s1.team? j = s.team? j) ∧ s1.team? team = some m ∧
      { m with absent := m0.absent } = m0 ∧
      (∀ n, n ∈ m.absent ↔ n ∈ m0.absent ∧ (n ∈ lines → ∃ f ∈ s.flights, (team, n) ∈ f.pendingLines)) ∧
      (∀ g ∈ s1.groups, ∀ k x lo len, g.team = team → g.thread? k = some x → x.wait = .presence lo len → s1.present team lo len = false) ∧
      ((∀ g ∈ s1.groups, ∀ k x op, g.thread? k = some x → x.wait = .line op → ∃ r ∈ op.ranges, s1.present g.team r.1 r.2 = false) →
        s.setPresent team lines = s1)

/-! ### Berths and the convoy -/

namespace Sys2Proof.Claims

/-- The entries that a CU's berths hold for a launch and an entry address, those of groups that wait for room included (R268, R271). -/
def heldFor (c : Cu) (lid : Nat) (entry : Word64) : List Deposit :=
  c.berths.flatMap fun b => b.elim [] fun b => if b.launch = lid ∧ b.entry = entry then b.entries ++ b.due.flatten else []

/-- The deposits of an issue, in ascending lane order, with the arrival numbers from the CU's next one on (R228, R229). -/
def made (e : Env) (d a : BitVec 7) (g : BitVec 3) : List Deposit :=
  (e.takers (.pred g)).zipIdx.map fun p =>
    { key := word e a p.1.2, team := p.1.2.tieTeam, thread := p.1.2.tieThread, owner := e.team.id,
      arrival := ((e.s.cu? e.iss.cu).map (·.arrival)).getD 0 + p.2, payload := e.words (.block d.toNat 8) p.1.2 }

/-- The issuing CU's berths have taken `ds`, of which it counted `n` arrivals: nothing is lost or made, no berth of the launch keeps 32
entries, and nothing else of the CUs but caches differs (R229, R268, R269). -/
def BerthsTake (s t : State) (e : Env) (entry : Word64) (ds : List Deposit) (n : Nat) : Prop :=
  (∀ k, k ≠ e.iss.cu → (t.cu? k).map (fun c => { c with l1 := [] }) = (s.cu? k).map fun c => { c with l1 := [] }) ∧
  ∀ c, s.cu? e.iss.cu = some c → ∃ c', t.cu? e.iss.cu = some c' ∧ { c' with berths := c.berths, arrival := c.arrival, l1 := c.l1 } = c ∧
    c'.arrival = c.arrival + n ∧ (∀ b, some b ∈ c'.berths → b.launch = e.l.id → b.entries.length < 32) ∧
    ((∀ b, some b ∈ c.berths → (b.entries ++ ds).Nodup) → ∀ lid x,
      (heldFor c' lid x).Perm (heldFor c lid x ++ if lid = e.l.id ∧ x = entry then ds else []))

/-- What a deposit needs (R229, R272): the berths have room for all of `ds`, or the rest has been written to the ring, which gives
`s2`. -/
def Deposited (s1 s2 : State) (e : Env) (entry : Word64) (ds : List Deposit) (room : Nat) : Prop :=
  (ds.length ≤ room ∧ s2 = s1) ∨
  (room < ds.length ∧ ∃ h tail, s1.ringPtrs e.iss.cu e.l = .ok (some (h, tail)) ∧ s1.ringPut e.iss.cu e.l entry tail (ds.drop room) = .ok s2)

/-- A berth has launched all its entries, in order, as groups of up to 32 (R269). -/
def LaunchedAll (l : Launch) (b : Berth) (b' : Option Berth) : Prop :=
  (b.held = 0 → b' = none) ∧ (b.held ≠ 0 → ∃ x gs, b' = some x ∧ x = { b with entries := [], timer := false, due := b.due ++ gs } ∧
    gs.flatten = l.ordered b.entries ∧ ∀ g ∈ gs, g.length ≤ 32 ∧ g ≠ [])

/-- In CU `cu` the berths that satisfy `p` have launched all, and nothing else differs. -/
def BerthsLaunch (s t : State) (cu : Nat) (l : Launch) (p : Nat → Berth → Bool) : Prop :=
  { t with cus := s.cus } = s ∧ (∀ k, k ≠ cu → t.cu? k = s.cu? k) ∧
  ∀ c, s.cu? cu = some c → ∃ c', t.cu? cu = some c' ∧ { c' with berths := c.berths } = c ∧ c'.berths.length = c.berths.length ∧
    ∀ n b, c.berths[n]? = some b → ∀ b', c'.berths[n]? = some b' →
      (∀ x, b = some x → p n x = true → x.entries.length ≤ 64 → LaunchedAll l x b') ∧ ((∀ x, b = some x → p n x = false) → b' = b)

/-- Memory, contexts and operations in flight apart, nothing differs. -/
def OnlyModule (s t : State) : Prop :=
  { t with dram := s.dram, dramBad := s.dramBad, zeroFlags := s.zeroFlags, hostMem := s.hostMem, hostBad := s.hostBad, peers := s.peers, ctxs := s.ctxs, flights := s.flights } = s

/-- The ticket of a collective has this status and code (R247); of the contexts nothing else differs, but for marks of which preserved pages
have been copied. -/
def TicketIs (s t : State) (ctx g seq st code : Nat) : Prop :=
  (t.ctxs.map fun c => { forgetCopied c with tickets := [] }) = (s.ctxs.map fun c => { forgetCopied c with tickets := [] }) ∧
  ∀ k, (t.ctx? k).map (·.tickets) = (s.ctx? k).map fun c =>
    if k = ctx then c.tickets.map fun x => if x.1 = g ∧ x.2.1 = seq then (g, seq, st, code) else x else c.tickets

/-- The next sequence number of a convoy group has been taken, with a ticket that reads 0; of the group those of the last 256 sequence numbers
stay, and those of every other group; of the contexts nothing else differs (R242, R247). -/
def TakesTicket (s t : State) (ctx g seq : Nat) : Prop :=
  ∀ c, s.ctx? ctx = some c → ∃ c', t.ctx? ctx = some c' ∧ { c' with seqs := c.seqs, tickets := c.tickets } = c ∧
    c'.tickets = (c.tickets.filter fun x => x.1 != g || ((seq + 1) % 2 ^ 32 + 2 ^ 32 - x.2.1) % 2 ^ 32 ≤ 256) ++ [(g, seq, 0, 0)] ∧
    (∀ j, lookupKey c'.seqs j = if j = g then some ((seq + 1) % 2 ^ 32) else lookupKey c.seqs j) ∧ ∀ k, k ≠ ctx → t.ctx? k = s.ctx? k

/-- A failed collective is in flight no more, its destination holds a mix of old and new bytes, and its ticket has its code; a byte that
differs lies where a byte of the destination was translated to, and nothing else differs (R246). -/
def CollectiveFails (s t : State) (f : Flight) (o : ConvoyOp) (code : Nat) : Prop :=
  let u := s.mixDest f o
  OnlyModule s { u with free := s.free } ∧ u.flights = s.flights ∧ CtxsKept s u ∧
  (∀ p : PAddr, NoShadow s p 1 → (u.memOf p.space).get p.addr ≠ (s.memOf p.space).get p.addr →
    ∃ k v, k < o.destLen ∧ OnlyMemory s v ∧ v.translate (256 + f.cu / 64) f.ctx (o.dst + k) .write = .ok p) ∧
  { t with ctxs := u.ctxs, flights := u.flights } = u ∧ t.flights = s.flights.filter (·.id != f.id) ∧ TicketIs u t f.ctx o.group o.seq 2 code

/-- Memory, contexts and the harbourmaster's watchdogs apart, nothing differs. -/
def OnlyGraph (s t : State) : Prop :=
  { t with dram := s.dram, dramBad := s.dramBad, zeroFlags := s.zeroFlags, hostMem := s.hostMem, hostBad := s.hostBad, peers := s.peers, ctxs := s.ctxs, hmExpired := s.hmExpired } = s

/-- A walk that goes on at a successor: 0 returns to the WHILE node around, or ends the graph (R387). -/
def gone (w : Walk) (next : Nat) : Walk :=
  { w with node := if next = 0 then w.stack.headD 0 else next, phase := .fresh, next := 0, waiting := none, released := false }

/-- A node ends with a STATUS, and the walk of its queue is `w` then; where that stands at no node and no ASYNC node is outstanding the
graph has ended and HEAD advances (R385 to R387). -/
def NodeEnds (s t : State) (ctx q node st : Nat) (w : Walk) : Prop :=
  ∀ c x p, s.queue? ctx q = some (c, x) → c.frozen = false → x.parked = false → x.owed = [] →
    (node + 4) % 4096 + 4 ≤ 4096 → s.translate 256 ctx (node + 4) .write = .ok p →
    OnlyGraph s t ∧ (¬(w.node = 0 ∧ w.asyncs = []) → WritesAt s t p (leBytes 4 st) ∧ (t.queue? ctx q).map (·.2) = some { x with walk := some w }) ∧
    (w.node = 0 → w.asyncs = [] →
      let h : PAddr := ⟨.dram, x.entry.addr⟩
      (t.queue? ctx q).map (·.2) = some { x with walk := none } ∧
      (Writable s p 4 → Writable s h 8 → (p.space = .dram → overlap p.addr 4 h.addr 8 = false) →
        (t.memOf p.space).read p.addr 4 = leBytes 4 st ∧ t.dram.num h.addr 8 = (s.dram.num h.addr 8 + 1) % 2 ^ 64))

/-- Fold from the first in order. -/
def fold1 (f : Nat → Nat → Nat) : List Nat → Nat
  | [] => 0
  | x :: xs => xs.foldl f x

/-- One step of the combination of a type (R244): the FP32 sum to nearest even, the sums modulo 2^32 and 2^64, the FP32 maximum. -/
def stepOf (type c x : Nat) : Nat :=
  if type = 0 then (fAdd32 .rne c x).pat else if type = 1 then (c + x) % 2 ^ 32 else if type = 2 then (c + x) % 2 ^ 64 else (minMaxFP fp32 true c x).pat

/-- Element `k` of `w` bytes after offset `off`. -/
def elemAt (d : List Byte) (off w k : Nat) : Nat := leNat ((d.drop (off + w * k)).take w)

/-- The norm (R245): the members' binary64 sums in ascending rank, each the sum from +0 over the elements of its part, ascending, of the
square of the combined FP32 element. -/
def normSum (members len : Nat) (data : List (List Byte)) : Nat :=
  let n := len / members
  fold1 (fun a b => (eAdd fp64 .rne a b).pat) ((List.range members).map fun q => (List.range (n / 4)).foldl (fun m k =>
    let x := fp32.decode (fold1 (stepOf 0) (data.map fun d => elemAt d (q * n) 4 k))
    (eAdd fp64 .rne m (mulFP fp64 .rne x x).pat).pat) 0)

/-- A collective in flight that has not failed, whose ring successor a port reaches, and the data of each member, all of which
has come (R244, R411). -/
def Gathered (s : State) (k : Nat) (f : Flight) (o : ConvoyOp) (data : Nat → MarkedBytes) : Prop :=
  s.flight? k = some f ∧ f.fault = none ∧ f.refetch = none ∧ f.op = .convoy o ∧ o.fail = 0 ∧ s.ringOpen o = true ∧
  ∃ own, s.convoySource f o = .ok own ∧ ∀ r < o.members, o.data own r = some (data r)

/-- A walk once a node of run `run` has ended: it goes on where it stood at the node, an ASYNC node is outstanding no more, and the walk
of another run is as it was (R387). -/
def left (w : Walk) (run n : Nat) (isAsync : Bool) : Walk :=
  if w.run ≠ run then w else if isAsync then { w with asyncs := w.asyncs.erase n } else if w.node = n ∧ w.phase = .running then gone w w.next else w

/-- What follows the end of a collective: nothing where a group issued it; the node of a queue completes (R387). -/
def EndsFor (s t : State) (ctx : Nat) (node : Option (Nat × Nat × Nat × Bool)) : Prop :=
  (node = none → t = s) ∧ ∀ q run n isAsync, node = some (q, run, n, isAsync) → ∀ c x w, s.queue? ctx q = some (c, x) → x.walk = some w →
    NodeEnds s t ctx q n 1 (left w run n isAsync)

end Sys2Proof.Claims

/-- R228, R229, R232, R266, R268, R269: SPAWN and PARK hand over one deposit of each lane that takes part; PARK ends those lanes. SPAWN of a
launch that has stopped in the same cycle hands over none. The order in which a berth launches its entries is a permutation that rises
by key and then by tiebreak. Where the spec leaves a choice, the choice is the model's: log 29, 109, 112. -/
def Obligations.BerthDeposits : Prop :=
  (∀ (d a b : BitVec 7) (g : BitVec 3) (s s2 : State) (e : Env),
    let i : Instr := .spawn d a b g
    let entry := BitVec.ofNat 64 (e.sv (b.toNat - 96))
    let room := ((s.cu? e.iss.cu).map fun c => c.berthRoom e.l.id entry).getD 0
    let ds := made e d a g
    Clear s i e (e.depositConds b (Taking e i)) → (e.l.stop ≠ none → ThreadsBecome s e i fun _ _ t => t) ∧ (e.l.stop = none → Deposited (e.advance (e.shape i)) s2 e entry ds room →
      ∃ t, exec i s = .next t ∧ { t with cus := s2.cus } = s2 ∧ BerthsTake s2 t e entry (ds.take room) ds.length)) ∧
  (∀ (d a b : BitVec 7) (g : BitVec 3) (s s2 : State) (e : Env),
    let i : Instr := .park d a b g
    let entry := BitVec.ofNat 64 (e.sv (b.toNat - 96))
    let room := ((s.cu? e.iss.cu).map fun c => c.berthRoom e.l.id entry).getD 0
    let ds := made e d a g
    Clear s i e (e.depositConds b (Taking e i) ++ (Taking e i).filterMap fun k => if (e.thread k).any (·.melded) then some (laneCond 0x0A k) else none) →
    e.l.stop = none → Deposited (e.advance (e.shape i)) s2 e entry ds room →
    ∃ t, exec i s = .next t ∧ { t with cus := s2.cus, groups := s2.groups, teams := s2.teams, launches := s2.launches } = s2 ∧
      BerthsTake s2 t e entry (ds.take room) ds.length ∧ (∀ k ∈ Taking e i, laneIn t e k = none) ∧
      ∀ k, k ∉ Taking e i → (laneIn t e k).map (fun x => { x with wait := .ready }) = (laneIn s2 e k).map fun x => { x with wait := .ready }) ∧
  ∀ (l : Launch) (ds : List Deposit), (l.ordered ds).Perm ds ∧ (l.ordered ds).Pairwise fun x y =>
    x.key < y.key ∨ (x.key = y.key ∧ if bitOf l.hdr.flags 2 then x.team < y.team ∨ (x.team = y.team ∧ x.thread ≤ y.thread) else x.arrival ≤ y.arrival)

/-- R229, R230, R234, R269 to R273: BFLUSH, an expired timer and a CU without a running group of the launch launch all that a berth holds,
in order; a drain moves the ring's entry at HEAD into a berth; and a launched group that finds room starts with its entries in its
lanes. Where the spec leaves a choice, the choice is the model's: log 25, 28, 62, 109. -/
def Obligations.BerthLaunches : Prop :=
  (∀ (a : BitVec 6) (l : BitVec 4) (s : State) (e : Env), Clear s (.bflush a l) e [] →
    ∃ t, exec (.bflush a l) s = .next t ∧ BerthsLaunch (State.drainAll e.iss.cu e.l 1024 (e.advance (e.shape (.bflush a l)))) t e.iss.cu e.l
      fun _ b => b.launch == e.l.id && (sword e a == 0 || b.entry == sword e a)) ∧
  (∀ (s : State) (l : Launch), l.hdr.ring = 0 → ∀ cu n, State.drainAll cu l n s = s ∨ s.launch? l.id ≠ some l) ∧
  (∀ (cu n : Nat) (s : State) (b : Berth) (l : Launch), s.berthLaunch cu n = some (b, l) →
    (b.timer = true → ∃ t, exec (.berthTimerExpiry cu n) s = .next t ∧ BerthsLaunch s t cu l fun k _ => k == n) ∧
    (s.runningOn cu l.id = false → b.entries ≠ [] →
      ∃ t, exec (.berthIdleLaunch cu n) s = .next t ∧ BerthsLaunch (State.drainAll cu l 1024 s) t cu l fun k _ => k == n)) ∧
  (∀ (cu lid h tail : Nat) (s s1 : State) (l : Launch) (c : Cu) (p : PAddr), s.launch? lid = some l → l.hdr.ring ≠ 0 → l.stop = none →
    s.ringStalled cu l = false → s.cu? cu = some c → s.ringPtrs cu l = .ok (some (h, tail)) → h ≠ tail →
    s.translate cu l.ctx (l.hdr.ring + cu * (64 + 64 * 2 ^ l.hdr.ringlog) + 64 + 64 * (h % 2 ^ l.hdr.ringlog)) .read = .ok p →
    let bs := (s.loadPhys p 64).1
    let entry := BitVec.ofNat 64 (numAt bs 0 8)
    numAt bs 18 6 = 0 → 0 < c.berthRoom l.id entry → s.cuWrite cu l.ctx (l.hdr.ring + cu * (64 + 64 * 2 ^ l.hdr.ringlog)) (leBytes 8 (h + 1)) = .ok s1 →
    ∃ t d, exec (.ringDrain cu lid) s = .next t ∧ { t with cus := s1.cus, launches := s1.launches } = s1 ∧
      d = depositOf bs (s.ringOwner cu l h bs) ∧ (∀ k, k ≠ cu → t.cu? k = s.cu? k) ∧
      ∃ c', t.cu? cu = some c' ∧ { c' with berths := c.berths } = c ∧ ((∀ b, some b ∈ c.berths → (b.entries ++ [d]).Nodup) → ∀ lid x,
        (heldFor c' lid x).Perm (heldFor c lid x ++ if lid = l.id ∧ x = entry then [d] else []))) ∧
  ∀ (cu n slot base : Nat) (s : State) (b : Berth) (l : Launch) (ds : List Deposit) (rest : List (List Deposit)) (d0 : Deposit) (t0 : Team) (r r' : Room),
    s.berthLaunch cu n = some (b, l) → b.due = ds :: rest → ds.head? = some d0 → s.team? d0.owner = some t0 →
    s.berthPart cu l t0 (blockFor (8 * (l.hdr.bregm + 1))) = some r → r.take (blockFor (8 * (l.hdr.bregm + 1))) = some (slot, base, r') →
    ∃ t g, exec (.berthGroupLaunch cu n) s = .next t ∧ t.groups = s.groups ++ [g] ∧ t.nextOrder = s.nextOrder + 1 ∧
      { t with groups := s.groups, cus := s.cus, nextOrder := s.nextOrder, free := s.free } = s ∧
      (g.cu, g.part, g.slot, g.launch, g.team, g.role, g.nreg, g.base, g.fresh) = (cu, r.part, slot, t0.launch, t0.id, none, 8 * (l.hdr.bregm + 1), base, true) ∧
      g.sregs = List.replicate 64 0 ∧ g.halt = none ∧ g.err = none ∧ (∀ k, ds.length ≤ k → g.thread? k = none) ∧
      (∀ k d, k < 32 → ds[k]? = some d → d.payload.length = 8 → ∃ x, g.thread? k = some x ∧ x.regs.take 9 = d.payload ++ [d.key] ∧ x.pc = b.entry ∧
        x.preds = 1 ∧ x.fx = 0 ∧ x.depth = 0 ∧ x.melded = false ∧ x.wait = .ready ∧ (x.tieTeam, x.tieThread) = (d.team, d.thread)) ∧
      ∀ k i, (k ≠ cu ∨ i ≠ n) → (t.cu? k).bind (·.berth? i) = (s.cu? k).bind (·.berth? i)

/-- R242 to R247, R413 to R415: CVOY takes the next ticket of its group, writes it to s(EC), and goes in flight; CVQRY reads a ticket's
status and code, or 3; a flit of the ring predecessor joins what has come, one of another shape fails the collective; with every
member's data the destination receives the combination, all at once or element by element, NORMA the norm, the ticket reads 1, the
counter goes down and the node completes; a failed collective leaves its code in the ticket, and its node STATUS 10 and a parked queue.
Where the spec leaves a choice, the choice is the model's: log 11, 15, 60, 61. -/
def Obligations.ConvoyCollectives : Prop :=
  (∀ (a b c : BitVec 6) (l : BitVec 4) (s : State) (e : Env) (x : Ctx) (g : ConvoyGroup),
    let i : Instr := .cvoy a b c l
    let o : ConvoyArgs := ⟨e.sv a.toNat, e.sv (a.toNat + 1), e.sv (a.toNat + 2), e.sv (a.toNat + 3)⟩
    let vb := sword e b
    let seq := (lookupKey x.seqs o.group).getD 0
    let ctr := if vb.getLsbD 15 then some ((vb.extractLsb' 0 12).toNat, Scope.ofCode (vb.extractLsb' 12 3).toNat) else none
    s.ctx? e.l.ctx = some x → s.convoyGroup x o.group = .good g →
    Clear s i e (condIf (o.badAddr (some g)) 0x10 (e.low (Taking e i)) ++ condIf o.misaligned 0x11 (e.low (Taking e i)) ++
      condIf (o.badField (some g) || vb.extractLsb' 16 48 != 0) 0x17 (e.low (Taking e i))) →
    ∃ t, exec i s = .next t ∧ { t with groups := s.groups, ctxs := s.ctxs, flights := s.flights, nextFlight := s.nextFlight } = s ∧
      SregIn s t e i c (2 ^ 32 * o.group + seq) ∧ t.flights = s.flights ++ [flightOf e s (.convoy (o.start g seq ctr none)) o.src] ∧
      TakesTicket s t e.l.ctx o.group seq) ∧
  (∀ (a c : BitVec 6) (l : BitVec 4) (s : State) (e : Env) (x : Ctx), Clear s (.cvqry a c l) e [] → s.ctx? e.l.ctx = some x →
    SregBecomes s e (.cvqry a c l) c (match x.tickets.find? fun k => 2 ^ 32 * k.1 + k.2.1 == (sword e a).toNat with
      | some k => k.2.2.1 + 2 ^ 8 * k.2.2.2
      | none => 3)) ∧
  (∀ (x : Flit) (s : State) (c : Ctx) (f : Flight) (o : ConvoyOp),
    (s.ctxs.find? fun c => bitOf c.desc.fabtag 15 && field c.desc.fabtag 0 12 == x.ctx) = some c → s.flights.find? (·.takesFlit c.id x) = some f →
    s.flight? f.id = some f → f.op = .convoy o → o.fail = 0 →
    let fits := x.node = o.nodes.getD ((o.rank + o.members - 1) % o.members) 0 ∧ x.op = o.op ∧ x.type = o.type ∧ x.norm = o.norm ∧ x.len = o.len
    ∃ t o', exec (.convoyFlitReceive x) s = .next t ∧ { t with flights := s.flights } = s ∧ t.flight? f.id = some { f with op := .convoy o' } ∧
      (∀ j, j ≠ f.id → t.flight? j = s.flight? j) ∧ { o' with got := o.got, fail := o.fail } = o ∧ (¬fits → o'.fail = 1 ∧ o'.got = o.got) ∧
      (fits → x.fail ≠ 0 → o'.fail = x.fail ∧ o'.got = o.got) ∧
      (fits → x.fail = 0 → x.rank < o.members → x.rank ≠ o.rank → x.offset + x.data.length ≤ o.len →
        o'.fail = 0 ∧ o'.got = o.got ++ [(x.rank, x.offset, x.data, x.marked)])) ∧
  (∀ (k : Nat) (s : State) (f : Flight) (o : ConvoyOp) (data : Nat → MarkedBytes) (q : PAddr), Gathered s k f o data → o.wrote = [] →
    let bs := (o.result ((List.range o.members).map data)).map (·.1)
    s.translate (256 + f.cu / 64) f.ctx o.dst .write = .ok q → o.dst % 4096 + bs.length ≤ 4096 → q.addr % 4096 = o.dst % 4096 →
    (o.norm = false → ∃ t s1 s2, exec (.collectiveComplete k) s = .next t ∧ OnlyModule s s1 ∧ WritesAt s s1 q bs ∧ s1.flights = s.flights.filter (·.id != k) ∧
      TicketIs s s1 f.ctx o.group o.seq 1 0 ∧ CounterDown s1 s2 f.ctx o.counter ∧ EndsFor s2 t f.ctx o.node) ∧
    (o.norm = true → o.type = 0 → o.norma % 4096 + 8 ≤ 4096 → ∃ s1, s.putDest f o (o.result ((List.range o.members).map data)) = .go s1 ∧
      OnlyModule s s1 ∧ CtxsKept s s1 ∧ WritesAt s s1 q bs ∧ s1.flights = s.flights ∧
      ∀ p, s1.translate (256 + f.cu / 64) f.ctx o.norma .write = .ok p → ∃ t s2 s3, exec (.collectiveComplete k) s = .next t ∧ OnlyModule s1 s2 ∧
        WritesAt s1 s2 p (leBytes 8 (normSum o.members o.len ((List.range o.members).map fun r => (data r).map (·.1)))) ∧
        s2.flights = s.flights.filter (·.id != k) ∧ TicketIs s s2 f.ctx o.group o.seq 1 0 ∧ CounterDown s2 s3 f.ctx o.counter ∧ EndsFor s3 t f.ctx o.node)) ∧
  (∀ (id k : Nat) (s : State) (f : Flight) (o : ConvoyOp) (data : Nat → MarkedBytes) (q : PAddr) (rest : List Act), Gathered s id f o data →
    let s0 := { s with clock := s.clock + 1, agenda := rest }
    let w := if o.type = 2 then 8 else 4
    s.port2 = none → s.agenda = .landElement id k :: rest → k < o.destLen / w → k ∉ o.wrote →
    s.translate (256 + f.cu / 64) f.ctx (o.dst + w * k) .write = .ok q → (o.dst + w * k) % 4096 + w ≤ 4096 →
    ∃ t, step s = .next t ∧ OnlyModule s0 t ∧ CtxsKept s t ∧
      WritesAt s0 t q (((((o.result ((List.range o.members).map data)).map (·.1)).drop (w * k))).take w) ∧
      t.flight? id = some { f with op := .convoy { o with wrote := k :: o.wrote } } ∧ ∀ j, j ≠ id → t.flight? j = s.flight? j) ∧
  (∀ (k : Nat) (s : State) (f : Flight) (o : ConvoyOp), s.flight? k = some f → f.fault = none → f.refetch = none → f.op = .convoy o → o.fail ≠ 0 → o.node = none →
    ∃ t s1, exec (.collectiveComplete k) s = .next t ∧ CollectiveFails s s1 f o o.fail ∧ Reports s1 t (some f.ctx) 2 0x15 (if o.fail = 3 then 4 else 0)) ∧
  (∀ (k q run node : Nat) (isAsync : Bool) (s : State) (f : Flight) (o : ConvoyOp) (c : Ctx), s.flight? k = some f → f.fault = none → f.refetch = none →
    f.op = .convoy o → o.fail ≠ 0 → o.node = some (q, run, node, isAsync) → s.ctx? f.ctx = some c → c.frozen = false →
    ∃ t s1, exec (.collectiveComplete k) s = .next t ∧ CollectiveFails s s1 f o o.fail ∧ ∀ x, c.queues[q]? = some x →
      (t.queue? f.ctx q).map (fun p => (p.2.parked, p.2.entry)) = some (true, x.entry) ∧
      ∀ p, s1.translate 256 f.ctx (node + 4) .write = .ok p → (node + 4) % 4096 + 4 ≤ 4096 → x.owed = [] →
        OnlyModule s1 { t with msix := s1.msix, devLost := s1.devLost } ∧ t.flights = s1.flights ∧
        (t.queue? f.ctx q).map (·.2.walk) = some (x.walk.map fun w => left w run node isAsync) ∧
        (Writable s1 p 4 → (∀ b n v, s1.errQueue (some f.ctx) = some (b, n, v) → p.space = .dram → overlap p.addr 4 b (64 + 64 * n) = false) →
          (t.memOf p.space).read p.addr 4 = leBytes 4 10)) ∧
  ∀ (o : ConvoyOp) (data : List MarkedBytes), data.length = o.members → (∀ d ∈ data, d.length = o.len) → o.members ≠ 0 →
    (o.op = 2 → o.result data = data.flatten) ∧
    (o.op ≤ 1 → o.type ≤ 3 →
      let w := if o.type = 2 then 8 else 4
      let n := if o.op = 1 then o.len / o.members else o.len
      let off := if o.op = 1 then o.rank * n else 0
      (o.result data).length = n / w * w ∧ ∀ k < n / w, off + n ≤ o.len →
        leNat ((((o.result data).map (·.1)).drop (w * k)).take w) = fold1 (stepOf o.type) (data.map fun d => elemAt (d.map (·.1)) off w k) % 2 ^ (8 * w) ∧
        ∀ b ∈ ((o.result data).drop (w * k)).take w, b.2 = data.any fun d => ((d.drop (off + w * k)).take w).any (·.2))

/-! ### Task graphs -/

namespace Sys2Proof.Claims

/-- A node of a kind stands at the walk of a queue that can go on, and the harbourmaster reads it. -/
def NodeAt (s : State) (ctx q kind : Nat) (w : Walk) (r : List Byte) : Prop :=
  (∃ c x, s.standing ctx q = some (c, x, w)) ∧ nodeAddrOk w.node = true ∧ s.hmRead ctx w.node 64 = .ok r ∧ numAt r 0 1 = kind ∧ nodeOk r = true

/-- An event that finds such a node completes it and goes on at `next`, with what it does first leading from `s` to a machine that
satisfies `first`. -/
def Completes (ev : Nat → Nat → Instr) (s : State) (ctx q : Nat) (w : Walk) (next : Nat) (first : State → Prop) : Prop :=
  ∃ t s1, exec (ev ctx q) s = .next t ∧ first s1 ∧ NodeEnds s1 t ctx q w.node 1 (gone w next)

/-- The walk of a queue once the node that it stands at runs on by itself (R387). -/
def started (w : Walk) (next : Nat) (isAsync : Bool) : Walk :=
  if isAsync then gone { w with asyncs := w.node :: w.asyncs } next else { w with phase := .running, next := next }

/-- Only contexts differ, and of those nothing but the walk of queue `q` of context `ctx`, which is `w`. -/
def WalkIs (s t : State) (ctx q : Nat) (w : Walk) : Prop :=
  { t with ctxs := s.ctxs } = s ∧ (∀ k, k ≠ ctx → t.ctx? k = s.ctx? k) ∧ ∀ c x, s.queue? ctx q = some (c, x) →
    (t.ctx? ctx).map (fun y => { y with queues := c.queues }) = some c ∧ (∀ j, j ≠ q → (t.queue? ctx j).map (·.2) = (s.queue? ctx j).map (·.2)) ∧
    (t.queue? ctx q).map (·.2) = some { x with walk := some w }

/-- A range list gives a preservation of pages (R443, R446): nothing but the preservations of the context differs. -/
def PreservesAre (s t : State) (ctx : Nat) (f : List Preserve → List Preserve) : Prop :=
  { t with ctxs := s.ctxs } = s ∧ (∀ k, k ≠ ctx → t.ctx? k = s.ctx? k) ∧ t.ctx? ctx = (s.ctx? ctx).map fun c => { c with preserves := f c.preserves }

/-- SIGNAL with an operation (R195, R387): a valid counter changes, then the node completes. -/
def Signals (ev : Nat → Nat → Instr) (op : Nat) (f : Word → Word → Word) : Prop :=
  ∀ (ctx q : Nat) (s : State) (w : Walk) (r : List Byte), NodeAt s ctx q 6 w r → numAt r 18 1 = op →
    let k := BitVec.ofNat 16 (numAt r 16 2)
    Completes ev s ctx q w (numAt r 8 8) fun s1 => (k.getLsbD 15 = false → s1 = s) ∧ (k.getLsbD 15 = true →
      CounterMoves s s1 ctx (k.extractLsb' 0 12).toNat fun v => f v (BitVec.ofNat 32 (numAt r 20 4)))

/-- The counter that a 16-bit DONE field names (R369). -/
def doneAt (x : Nat) : Option (Nat × Scope) :=
  let k := BitVec.ofNat 16 x
  if k.getLsbD 15 then some ((k.extractLsb' 0 12).toNat, Scope.ofCode (k.extractLsb' 12 3).toNat) else none

end Sys2Proof.Claims

/-- R195, R299, R300, R385 to R387: a COPY node copies and lowers its counter, COND and WHILE take their branch, WHILE nests, SIGNAL
subtracts from its counter or sets it, WAIT completes at once at or below zero or waits for its release; each then has STATUS 1 and the
walk goes on. Where the spec leaves a choice, the choice is the model's: log 72, 74, 77, 120, 129. -/
def Obligations.GraphNodes : Prop :=
  (∀ (ctx q : Nat) (s s1 : State) (w : Walk) (r : List Byte), NodeAt s ctx q 2 w r →
    s.copyBytes ctx (numAt r 16 8) (numAt r 24 8) (numAt r 32 8) = .ok s1 →
    Completes .copyNode s ctx q w (numAt r 8 8) fun s2 => CounterDown s1 s2 ctx (doneAt (numAt r 40 2))) ∧
  (∀ (ctx src dst n : Nat) (s : State) (a b : PAddr), s.translate 256 ctx src .read = .ok a → s.translate 256 ctx dst .write = .ok b →
    src % 4096 + n ≤ 4096 → dst % 4096 + n ≤ 4096 → b.addr % 4096 = dst % 4096 →
    ∃ t, s.copyBytes ctx src dst n = .ok t ∧ OnlyMemory s t ∧ WritesAt s t b ((s.memOf a.space).read a.addr n)) ∧
  (∀ (ctx q : Nat) (s : State) (w : Walk) (r bs : List Byte) (c : ICmp), NodeAt s ctx q 4 w r → s.hmRead ctx (numAt r 16 8) 4 = .ok bs →
    ICmp.ofCode (numAt r 28 1) = some c →
    Completes .condNode s ctx q w (if compares c (BitVec.ofNat 32 (leNat bs)) (BitVec.ofNat 32 (numAt r 24 4)) then numAt r 32 8 else numAt r 8 8) (· = s)) ∧
  (∀ (ctx q : Nat) (s : State) (w : Walk) (r bs : List Byte) (c : ICmp), NodeAt s ctx q 5 w r → s.hmRead ctx (numAt r 16 8) 4 = .ok bs →
    ICmp.ofCode (numAt r 28 1) = some c →
    let holds := compares c (BitVec.ofNat 32 (leNat bs)) (BitVec.ofNat 32 (numAt r 24 4))
    let inside := w.stack.head? = some w.node
    (holds = true → inside → Completes .whileNode s ctx q w (numAt r 32 8) (· = s)) ∧
    (holds = true → ¬inside → w.stack.length < 8 →
      ∃ t, exec (.whileNode ctx q) s = .next t ∧ NodeEnds (s.updWalk ctx q fun w => { w with stack := w.node :: w.stack }) t ctx q w.node 1
        (gone { w with stack := w.node :: w.stack } (numAt r 32 8))) ∧
    (holds = false → let stack := w.stack.drop (if w.stack.head? = some w.node then 1 else 0)
      ∃ t, exec (.whileNode ctx q) s = .next t ∧ NodeEnds (s.updWalk ctx q fun w => { w with stack := stack }) t ctx q w.node 1
        (gone { w with stack := stack } (numAt r 8 8)))) ∧
  Signals .signalSubtract 0 (fun old v => old - v) ∧ Signals .signalSet 1 (fun _ v => v) ∧
  (∀ (ctx q : Nat) (s : State) (c : Ctx) (w : Walk) (r : List Byte), NodeAt s ctx q 7 w r → s.ctx? ctx = some c → w.waiting = none →
    ((c.counter (numAt r 16 2)).toInt ≤ 0 → ∃ t, exec (.waitNode ctx q) s = .next t ∧ NodeEnds s t ctx q w.node 1 (gone w (numAt r 8 8))) ∧
    (0 < (c.counter (numAt r 16 2)).toInt → ∃ t, exec (.waitNode ctx q) s = .next t ∧
      WalkIs s t ctx q { w with phase := .running, next := numAt r 8 8, waiting := some (numAt r 16 2) })) ∧
  ∀ (ctx q : Nat) (s : State) (c : Ctx) (x : Queue) (w : Walk), s.queue? ctx q = some (c, x) → c.frozen = false → x.fault = none → x.owed = [] →
    x.walk = some w → w.waiting ≠ none → w.released = true → w.phase = .running →
    ∃ t, exec (.waitNode ctx q) s = .next t ∧ NodeEnds s t ctx q w.node 1 (gone w w.next)

/-- R369, R373, R385 to R387, R413, R446: a submission starts the graph at HEAD; a LAUNCH node starts a launch as its record says and a CVOY
node a collective, which run on by themselves; SNAPSHOT nodes begin, write back and end a preservation; a malformed node has STATUS 13
and parks its queue. Where the spec leaves a choice, the choice is the model's: log 71, 73, 79, 108, 109, 120, 121. -/
def Obligations.GraphStarts : Prop :=
  (∀ (ctx q : Nat) (s : State) (c : Ctx) (x : Queue) (e : QEntry), s.queue? ctx q = some (c, x) → c.frozen = false → x.parked = false → x.fault = none →
    x.owed = [] → (s.readQueueEntry c.desc.qtbase q).2 = false → queueEntryOf (s.readQueueEntry c.desc.qtbase q).1 = some e →
    let used := (s.dram.num (e.addr + 8) 8 + 2 ^ 64 - s.dram.num e.addr 8) % 2 ^ 64
    let slot : PAddr := ⟨.dram, e.addr + 64 + 8 * (s.dram.num e.addr 8 % e.size)⟩
    let node := leNat (s.loadPhys slot 8).1
    let clean := ((s.loadPhys ⟨.dram, e.addr⟩ 64).1.drop 16).all (· == 0)
    (e.enabled = true → e.size < used ∨ clean = false → ∃ t, exec (.queueSubmit ctx q) s = .next t ∧
      (t.queue? ctx q).map (·.2) = some { x with entry := e, parked := true } ∧ t.flights = s.flights ∧ t.launches = s.launches) ∧
    (e.enabled = false ∨ (used ≤ e.size ∧ clean = true ∧ (used = 0 ∨ x.walk ≠ none)) → ∃ t, exec (.queueSubmit ctx q) s = .next t ∧ { t with ctxs := s.ctxs } = s ∧
      (t.queue? ctx q).map (·.2) = some { x with entry := e }) ∧
    (e.enabled = true → used ≤ e.size → clean = true → used ≠ 0 → x.walk = none → (s.loadPhys slot 8).2 = false → node ≠ 0 →
      ∃ t, exec (.queueSubmit ctx q) s = .next t ∧ { t with ctxs := s.ctxs } = s ∧ (t.queue? ctx q).map (·.2) = some { x with
        entry := e, walk := some { run := x.nextRun, node := node, phase := .fresh, next := 0, stack := [], asyncs := [], waiting := none, released := false },
        nextRun := x.nextRun + 1 })) ∧
  (∀ (ctx q : Nat) (s s1 : State) (w : Walk) (r : List Byte), NodeAt s ctx q 1 w r →
    s.beginLaunch ctx q w.run w.node (numAt r 16 8) (numAt r 1 1 == 1) 0 = .ok s1 →
    ∃ t, exec (.launchNode ctx q) s = .next t ∧ WalkIs s1 t ctx q (started w (numAt r 8 8) (numAt r 1 1 == 1))) ∧
  (∀ (ctx q run node record n : Nat) (isAsync : Bool) (s : State) (x : Record), s.readRecord ctx record = .ok x → x.ranges = [] →
    ∃ t l, s.beginLaunch ctx q run node record isAsync n = .ok t ∧ t = { s with launches := s.launches ++ [l], nextLaunch := s.nextLaunch + 1 } ∧
      (l.id, l.ctx, l.queue, l.run, l.node, l.record, l.isAsync, l.nextTeam, l.replays) = (s.nextLaunch, ctx, q, run, node, record, isAsync, 0, n) ∧
      l.hdr = x.hdr ∧ l.slots = x.slots ∧ l.mask = x.mask ∧ l.state = .waiting ∧ l.stop = none ∧ l.gbarPhase = 0 ∧ l.gbarArrived = []) ∧
  (∀ (ctx q : Nat) (s : State) (c : Ctx) (w : Walk) (r : List Byte) (g : ConvoyGroup), NodeAt s ctx q 3 w r → s.ctx? ctx = some c →
    let o : ConvoyArgs := ⟨numAt r 16 8, numAt r 24 8, numAt r 32 8, numAt r 40 8⟩
    let seq := (lookupKey c.seqs o.group).getD 0
    s.convoyGroup c o.group = .good g → o.badField (some g) = false → o.badAddr (some g) = false → o.misaligned = false →
    ∃ t s1 f, exec (.cvoyNode ctx q) s = .next t ∧ WalkIs s1 t ctx q (started w (numAt r 8 8) (numAt r 1 1 == 1)) ∧
      { s1 with ctxs := s.ctxs, flights := s.flights, nextFlight := s.nextFlight } = s ∧ TakesTicket s s1 ctx o.group seq ∧ s1.nextFlight = s.nextFlight + 1 ∧
      s1.flights = s.flights ++ [f] ∧ f.id = s.nextFlight ∧ f.ctx = ctx ∧ f.fault = none ∧ f.refetch = none ∧
      f.op = .convoy (o.start g seq (doneAt (numAt r 48 2)) (some (q, w.run, w.node, numAt r 1 1 == 1)))) ∧
  (∀ (ctx q : Nat) (s : State) (c : Ctx) (w : Walk) (r : List Byte), NodeAt s ctx q 8 w r → s.ctx? ctx = some c →
    let list := numAt r 16 8
    let mine := fun (x : Preserve) => x.list = list ∧ x.launch = none
    (∀ rs ps, numAt r 28 1 = 0 → s.readRanges ctx list (numAt r 24 4) 13 = .ok rs → (∀ x ∈ rs, x.kind = 0) → c.preserved rs = false → c.preserves.length < 16 →
      s.preservePages ctx rs = .ok ps →
      Completes .snapshotTake s ctx q w (numAt r 8 8) fun s1 => PreservesAre s s1 ctx fun v => v ++ [⟨list, none, rs, ps⟩]) ∧
    (∀ v, numAt r 28 1 = 1 → c.preserves.find? (fun x => x.list == list && x.launch.isNone) = some v →
      ∃ t s1, exec (.snapshotRestore ctx q) s = .next t ∧ PreservesAre (s.writeBack v) s1 ctx (fun ps => ps.map fun x =>
          if x.list = list ∧ x.launch = none then { x with pages := x.pages.map fun g => { g with copied := false } } else x) ∧
        NodeEnds s1 t ctx q w.node 1 (gone w (numAt r 8 8))) ∧
    (∀ v ∈ c.preserves, mine v → numAt r 28 1 = 2 →
      let dead := c.preserves.filter fun x => x.list == list && x.launch.isNone
      Completes .snapshotDiscard s ctx q w (numAt r 8 8) fun s1 =>
        PreservesAre (dead.foldl (·.loseShadows ·) s) s1 ctx fun ps => ps.filter fun x => !(x.list == list && x.launch.isNone))) ∧
  ∀ (ctx q : Nat) (s : State) (c : Ctx) (x : Queue) (w : Walk) (p : PAddr), s.standing ctx q = some (c, x, w) →
    (nodeAddrOk w.node = true ∧ ∃ r, s.hmRead ctx w.node 64 = .ok r ∧ nodeOk r = false) ∨
      (plainVA w.node = true ∧ plainVA (w.node + 7) = true ∧ nodeAddrOk w.node = false) → (w.node + 4) % 4096 + 4 ≤ 4096 → s.translate 256 ctx (w.node + 4) .write = .ok p →
    ∃ t, exec (.malformedNode ctx q) s = .next t ∧ (t.queue? ctx q).map (·.2) = some { x with parked := true } ∧ t.flights = s.flights ∧ t.launches = s.launches ∧
      (Writable s p 4 → (∀ b n v, s.errQueue (some ctx) = some (b, n, v) → p.space = .dram → overlap p.addr 4 b (64 + 64 * n) = false) →
        (t.memOf p.space).read p.addr 4 = leBytes 4 13)

/-! ### Groups, teams and launches -/

namespace Sys2Proof.Claims

/-- Groups, teams, launches and L1 apart, nothing differs. -/
def OnlyPlaced (s t : State) : Prop :=
  { t with groups := s.groups, teams := s.teams, launches := s.launches, cus := s.cus } = s ∧ CusKept s t

/-- A group as a placement makes it (R21, R136, R249, R276): nothing waits, no flag or mark is set, every thread stands at the entry. -/
def FreshGroup (h : Header) (t : Team) (g : Group) : Prop :=
  g.launch = t.launch ∧ g.team = t.id ∧ g.cu = t.cu ∧ (∃ q, g.role = some q ∧ g.nreg = 8 * ((h.roles.getD q (0, 0)).2 + 1)) ∧ (g.nreg ≤ 256 → g.nreg ≤ g.size) ∧
  g.sregs = List.replicate 64 0 ∧ g.halt = none ∧ g.err = none ∧ g.wdgroup = 0 ∧ g.perfsel = 0 ∧ g.fresh = false ∧
  ∀ n < 32, ∃ x, g.thread? n = some x ∧ x.regs.length = g.nreg ∧ x.pc = BitVec.ofNat 64 h.entry ∧ x.preds = 1 ∧ x.fx = 0 ∧ x.depth = 0 ∧
    x.melded = false ∧ x.hints = [] ∧ x.wait = .ready ∧ x.tieTeam = t.linear ∧ x.tieThread = 32 * g.linear + n

/-- Groups and teams lie apart: no two groups of a partition share a slot or registers, no two teams of a CU share scratchpad
(R254, R277, R278). -/
def LieApart (s : State) : Prop :=
  (s.groups.Pairwise fun g h => g.cu = h.cu → g.part = h.part → g.slot ≠ h.slot ∧ overlap g.base g.size h.base h.size = false) ∧
  s.teams.Pairwise fun a b => a.cu = b.cu → overlap a.base a.scr b.base b.scr = false

/-- What placements and restores have made (R276 to R278, R286): groups and teams lie apart, blocks have the sizes of R276, ranges are multiples
of 4 KiB, none of no bytes lies anywhere but at 0, numbers are not used twice, and what is to come has a later order. -/
def WellPlaced (s : State) : Prop :=
  LieApart s ∧ (s.teams.map (·.id)).Nodup ∧
  (∀ g ∈ s.groups, g.size ∈ [8, 16, 32, 64, 128, 256] ∧ g.order < s.nextOrder) ∧
  (∀ m ∈ s.teams, m.order < s.nextOrder ∧ m.base % 4096 = 0 ∧ m.scr % 4096 = 0 ∧ (m.scr = 0 → m.base = 0)) ∧
  (∀ l ∈ s.launches, l.hdr.scr % 4096 = 0) ∧ ∀ v ∈ s.saved, v.team.scr % 4096 = 0

/-- Only launches differ, of those only launch `id`, which is `f` of what it was. -/
def LaunchIs (s t : State) (id : Nat) (f : Launch → Launch) : Prop :=
  { t with launches := s.launches } = s ∧ (∀ k, k ≠ id → t.launch? k = s.launch? k) ∧ t.launch? id = (s.launch? id).map f

/-- What is left of a module when a launch that has ended is taken out: its preservation goes too, its reservation passes on, and
the shadows of its preserved pages hold free values (R443; log 108). -/
def withoutLaunch (s : State) (l : Launch) : State :=
  let s1 := State.endReservation { s with launches := s.launches.filter (·.id != l.id) } l.id
  (((s1.ctx? l.ctx).elim [] (·.preserves)).filter (·.launch == some l.id)).foldl (·.loseShadows ·)
    { s1 with ctxs := updFirst (·.id == l.ctx) (fun c => { c with preserves := c.preserves.filter (·.launch != some l.id) }) s1.ctxs }

/-- Nothing of the launch is left on a CU, in flight, saved or in a ring (R274, R283, R382). -/
def AllGone (s : State) (l : Launch) : Prop :=
  (∀ t ∈ s.teams, t.launch ≠ l.id) ∧ (∀ g ∈ s.groups, g.launch ≠ l.id) ∧ (∀ f ∈ s.flights, f.launch ≠ l.id) ∧
  (∀ v ∈ s.saved, v.team.launch ≠ l.id) ∧ l.ringTeams = [] ∧ ∀ c ∈ s.cus, ∀ b, some b ∈ c.berths → b.launch ≠ l.id

end Sys2Proof.Claims

/-- R262, R276 to R283: a group whose threads have ended, or whose launch has stopped, is released once nothing in flight writes its threads
and no group that shares its window registers runs; a team is released once no group or deposit is left and no operation names its
scratchpad or its hold tiles; the compactor makes the moves that a waiting placement asks for: the place of such a move is free and
aligned, a block or range goes there, nothing else changes, and nothing pinned moves; a group ages after 64 choices. Where the spec
leaves a choice, the choice is the model's: log 13, 26, 27, 119, 125. -/
def Obligations.GroupsAndTeams : Prop :=
  (∀ (cu part slot : Nat) (s : State) (g : Group), s.group? cu part slot = some g →
    let past := (∀ k, g.thread? k = none) ∨ ∀ l, s.launch? g.launch = some l → l.stop ≠ none
    let busy := (∃ f ∈ s.flights, f.order = g.order ∧ f.op.writesThreads = true) ∨
      ∃ l, s.launch? g.launch = some l ∧ l.stop = none ∧ ∃ h ∈ s.groups, h.team = g.team ∧ h.index = g.index ∧ (∃ k, h.thread? k ≠ none) ∧
        ∃ a b, g.role = some a ∧ h.role = some b ∧ l.hdr.bound a b = true
    (past → ¬busy → ∃ t, exec (.groupRelease cu part slot) s = .next t ∧ OnlyPlaced { s with early := s.early.filter (·.order != g.order) } t ∧
      t.groups.map forgetWaits = (s.groups.filter fun h => !(h.cu == cu && h.part == part && h.slot == slot)).map forgetWaits) ∧
    (¬past ∨ busy → exec (.groupRelease cu part slot) s = .next s)) ∧
  (∀ (id : Nat) (s : State) (m : Team), s.team? id = some m →
    let named := ∃ f ∈ s.flights, (∃ c, f.op = .copy c ∧ id ∈ c.targets) ∨
      (f.team = id ∧ ((∃ x, f.op = .mma x) ∨ (∃ x, f.op = .hdrn x) ∨ (∃ x, f.op = .pilot x) ∨ (∃ x, f.op = .mchk x) ∨ ∃ h b, f.op = .lateHold h b)) ∨
      (∃ sc ls, f.op = .lateLoad sc ls ∧ ∃ l ∈ ls, ∃ x ∈ l.parts, ∃ off, x.place = some (.scr id off)) ∨
      (∃ z ls, f.op = .lateStore z ls ∧ ∃ l ∈ ls, ∃ off, l.place = .scr id off) ∨ ∃ os, f.op = .lateAtomic os ∧ ∃ o ∈ os, ∃ off, o.part.place = some (.scr id off)
    ((∀ g ∈ s.groups, g.team ≠ id) → s.teamOwed m = false → ¬named → exec (.teamRelease id) s = .next { s with teams := s.teams.filter (·.id != id) }) ∧
    ((∃ g ∈ s.groups, g.team = id) ∨ s.teamOwed m = true ∨ named → exec (.teamRelease id) s = .next s)) ∧
  (∀ (cu part slot : Nat) (s : State) (g : Group), s.group? cu part slot = some g → ∃ t, exec (.groupAged cu part slot) s = .next t ∧
    { t with groups := s.groups } = s ∧ t.group? cu part slot = some { g with aged := g.aged || 64 ≤ g.waited } ∧
    ∀ a b c, (a, b, c) ≠ (cu, part, slot) → t.group? a b c = s.group? a b c) ∧
  (∀ (cu part slot base : Nat) (s : State) (g : Group), s.group? cu part slot = some g →
    (s.pinnedRegs g = false → s.moves.contains (.regs cu part slot base) = true → base % g.size = 0 → base + g.size ≤ 2048 →
      (∀ h ∈ s.groups, h.cu = g.cu → h.part = g.part → h.order ≠ g.order → overlap h.base h.size base g.size = false) →
      ∃ t, exec (.compaction (.regs cu part slot base)) s = .next t ∧ { t with groups := s.groups } = s ∧
        t.group? cu part slot = some { g with base := base } ∧ ∀ a b c, (a, b, c) ≠ (cu, part, slot) → t.group? a b c = s.group? a b c) ∧
    (s.pinnedRegs g = true ∨ s.moves.contains (.regs cu part slot base) = false → exec (.compaction (.regs cu part slot base)) s = .next s)) ∧
  (∀ (cu part slot base : Nat) (s : State), WellPlaced s → s.moves.contains (.regs cu part slot base) = true →
    ∃ g t, s.group? cu part slot = some g ∧ s.pinnedRegs g = false ∧ base % g.size = 0 ∧ base + g.size ≤ 2048 ∧
      (∀ h ∈ s.groups, h.cu = cu → h.part = part → h.slot ≠ slot → overlap h.base h.size base g.size = false) ∧
      exec (.compaction (.regs cu part slot base)) s = .next t ∧ { t with groups := s.groups } = s ∧
      t.group? cu part slot = some { g with base := base } ∧ ∀ a b c, (a, b, c) ≠ (cu, part, slot) → t.group? a b c = s.group? a b c) ∧
  (∀ (id base : Nat) (s : State), WellPlaced s → s.moves.contains (.scratch id base) = true →
    ∃ m c t, s.team? id = some m ∧ s.cu? m.cu = some c ∧ s.pinnedScratch m = false ∧ base % 4096 = 0 ∧ base + m.scr ≤ c.split * 131072 ∧
      (∀ u ∈ s.teams, u.cu = m.cu → u.id ≠ id → overlap u.base u.scr base m.scr = false) ∧
      exec (.compaction (.scratch id base)) s = .next t ∧ { t with teams := s.teams } = s ∧ t.team? id = some { m with base := base } ∧
      ∀ k, k ≠ id → t.team? k = s.team? k) ∧
  ∀ (id base : Nat) (s : State) (m : Team) (c : Cu), s.team? id = some m → s.cu? m.cu = some c →
    (s.pinnedScratch m = false → s.moves.contains (.scratch id base) = true → base % 4096 = 0 → base + m.scr ≤ c.split * 131072 →
      (∀ u ∈ s.teams, u.cu = m.cu → u.id ≠ id → overlap u.base u.scr base m.scr = false) →
      ∃ t, exec (.compaction (.scratch id base)) s = .next t ∧ { t with teams := s.teams } = s ∧ t.team? id = some { m with base := base } ∧
        ∀ k, k ≠ id → t.team? k = s.team? k) ∧
    (s.pinnedScratch m = true ∨ s.moves.contains (.scratch id base) = false → exec (.compaction (.scratch id base)) s = .next s)

/-- R21, R254, R276 to R278, R287, R291, R376 to R381: a team is placed with fresh groups on an eligible CU; no placement, compaction or
restore lets two groups share registers or two teams scratchpad; a free reservation goes to the first claimant, which claims eligible
CUs in ascending number and keeps what it holds; a victim is saved whole into a slot of its context's pool, and restored with its
registers, scratchpad and commands as they were; a slot that is poisoned freezes the context. Where the spec leaves a choice, the choice
is the model's: log 15, 26, 27, 68, 69, 75, 76, 106. -/
def Obligations.Placement : Prop :=
  (∀ (id u : Nat) (s s1 : State) (l : Launch), s.launch? id = some l → s.placeable l = true → s.firstWith l s.placeable = true → l.resident = false →
    s.targetCu l = some u → s.placeTeam l u l.nextTeam = some s1 →
    ∃ t m gs, exec (.teamPlace id) s = .next t ∧ t.teams = s.teams ++ [m] ∧ t.groups = s.groups ++ gs ∧ s.eligible l u = true ∧
      { t with groups := s.groups, teams := s.teams, launches := s.launches, cus := s.cus, nextTeamId := s.nextTeamId, nextOrder := s.nextOrder,
               free := s.free, served := s.served, reservation := s.reservation, viewCache := s.viewCache } = s ∧
      t.viewCache = (if l.nextTeam = 0 then s.viewCache.filter (·.ctx != l.ctx) else s.viewCache) ∧
      t = State.endReservation { t with reservation := s.reservation } l.id ∧ (∀ r, s.reservation = some r → r.launch = l.id → u ∈ r.cus) ∧
      (m.id, m.ctx, m.launch, m.linear, m.cu, m.scr) = (s.nextTeamId, l.ctx, l.id, l.nextTeam, u, l.hdr.scr) ∧ m.mem = [] ∧ m.bad = [] ∧ m.absent = [] ∧
      m.wins = [] ∧ (∀ h ∈ m.hold, h.mem = [] ∧ h.bad = []) ∧ m.bars.length = 16 ∧ (∀ b ∈ m.bars, b.phase = 0 ∧ b.roles = none ∧ b.arrived = [] ∧ b.done = []) ∧
      gs.map (fun g => (g.role.getD 0, g.index, g.nreg)) = l.hdr.groups ∧ gs.map (·.linear) = List.range gs.length ∧ (∀ g ∈ gs, FreshGroup l.hdr m g) ∧
      t.launch? id = some { l with state := .running, nextTeam := l.nextTeam + 1, order := some (l.order.getD s.nextOrder), claims := false } ∧
      ∀ c, t.cu? u = some c → c.l1 = [] ∧ c.ctx = some l.ctx) ∧
  (∀ (s t : State) (i : Instr), LieApart s → (∃ id, i = .teamPlace id) ∨ (∃ m, i = .compaction m) ∨ (∃ id, i = .teamRestore id) →
    (s.groups.map (·.order)).Nodup → (s.teams.map (·.id)).Nodup →
    (∀ v ∈ s.saved, (∀ g ∈ v.groups, g.cu = v.team.cu) ∧ (v.groups.map fun g => (g.part, g.slot)).Nodup) →
    exec i s = .next t → LieApart t) ∧
  (∀ (id : Nat) (s : State) (l : Launch), s.launch? id = some l → l.waits = true →
    (l.resident = false → s.placeable l = true → exec (.reservationClaim id) s = .next s) ∧
    ((l.resident = true ∨ s.placeable l = false) →
      (∀ r, s.reservation = some r → r.launch = id → ∃ cus, exec (.reservationClaim id) s = .next { s with reservation := some ⟨id, cus⟩ } ∧
        r.cus <+: cus ∧ ∀ u ∈ cus, u ∈ r.cus ∨ (u < 256 ∧ s.eligible l u = true)) ∧
      (∀ r, s.reservation = some r → r.launch ≠ id →
        ∃ t, exec (.reservationClaim id) s = .next t ∧ LaunchIs s t id fun l => { l with claims := !l.resident }) ∧
      (s.reservation = none → ∃ t, exec (.reservationClaim id) s = .next t.passReservation ∧ LaunchIs s t id fun l => { l with claims := !l.resident }))) ∧
  (∀ (s : State), s.reservation = none → (s.launches.map (·.id)).Nodup → (∀ l ∈ s.launches, s.claimant l = false) → s.passReservation = s) ∧
  (∀ (s : State) (l : Launch), s.reservation = none → (s.launches.map (·.id)).Nodup → l ∈ s.launches → s.claimant l = true →
    (∀ m ∈ s.launches, s.claimant m = true → rankLe (s.queueRank l) (s.queueRank m) = true) →
    let open_ := (List.range 256).filter fun u => (s.cu? u).isSome && s.eligible l u
    ∃ cus, s.passReservation = { s with reservation := some ⟨l.id, cus⟩ } ∧ cus <+: open_ ∧
      cus.length = min (l.hdr.claimSize l.resident) open_.length) ∧
  (∀ (id p : Nat) (s : State) (w : Launch) (m : Team) (c : Cu) (x : Ctx) (ps : List Nat), s.launch? id = some w → s.starved w = true → s.victims w = [m] → s.quiet m = true →
    s.cu? m.cu = some c → s.ctx? m.ctx = some x → x.freeSlots = p :: ps →
    ∃ t v, exec (.preemptSave id) s = .next t ∧ t.saved = s.saved ++ [v] ∧ v.team = m ∧ v.groups = s.groups.filter (·.team == m.id) ∧
      v.locks = c.locks.filter (·.team == m.id) ∧ v.flights = s.flights.filter (·.recorded m.id) ∧ v.pool = p ∧
      t.teams = s.teams.filter (·.id != m.id) ∧ t.groups = s.groups.filter (·.team != m.id) ∧ (t.flights = s.flights.filter fun f => !f.recorded m.id) ∧
      { t with saved := s.saved, teams := s.teams, groups := s.groups, flights := s.flights, launches := s.launches, cus := s.cus, ctxs := s.ctxs, dram := s.dram, dramBad := s.dramBad, zeroFlags := s.zeroFlags, hostMem := s.hostMem, hostBad := s.hostBad, peers := s.peers, free := s.free } = s ∧
      (∀ a : PAddr, ¬(a.space = .dram ∧ x.desc.savepool + 0x440000 * p ≤ a.addr ∧ a.addr < x.desc.savepool + 0x440000 * (p + 1)) → NoShadow s a 1 →
        (t.memOf a.space).get a.addr = (s.memOf a.space).get a.addr) ∧
      ((t.ctx? m.ctx).map fun x => x.saveUsed) = some (insertNat x.saveUsed p)) ∧
  ∀ (id : Nat) (s : State) (v : Saved) (l : Launch) (x : Ctx), (s.saved.find? (·.team.id == id)) = some v → s.launch? v.team.launch = some l → l.resident = false → l.stop = none →
    s.mayRestore l v = true → s.ctx? l.ctx = some x →
    (s.slotMarked x.desc v.pool = true → ∃ t y, exec (.teamRestore id) s = .next t ∧ t.ctx? l.ctx = some y ∧ y.frozen = true) ∧
    ∀ s1, s.slotMarked x.desc v.pool = false → s.restoreTeam l v = some s1 → ∃ t m gs, exec (.teamRestore id) s = .next t ∧ t.teams = s.teams ++ [m] ∧ m = { v.team with base := m.base } ∧ t.groups = s.groups ++ gs ∧
      gs.map (fun g => { g with base := 0 }) = v.groups.map (fun g => { g with base := 0 }) ∧ t.flights = s.flights ++ v.flights ∧
      t.saved = s.saved.filter (·.team.id != id) ∧
      { t with saved := s.saved, teams := s.teams, groups := s.groups, flights := s.flights, launches := s.launches, cus := s.cus, ctxs := s.ctxs } = s ∧
      t.launch? l.id = some { l with state := .running }

/-- R382 to R384, R389, R443, R444: a launch completes once every team is placed and all is gone: its DONE counters go down, it leaves, and
its node has STATUS 1; a stopped launch ends its node with the status of its stop and parks its queue; a consumed error writes the
copied pages back and replays the launch from its record while replays are left, and ends with STATUS 9 else. Where the spec leaves a
choice, the choice is the model's: log 24, 78, 108. -/
def Obligations.LaunchEnds : Prop :=
  (∀ (id : Nat) (s : State) (l : Launch), s.launch? id = some l → AllGone s l → l.stop = none → l.hdr.total ≤ l.nextTeam →
    ∃ t s1 s2, exec (.launchComplete id) s = .next t ∧ CounterDown s s1 l.ctx (doneAt l.hdr.done0) ∧ CounterDown s1 s2 l.ctx (doneAt l.hdr.done1) ∧
      ∀ c x w, (withoutLaunch s2 l).queue? l.ctx l.queue = some (c, x) → x.walk = some w →
        NodeEnds (withoutLaunch s2 l) t l.ctx l.queue l.node 1 (left w l.run l.node l.isAsync)) ∧
  (∀ (id : Nat) (s : State) (l : Launch) (st : Stop) (c : Ctx) (x : Queue) (p : PAddr), s.launch? id = some l → AllGone s l → l.stop = some st → st.consumed = false →
    s.queue? l.ctx l.queue = some (c, x) → c.frozen = false → x.owed = [] → (l.node + 4) % 4096 + 4 ≤ 4096 → (withoutLaunch s l).translate 256 l.ctx (l.node + 4) .write = .ok p →
    ∃ t, exec (.launchComplete id) s = .next t ∧ t.launches = s.launches.filter (·.id != id) ∧ t.groups = s.groups ∧ t.flights = s.flights ∧
      (t.queue? l.ctx l.queue).map (fun y => (y.2.parked, y.2.entry, y.2.owed)) = some (true, x.entry, []) ∧
      (Writable s p 4 → (∀ b n v, s.errQueue (some l.ctx) = some (b, n, v) → p.space = .dram → overlap p.addr 4 b (64 + 64 * n) = false) →
        (t.memOf p.space).read p.addr 4 = leBytes 4 st.status)) ∧
  ∀ (id : Nat) (s : State) (l : Launch) (st : Stop) (c : Ctx) (x : Queue), s.launch? id = some l → AllGone s l → l.stop = some st → st.consumed = true →
    s.queue? l.ctx l.queue = some (c, x) → c.frozen = false → (∀ y ∈ c.faults, y.who ≠ .queue l.queue (.replay l.id)) →
    (l.replaying = false → l.replays < l.hdr.flags / 16 % 4 → ∃ t, exec (.launchReplay id) s = .next t ∧
      t.launch? id = some { l with replaying := true } ∧ t.groups = s.groups ∧ t.teams = s.teams ∧ t.flights = s.flights ∧
      ((t.ctx? l.ctx).map fun c => c.preserves.filter (·.launch == some l.id)) = some [] ∧
      ∀ v g, MemOk s → (s.ctxs.flatMap (·.preserves)) = [v] → v ∈ c.preserves → v.launch = some l.id → v.pages = [g] → g.copied = true →
        s.isRetired g.page = false → s.isRetired g.shadow = false → (∀ k, g.page.space = .peer k ∨ g.page.space = .peerHost k → s.peers.any (·.node == k) = true) →
        (g.page.space = g.shadow.space → overlap g.page.addr 4096 g.shadow.addr 4096 = false) →
        (∀ b n r, s.errQueue (some l.ctx) = some (b, n, r) → g.page.space = .dram → overlap g.page.addr 4096 b (64 + 64 * n) = false) →
        (t.memOf g.page.space).read g.page.addr 4096 = (s.memOf g.shadow.space).read g.shadow.addr 4096) ∧
    (∀ r, l.replaying = true → c.errq = [] → s.readRecord l.ctx l.record = .ok r → r.ranges = [] → s.nextLaunch ≠ id → (∀ v ∈ c.preserves, v.launch ≠ some l.id) →
      ∃ t l', exec (.launchReplay id) s = .next t ∧ t.launches = (s.launches.filter (·.id != id)) ++ [l'] ∧ t.nextLaunch = s.nextLaunch + 1 ∧
        (l'.id, l'.ctx, l'.queue, l'.run, l'.node, l'.record, l'.isAsync, l'.nextTeam) = (s.nextLaunch, l.ctx, l.queue, l.run, l.node, l.record, l.isAsync, 0) ∧
        l'.replays = l.replays + 1 ∧ l'.hdr = r.hdr ∧ l'.state = .waiting ∧ l'.stop = none ∧ t.groups = s.groups ∧ t.flights = s.flights ∧ t.dram = s.dram) ∧
    (∀ p, l.replaying = false → l.hdr.flags / 16 % 4 ≤ l.replays → (∀ v ∈ c.preserves, v.launch ≠ some l.id) → x.owed = [] → (l.node + 4) % 4096 + 4 ≤ 4096 →
      s.translate 256 l.ctx (l.node + 4) .write = .ok p → ∃ t, exec (.launchReplay id) s = .next t ∧
      t.launches = s.launches.filter (·.id != id) ∧ (t.queue? l.ctx l.queue).map (·.2.parked) = some true ∧ t.flights = s.flights ∧
      (Writable s p 4 → (∀ b n v, s.errQueue (some l.ctx) = some (b, n, v) → p.space = .dram → overlap p.addr 4 b (64 + 64 * n) = false) →
        (t.memOf p.space).read p.addr 4 = leBytes 4 9))

/-! ### The host -/

namespace Sys2Proof.Claims

/-- A well-formed command of an OP waits at HEAD of a context's command queue (R401, R402). -/
def CommandAt (s : State) (ctx op : Nat) (c : Ctx) (r : List Byte) : Prop :=
  s.ctx? ctx = some c ∧ s.command? c = some r ∧ commandOk r = true ∧ numAt r 0 1 = op

/-- The command at HEAD is answered: STATUS, then HEAD; but for memory nothing differs (R401). -/
def Answered (s t : State) (c : Ctx) (st : Nat) : Prop :=
  let h : PAddr := ⟨.dram, c.desc.cmdbase⟩
  let a : PAddr := ⟨.dram, c.desc.cmdbase + 64 + 64 * (s.dram.num c.desc.cmdbase 8 % 2 ^ c.desc.cqlog) + 4⟩
  OnlyMemory s t ∧ t.flights = s.flights ∧ t.cus = s.cus ∧ CtxsKept s t ∧
  (Writable s a 4 → Writable s h 8 → t.dram.read a.addr 4 = leBytes 4 st ∧ t.dram.num h.addr 8 = (s.dram.num h.addr 8 + 1) % 2 ^ 64) ∧
  ∀ p : PAddr, NoShadow s p 1 → ¬(p.space = .dram ∧ a.addr ≤ p.addr ∧ p.addr < a.addr + 4) →
    ¬(p.space = .dram ∧ h.addr ≤ p.addr ∧ p.addr < h.addr + 8) → (t.memOf p.space).get p.addr = (s.memOf p.space).get p.addr

/-- A command completes with a STATUS, after what leads from `s` to a machine that satisfies `first`. -/
def CommandRuns (ev : Instr) (s : State) (c : Ctx) (st : Nat) (first : State → Prop) : Prop :=
  ∃ t s1, exec ev s = .next t ∧ first s1 ∧ Answered s1 t c st

/-- A fault of a context is pending no more. -/
def dropped (s : State) (ctx fid : Nat) : State :=
  { s with ctxs := updFirst (·.id == ctx) (fun c => { c with faults := c.faults.filter (·.fid != fid) }) s.ctxs }

/-- A saved team with what its threads and operations wait for left out. -/
def forgetHeld (v : Saved) : Saved := { v with groups := v.groups.map forgetWaits, flights := v.flights.map fun f => { f with fault := none } }

/-- A fault of a context is pending no more, and but for what threads and operations wait for nothing differs. -/
def FaultGone (s t : State) (ctx fid : Nat) : Prop :=
  { t with groups := s.groups, flights := s.flights, saved := s.saved } = dropped s ctx fid ∧ t.groups.map forgetWaits = s.groups.map forgetWaits ∧
  (t.flights.map fun f => { f with fault := none }) = (s.flights.map fun f => { f with fault := none }) ∧ t.saved.map forgetHeld = s.saved.map forgetHeld

/-- A queue of a context is changed. -/
def withQueue (s : State) (ctx q : Nat) (f : Queue → Queue) : State :=
  { s with ctxs := updFirst (·.id == ctx) (fun c => { c with queues := c.queues.mapIdx fun i x => if i = q then f x else x }) s.ctxs }

/-- A node of a queue ends with a status after which the queue parks with a record; but for memory, contexts and vectors nothing differs
(R384, R386, R389). -/
def NodeFails (s t : State) (ctx q node st : Nat) (x : Queue) : Prop :=
  OnlyModule s { t with msix := s.msix } ∧ t.flights = s.flights ∧ (t.queue? ctx q).map (·.2) = some { x with parked := true } ∧
  ∀ p, s.translate 256 ctx (node + 4) .write = .ok p → Writable s p 4 →
    (∀ b n v, s.errQueue (some ctx) = some (b, n, v) → p.space = .dram → overlap p.addr 4 b (64 + 64 * n) = false) →
    (t.memOf p.space).read p.addr 4 = leBytes 4 st

/-- A halted group continues: its trapping lanes stand at `pc`, without pending hints, and nothing else differs (R267). -/
def Resumes (s t : State) (g : Group) (h : Halt) (pc : Word64) : Prop :=
  { t with groups := s.groups } = s ∧ (∀ a b c, (a, b, c) ≠ (g.cu, g.part, g.slot) → t.group? a b c = s.group? a b c) ∧
  ∃ g', t.group? g.cu g.part g.slot = some g' ∧ { g' with threads := g.threads, halt := g.halt } = g ∧ g'.halt = none ∧
    ∀ k < 32, (h.lanes.getLsbD k = false → g'.thread? k = g.thread? k) ∧ ∀ x, h.lanes.getLsbD k = true → g.thread? k = some x →
      ∃ y, g'.thread? k = some y ∧ y.pc = pc ∧ { y with pc := x.pc, fell := x.fell } = { x with hints := [], hintPc := 0 }

/-- A launch has been stopped with a status (R383): none of its groups issues again. -/
def Stopped (t : State) (id st : Nat) : Prop := ∃ l x, t.launch? id = some l ∧ l.stop = some x ∧ x.status = st ∧ l.state = .stopped

/-- A mailbox command has been answered with a code (R449). -/
def MailAnswered (s t : State) (code : Byte) : Prop :=
  t.bar0.mbreply.length = 64 ∧ t.bar0.mbreply.headD 1 = code ∧ t.msix = insertNat s.msix 128

end Sys2Proof.Claims

/-- R267, R384, R400 to R404: every command of a context's queue runs and is answered with STATUS 1, or with 3 where what it names is not
there, and a malformed one with 2 and no effect. Where the spec leaves a choice, the choice is the model's: log 83, 84, 85, 86, 87. -/
def Obligations.HostCommands : Prop :=
  (∀ (ctx : Nat) (s : State) (c : Ctx) (r : List Byte), CommandAt s ctx 1 c r → 
    let kept := s.tlb.filter fun e => !(e.ctx == ctx && overlap e.va e.size (numAt r 8 8) (numAt r 16 8))
    ((∀ f ∈ s.flights, f.ctx = ctx → f.op.isLate = false) → CommandRuns (.invpt ctx) s c 1 (· = { s with tlb := kept })) ∧
    ((s.flights.map (·.id)).Nodup → let u := s.settleLate (·.ctx == ctx)
      CommandRuns (.invpt ctx) s c 1 (· = { u with tlb := kept }) ∧ u.tlb = s.tlb ∧ (∀ f ∈ u.flights, f.ctx = ctx → f.op.isLate = false) ∧
      ((∀ f ∈ s.flights, f.op.isLate = true → ∃ z ls, f.op = .lateStore z ls ∧ ∀ l ∈ ls, ∃ p, l.place = .mem p) → OnlyMemory s u ∧ CtxsKept s u))) ∧
  (∀ (ctx : Nat) (s : State) (c : Ctx) (r : List Byte), CommandAt s ctx 6 c r → CommandRuns (.vinvall ctx) s c 1 fun s1 =>
    s1 = { s with viewCache := s.viewCache.filter (·.ctx != ctx) }) ∧
  (∀ (ctx : Nat) (s : State) (c : Ctx) (r : List Byte), CommandAt s ctx 2 c r →
    let fid := numAt r 8 4
    (c.faults.find? (·.fid == fid) = none → (numAt r 12 1 = 0 → CommandRuns (.fresumeRetry ctx) s c 3 (· = s)) ∧
      (numAt r 12 1 = 1 → CommandRuns (.fresumeAbandon ctx) s c 3 (· = s))) ∧
    ∀ x, c.faults.find? (·.fid == fid) = some x →
      (numAt r 12 1 = 0 → (∀ q k, x.who ≠ .queue q k) → (∀ q, x.who ≠ .remote q) → CommandRuns (.fresumeRetry ctx) s c 1 fun s1 => FaultGone s s1 ctx fid ∧
        (∀ a b d m, x.who = .issue a b d m → ∀ g ∈ s1.groups, (s.launch? g.launch).any (·.ctx == ctx) = true → ∀ k y, g.thread? k = some y → y.wait ≠ .fault fid) ∧
        (∀ j, x.who = .flight j → ∀ f, s.flight? j = some f → s1.flight? j = some { f with fault := none })) ∧
      (∀ q, numAt r 12 1 = 0 → x.who = .remote q → CommandRuns (.fresumeRetry ctx) s c 1 (· = (dropped s ctx fid).serveRemote q)) ∧
      (∀ q, numAt r 12 1 = 0 → x.who = .queue q .node → CommandRuns (.fresumeRetry ctx) s c 1
        (· = withQueue (dropped s ctx fid) ctx q fun y => { y with fault := none })) ∧
      (∀ q k, numAt r 12 1 = 0 → x.who = .queue q (.replay k) → CommandRuns (.fresumeRetry ctx) s c 1 (· = dropped s ctx fid)) ∧
      (∀ q w n st p, numAt r 12 1 = 0 → x.who = .queue q .status → s.queue? ctx q = some (c, w) → c.frozen = false → w.owed = [(n, st)] →
        (∀ v, w.walk = some v → v.node ≠ 0) → (n + 4) % 4096 + 4 ≤ 4096 → s.translate 256 ctx (n + 4) .write = .ok p →
        CommandRuns (.fresumeRetry ctx) s c 1 fun s1 => OnlyModule s s1 ∧ s1.flights = s.flights ∧ WritesAt s s1 p (leBytes 4 st) ∧
          CtxsKept (withQueue (dropped s ctx fid) ctx q fun y => { y with owed := [] }) s1) ∧
      (∀ a b d m l, numAt r 12 1 = 1 → x.who = .issue a b d m → x.launch = some l.id → s.launch? l.id = some l → l.stop = none → l.hdr.ring = 0 →
        CommandRuns (.fresumeAbandon ctx) s c 1 fun s1 => s1 = (dropped s ctx fid).stopLaunch l.id ⟨11, false, 0x11⟩ ∧ Stopped s1 l.id 11) ∧
      (∀ q w v, numAt r 12 1 = 1 → x.who = .queue q .node → s.queue? ctx q = some (c, w) → c.frozen = false → w.walk = some v →
        (v.phase ≠ .reading → CommandRuns (.fresumeAbandon ctx) s c 1
          (Reports (withQueue (dropped s ctx fid) ctx q fun y => { y with fault := none, parked := true }) · (some ctx) 5 0x11 6)) ∧
        (∀ p, v.phase = .reading → w.owed = [] → (v.node + 4) % 4096 + 4 ≤ 4096 → s.translate 256 ctx (v.node + 4) .write = .ok p →
          CommandRuns (.fresumeAbandon ctx) s c 1 fun s1 => NodeFails s s1 ctx q v.node 11 { w with fault := none, walk := some (gone v v.next) } ∧
            ∃ c1, s1.ctx? ctx = some c1 ∧ c1.desc = c.desc ∧ c1.faults = c.faults.filter (·.fid != fid))) ∧
      (∀ q w n st, numAt r 12 1 = 1 → x.who = .queue q .status → s.queue? ctx q = some (c, w) → c.frozen = false → w.owed = [(n, st)] →
        CommandRuns (.fresumeAbandon ctx) s c 1 (Reports (withQueue (dropped s ctx fid) ctx q fun y => { y with owed := [], parked := true }) · (some ctx) 5 0x11 6)) ∧
      (∀ q w l p, numAt r 12 1 = 1 → x.who = .queue q (.replay l.id) → s.launch? l.id = some l → l.ctx = ctx → s.queue? ctx q = some (c, w) → c.frozen = false →
        w.owed = [] → (l.node + 4) % 4096 + 4 ≤ 4096 → let u := withoutLaunch (dropped s ctx fid) l
        u.translate 256 ctx (l.node + 4) .write = .ok p → CommandRuns (.fresumeAbandon ctx) s c 1 fun s1 =>
          NodeFails { u with hmExpired := u.hmExpired.filter (· != .queue ctx q) } s1 ctx q l.node 11 { w with walk := w.walk.map fun v => left v l.run l.node l.isAsync })) ∧
  (∀ (ctx : Nat) (s : State) (c : Ctx) (r : List Byte), CommandAt s ctx 3 c r →
    let q := numAt r 8 1
    (c.parkedQueue? q = none → CommandRuns (.qresume ctx) s c 3 (· = s)) ∧
    ∀ x, c.frozen = false → c.queues[q]? = some x → x.parked = true → (∀ w, x.walk = some w → w.node ≠ 0 ∨ w.asyncs ≠ []) →
      CommandRuns (.qresume ctx) s c 1 (· = withQueue s ctx q fun y => { y with parked := false })) ∧
  (∀ (ctx : Nat) (s : State) (c : Ctx) (r : List Byte), CommandAt s ctx 4 c r →
    let q := numAt r 8 1
    (c.parkedQueue? q = none → CommandRuns (.qabort ctx) s c 3 (· = s)) ∧
    ∀ x, c.frozen = false → c.queues[q]? = some x → x.parked = true → CommandRuns (.qabort ctx) s c 1 fun s1 =>
      OnlyModule s s1 ∧ s1.flights = s.flights ∧ WritesAt s s1 ⟨.dram, x.entry.addr⟩ (leBytes 8 (s.dram.num x.entry.addr 8 + 1)) ∧
      CtxsKept (withQueue s ctx q fun y => { y with walk := none, parked := false }) s1) ∧
  (∀ (ctx : Nat) (s : State) (c : Ctx) (r : List Byte), CommandAt s ctx 5 c r →
    let at_ := s.haltedGroup? ctx (numAt r 8 2) (numAt r 10 1)
    (at_ = none → (numAt r 11 1 = 0 → CommandRuns (.gresumeRetry ctx) s c 3 (· = s)) ∧ (numAt r 11 1 = 1 → CommandRuns (.gresumeSkip ctx) s c 3 (· = s)) ∧
      (numAt r 11 1 = 2 → CommandRuns (.gresumeAbort ctx) s c 3 (· = s))) ∧
    ∀ g l h, at_ = some (g, l, h) →
      (numAt r 11 1 = 0 → CommandRuns (.gresumeRetry ctx) s c 1 fun s1 => Resumes s s1 g h h.addr) ∧
      (numAt r 11 1 = 1 → h.brk = true → CommandRuns (.gresumeSkip ctx) s c 1 fun s1 => Resumes s s1 g h h.addr) ∧
      (∀ w, numAt r 11 1 = 1 → h.brk = false → s.fetch g.cu ctx h.addr = .word w → w.extractLsb' 25 7 < 0x7C#7 → CommandRuns (.gresumeSkip ctx) s c 1 fun s1 =>
        Resumes s s1 g h (h.addr + 4)) ∧
      (numAt r 11 1 = 2 → l.hdr.ring = 0 → CommandRuns (.gresumeAbort ctx) s c 1 fun s1 => s1 = s.stopLaunch l.id ⟨8, false, 0x0D⟩ ∧
        Stopped s1 l.id 8 ∧ s1.groups = s.groups)) ∧
  (∀ (s : State) (c : Ctx), let h := s.dram.num c.desc.cmdbase 8
    s.command? c = if h = s.dram.num (c.desc.cmdbase + 8) 8 ∨ (∃ b ∈ s.dram.read (c.desc.cmdbase + 16) 48, b ≠ 0) then none
      else some (s.dram.read (c.desc.cmdbase + 64 + 64 * (h % 2 ^ c.desc.cqlog)) 64)) ∧
  ∀ (ctx : Nat) (s : State) (c : Ctx) (r : List Byte), s.ctx? ctx = some c → s.command? c = some r → commandOk r = false →
    CommandRuns (.malformedCommand ctx) s c 2 (· = s)

/-- R378, R388, R391, R392, R398, R409: CREATE starts a context from its descriptor with counters, tickets and faults empty, or sets its bit
of CTXERR where it lives or its tables fail; DESTROY takes everything of the context away, its groups, teams, saved teams, deposits,
locks, operations and cached entries, and nothing of any other context, and a reservation that a launch of it held passes on; a write of
CTXERR clears bits; a translation fault is reported at TAIL of the fault queue with vector 2n, and waits where the queue is full or its
header has a nonzero reserved byte. Where the spec leaves a choice, the choice is the model's: log 11, 88, 89. -/
def Obligations.Contexts : Prop :=
  (∀ (n : Nat) (s : State), s.power = true → n < 64 → (s.ctx? n ≠ none ∨ s.readDesc n = none) →
    ∃ t, exec (.contextCreate n) s = .next t ∧ { t with bar0 := { t.bar0 with ctxerr := s.bar0.ctxerr } } = s ∧
      ∀ k < 64, t.bar0.ctxerr.getLsbD k = (s.bar0.ctxerr.getLsbD k || k == n)) ∧
  (∀ (n : Nat) (s : State) (d : Desc) (es : List QEntry), s.power = true → n < 64 → s.ctx? n = none → s.readDesc n = some (d, es) →
    ∃ t c, exec (.contextCreate n) s = .next t ∧ t.ctxs = s.ctxs ++ [c] ∧ { t with ctxs := s.ctxs, tlb := s.tlb, viewCache := s.viewCache } = s ∧
      t.tlb = s.tlb.filter (·.ctx != n) ∧ t.viewCache = s.viewCache.filter (·.ctx != n) ∧ c.id = n ∧ c.desc = d ∧ c.preserves = [] ∧ c.saveUsed = [] ∧ c.counters = [] ∧ c.seqs = [] ∧ c.tickets = [] ∧ c.faults = [] ∧ c.frozen = false ∧ c.queues.map (·.entry) = es ∧
      ∀ q ∈ c.queues, q.walk = none ∧ q.parked = false ∧ q.fault = none ∧ q.owed = []) ∧
  (∀ (n : Nat) (s : State), s.ctx? n ≠ none →
    let mine := fun (lid : Nat) => s.launches.any fun l => l.ctx == n && l.id == lid
    let team := fun (k : Nat) => s.teams.any fun m => m.ctx == n && m.id == k
    ∃ t, exec (.contextDestroy n) s = .next t ∧ { t with ctxs := s.ctxs, launches := s.launches, teams := s.teams, groups := s.groups, saved := s.saved, flights := s.flights, reservation := s.reservation, hmExpired := s.hmExpired, cus := s.cus, tlb := s.tlb, viewCache := s.viewCache } = s ∧
      t.ctxs = s.ctxs.filter (·.id != n) ∧ t.launches = s.launches.filter (·.ctx != n) ∧ t.teams = s.teams.filter (·.ctx != n) ∧
      (t.groups = s.groups.filter fun g => !mine g.launch) ∧ (t.saved = s.saved.filter (·.team.ctx != n)) ∧ t.flights = s.flights.filter (·.ctx != n) ∧
      ((∀ r, s.reservation = some r → mine r.launch = false) → t.reservation = s.reservation) ∧
      ((∃ r, s.reservation = some r ∧ mine r.launch = true) → t = State.passReservation { t with reservation := none }) ∧ t.tlb = s.tlb.filter (·.ctx != n) ∧ t.viewCache = s.viewCache.filter (·.ctx != n) ∧
      (∀ w, w ∈ t.hmExpired ↔ w ∈ s.hmExpired ∧ ∀ q, w ≠ .queue n q) ∧
      ∀ u, t.cu? u = (s.cu? u).map fun c =>
        { c with locks := c.locks.filter (fun k => !team k.team), berths := c.berths.map (fun b => b.filter fun b => !mine b.launch), ctx := if c.ctx = some n then none else c.ctx, l1 := if c.ctx = some n then [] else c.l1, wdExpired := if c.ctx = some n then false else c.wdExpired }) ∧
  (∀ (m : BitVec 64) (s : State), exec (.ctxerrClear m) s = .next { s with bar0 := { s.bar0 with ctxerr := s.bar0.ctxerr &&& ~~~m } }) ∧
  ∀ (n fid : Nat) (s : State) (c : Ctx) (x : XFault), s.ctx? n = some c → c.faults.find? (fun y => y.fid == fid && !y.reported) = some x →
    let tail := s.dram.num (c.desc.fqbase + 8) 8
    let h : PAddr := ⟨.dram, c.desc.fqbase + 8⟩
    let q : PAddr := ⟨.dram, c.desc.fqbase + 64 + 32 * (tail % 2 ^ c.desc.fqlog)⟩
    let clean := ∀ b ∈ s.dram.read (c.desc.fqbase + 16) 48, b = 0
    (clean → (tail + 2 ^ 64 - s.dram.num c.desc.fqbase 8) % 2 ^ 64 < 2 ^ c.desc.fqlog → ∃ t, exec (.faultReport n fid) s = .next t ∧ t.msix = insertNat s.msix (2 * n) ∧
      OnlyMemory s { t with msix := s.msix, ctxs := s.ctxs } ∧
      (Writable s q 32 → Writable s h 8 → t.dram.num h.addr 8 = (tail + 1) % 2 ^ 64 ∧ t.dram.read q.addr 32 =
        leBytes 8 x.va ++ leBytes 4 x.fid ++ leBytes 1 x.cause ++ leBytes 1 x.access ++ leBytes 1 x.agent ++ leBytes 1 x.slot ++
        leBytes 2 x.cu ++ leBytes 2 x.node ++ List.replicate 12 0) ∧
      ∃ c', t.ctx? n = some c' ∧ { c' with faults := c.faults, preserves := c.preserves } = c ∧ ∀ y ∈ c'.faults, y.fid = fid → y.reported = true) ∧
    (¬clean ∨ 2 ^ c.desc.fqlog ≤ (tail + 2 ^ 64 - s.dram.num c.desc.fqbase 8) % 2 ^ 64 → exec (.faultReport n fid) s = .next s)

/-- R406, R407, R409, R425, R426, R449: register writes take effect on their register alone, NODEID only while no context lives, POWERCAP
only within 1500 to 3200; a read of PORTSTAT answers it and clears its count; the host reads and writes device memory of ready stacks at
the addresses that its decoder maps; a snoop answers the line; a store of the host changes bytes of one line of its memory and no copy
in an L1; the mailbox runs its command and answers. Where the spec leaves a choice, the choice is the model's: log 12, 14, 16, 124. -/
def Obligations.HostLink : Prop :=
  (∀ (v : BitVec 64) (s : State), exec (.nodeidWrite v) s = .next (if s.power = true ∧ s.ctxs = [] then
    { s with bar0 := { s.bar0 with nodeid := v.toNat % 4096 } } else s)) ∧
  (∀ (p : Nat) (s : State), s.power = true → p < 24 → ∃ t, exec (.portstatRead p) s = .next t ∧
    { t with reply := s.reply, replyBad := s.replyBad, bar0 := { t.bar0 with retries := s.bar0.retries } } = s ∧ t.replyBad = false ∧
    t.bar0.retries = s.bar0.retries.filter (·.1 != p) ∧ t.reply = leBytes 8 ((if s.linkReady.getLsbD p then 1 else 0) +
      2 ^ 4 * (lookupKey s.bar0.lanesUp p).getD 0 + 2 ^ 16 * (lookupKey s.bar0.retries p).getD 0)) ∧
  (∀ (off : Nat) (v : BitVec 64) (s : State), s.power = true → ∃ b, exec (.registerWrite off v) s = .next { s with bar0 := b } ∧
    { b with ctxtab := s.bar0.ctxtab, sparemap := s.bar0.sparemap, wdcu := s.bar0.wdcu, wdhm := s.bar0.wdhm, wdarm := s.bar0.wdarm,
             deveqbase := s.bar0.deveqbase, deveqlog := s.bar0.deveqlog, powercap := s.bar0.powercap, mbcmd := s.bar0.mbcmd, route := s.bar0.route } = s.bar0 ∧
    b.ctxtab = (if off = 0x08 then v.toNat / 4096 * 4096 else s.bar0.ctxtab) ∧ b.wdcu = (if off = 0x80 then v.setWidth 32 else s.bar0.wdcu) ∧
    b.wdhm = (if off = 0x88 then v.setWidth 32 else s.bar0.wdhm) ∧ b.wdarm = (if off = 0x90 then v.setWidth 3 else s.bar0.wdarm) ∧
    b.deveqbase = (if off = 0xA0 then v.toNat / 64 * 64 else s.bar0.deveqbase) ∧ b.deveqlog = (if off = 0xA8 then v.toNat % 16 else s.bar0.deveqlog) ∧
    b.powercap = (if off = 0xB0 ∧ 1500 ≤ v.toNat % 4096 ∧ v.toNat % 4096 ≤ 3200 then v.toNat % 4096 else s.bar0.powercap) ∧
    (∀ k < 4, off = 0x48 + 8 * k → s.bar0.sparemap.length = 4 → b.sparemap = s.bar0.sparemap.set k (v &&& 0x803F803F803F803F)) ∧
    (off < 0x48 ∨ 0x68 ≤ off → b.sparemap = s.bar0.sparemap) ∧ (off < 0x2000 ∨ 0x2040 ≤ off → b.mbcmd = s.bar0.mbcmd) ∧
    (off < 0x10000 ∨ 0x14000 ≤ off → b.route = s.bar0.route) ∧
    (∀ k < 8, off = 0x2000 + 8 * k → s.bar0.mbcmd.length = 64 → (b.mbcmd.drop (8 * k)).take 8 = leBytes 8 v.toNat) ∧
    (∀ k < 4096, off = 0x10000 + 4 * k → (lookupKey b.route k).getD 0 = v.toNat % 2 ^ 24 + if v.getLsbD 31 then 2 ^ 31 else 0)) ∧
  (∀ (h n : Nat) (bs : List Byte) (s : State), s.power = true → (h < s.hdmbase ∨ s.hdmbase + 0xC000000000 ≤ h) →
    exec (.hostMemRead h n) s = .next s ∧ exec (.hostMemWrite h bs) s = .next s) ∧
  (∀ (a n : Nat) (s : State), s.power = true → a < 0xC000000000 →
    (s.memReady a n = false → ∃ t, exec (.hostMemRead (s.hdmbase + a) n) s = .next t ∧ { t with reply := s.reply, replyBad := s.replyBad } = s ∧ t.replyBad = true) ∧
    (s.memReady a n = true → ∃ t, exec (.hostMemRead (s.hdmbase + a) n) s = .next t ∧ { t with reply := s.reply, replyBad := s.replyBad } = s ∧ t.reply = s.dram.read a n ∧
      ((∀ k < n, s.isRetired ⟨.dram, a + k⟩ = false ∧ marked s.dramBad (a + k) 1 = false) → t.replyBad = false))) ∧
  (∀ (a : Nat) (bs : List Byte) (s : State), s.power = true → a < 0xC000000000 → (s.memReady a bs.length = false → exec (.hostMemWrite (s.hdmbase + a) bs) s = .next s) ∧
    (s.memReady a bs.length = true → ∃ t, exec (.hostMemWrite (s.hdmbase + a) bs) s = .next t ∧ OnlyMemory s t ∧
      (∀ p : PAddr, ¬(p.space = .dram ∧ a ≤ p.addr ∧ p.addr < a + bs.length) → NoShadow s p 1 → (t.memOf p.space).get p.addr = (s.memOf p.space).get p.addr) ∧
      (s.dram.wf = true → (∀ k < bs.length, s.isRetired ⟨.dram, a + k⟩ = false ∧ NoShadow s ⟨.dram, a + k⟩ 1) → t.dram.read a bs.length = bs))) ∧
  (∀ (base : Nat) (s : State) (rest : List Act), s.port2 = none → s.agenda = .hdmBase base :: rest →
    step s = .next { s with clock := s.clock + 1, agenda := rest, hdmbase := base }) ∧
  (∀ (a : Nat) (s : State), s.power = true → ∃ t, exec (.hostSnoop a) s = .next t ∧ { t with reply := s.reply, replyBad := s.replyBad } = s ∧
    t.reply = s.hostMem.read (a / 64 * 64) 64 ∧ t.replyBad = marked s.hostBad (a / 64 * 64) 64) ∧
  (∀ (a : Nat) (bs : List Byte) (s : State) (rest : List Act), s.port2 = none → s.agenda = .hostStore a bs :: rest →
    let s1 := { s with clock := s.clock + 1, agenda := rest }
    ∃ t, step s = .next t ∧ OnlyMemory s1 t ∧ t.cus = s.cus ∧ t.flights = s.flights ∧ WritesAt s1 t ⟨.host, a⟩ (bs.take (64 - a % 64))) ∧
  (∀ (s : State), s.power = true → s.bar0.mbOk = true → let c := s.bar0.mbcmd
    (numAt c 0 1 = 1 → ∃ t, exec .telem s = .next t ∧ { t with bar0 := { t.bar0 with mbreply := s.bar0.mbreply }, msix := s.msix, free := s.free } = s ∧ MailAnswered s t 0) ∧
    (numAt c 0 1 = 2 → ∃ t, exec .ppr s = .next t ∧ { t with bar0 := { t.bar0 with mbreply := s.bar0.mbreply }, msix := s.msix, free := s.free, repairs := s.repairs } = s ∧
      ((MailAnswered s t 0 ∧ t.repairs = s.repairs ++ [(numAt c 8 4, numAt c 12 4, numAt c 16 4, numAt c 20 4)]) ∨ (MailAnswered s t 1 ∧ t.repairs = s.repairs))) ∧
    (numAt c 0 1 = 3 → ∃ t, exec .retire s = .next t ∧ { t with bar0 := { t.bar0 with mbreply := s.bar0.mbreply }, msix := s.msix, retired := s.retired, cus := s.cus } = s ∧
      t.cus = (s.cus.map fun u => { u with l1 := u.l1.filter fun h => h.at_.space != .dram || h.at_.addr / 4096 != numAt c 8 8 / 4096 }) ∧
      MailAnswered s t 0 ∧ ∀ p, p ∈ t.retired ↔ p = numAt c 8 8 / 4096 ∨ p ∈ s.retired) ∧
    (numAt c 0 1 = 5 →
      let bad := fun (k : Nat) => s.isRetired ⟨.dram, numAt c 8 8 + k⟩ || marked s.dramBad (numAt c 8 8 + k) 1
      ∃ t, exec .fwstore s = .next t ∧ { t with bar0 := { t.bar0 with mbreply := s.bar0.mbreply }, msix := s.msix, firmware := s.firmware } = s ∧
      ((∀ k < numAt c 16 8, bad k = false) → MailAnswered s t 0 ∧ t.firmware = s.dram.read (numAt c 8 8) (numAt c 16 8)) ∧
      ((∃ k < numAt c 16 8, bad k = true) → MailAnswered s t 1 ∧ t.firmware = s.firmware))) ∧
  ∀ (s : State), s.power = true → s.bar0.mbOk = false → ∃ t, exec .malformedMailboxCommand s = .next t ∧
    { t with bar0 := { t.bar0 with mbreply := s.bar0.mbreply }, msix := s.msix } = s ∧ MailAnswered s t 2

/-! ### Start, errors and the fabric -/

namespace Sys2Proof.Claims

/-- The module after a change of power is the module at power-good but for what survives: row repairs, the firmware store, what is not
of the module, and the model's own counters (R20, R424). -/
def PowerCycled (s t : State) (on : Bool) : Prop :=
  { t with power := true, stage1Open := State.reset.stage1Open, repairs := [], firmware := [], hostMem := [], hostBad := [], peers := [], msix := [],
           clock := 0, agenda := [], turn := 0, free := 0, nextLaunch := 1, nextTeamId := 1, nextFlight := 1, nextOrder := 1 } = State.reset ∧
  t.power = on ∧ t.stage1Open = (if on then State.reset.stage1Open else []) ∧ t.repairs = s.repairs ∧ t.firmware = s.firmware ∧
  t.hostMem = s.hostMem ∧ t.peers = s.peers

/-- Of a register of one bit a unit, bit `k` is set too. -/
def BitSet {n : Nat} (a b : BitVec n) (k : Nat) : Prop := ∀ i < n, b.getLsbD i = (a.getLsbD i || i == k)

/-- A die's part of a stage ends once no unit of it is open: its bit reads 1 and vector 128 is raised (R408, R425). -/
def StageEnds (past : Prop) (s t : State) (a b : BitVec 4) (d : Nat) : Prop :=
  (past → BitSet a b d ∧ t.msix = insertNat s.msix 128) ∧ (¬past → b = a ∧ t.msix = s.msix)

/-- A corrected event joins the window of its source and unit, or opens one (R432). -/
def CountsEvent (s t : State) (source unit : Nat) : Prop :=
  match s.windows.find? (fun w => w.source == source && w.unit == unit) with
  | some w => t.windows = updFirst (fun w => w.source == source && w.unit == unit) (fun w => { w with record := { w.record with count := w.record.count + 1 } }) s.windows ∧
      ∃ w', t.windows.find? (fun w => w.source == source && w.unit == unit) = some w' ∧ w'.record.count = w.record.count + 1
  | none => ∃ w, t.windows = s.windows ++ [w] ∧ (w.source, w.unit, w.record.cls, w.record.source, w.record.count) = (source, unit, 1, source, 1)

/-- The context is frozen (R428): its queues are parked, and every launch of it has stopped. -/
def Frozen (t : State) (ctx : Nat) : Prop :=
  ∃ c, t.ctx? ctx = some c ∧ c.frozen = true ∧ (∀ q ∈ c.queues, q.parked = true) ∧ ∀ l ∈ t.launches, l.ctx = ctx → t.launch? l.id = some l → l.stop ≠ none

/-- An expired watchdog has reported, and stopped the launch with STATUS 12 where its level is armed (R447, R448). -/
def WatchdogFires (s1 t : State) (l : Launch) (armed : Bool) (source : Nat) : Prop :=
  ∃ s2, Reports s1 s2 (some l.ctx) 5 source (if armed then 8 else 0) ∧ t = (if armed then s2.stopLaunch l.id ⟨12, false, source⟩ else s2) ∧
    (armed = true → l.hdr.ring = 0 → Stopped t l.id 12)

/-- The success of a refetch is one corrected event with an ACTION: 2 from the same address, 3 from the replica (R432, R440). -/
def RefetchCounts (s t : State) (f : Flight) (r : Refetch) (action : Nat) : Prop :=
  let source := match r.why with
    | .hash => 0x0A
    | .link _ => 0x06
    | .boundary x => x
  let unit := match r.why with
    | .hash => f.cu
    | .link p => 256 + p / 6
    | .boundary x => boundaryUnit x f.cu r.addr
  let same := fun (w : ErrWindow) => w.source == source && w.unit == unit
  CountsEvent s t source unit ∧ (s.windows.find? same = none → ∃ w, t.windows.find? same = some w ∧ w.record.action = action)

/-- The bytes that a remote request names through a descriptor lie in one element, at `p` (R321). -/
def FarElement (s : State) (c : Ctx) (desc : List Byte) (acc : Access) (off len : Nat) (p : PAddr) (va : Nat) : Prop :=
  ((farDesc desc).elems off len).map (fun x => s.mapElem 256 0 c.id .module acc (farDesc desc) x.1 x.2) = [.at_ p va len]

/-- The answer to a remote request: data and its mark. -/
def Answers (s t : State) (bs : List Byte) (bad : Bool) : Prop := { t with reply := s.reply, replyBad := s.replyBad } = s ∧ t.reply = bs ∧ t.replyBad = bad

end Sys2Proof.Claims

/-- R20, R377, R408, R424 to R426: power-good starts stage 0 and power-off ends all; a unit of stage 1 that trains sets its bit, GO2 starts
stage 2 on its dies once, where valid spare entries take their positions; a CU that passes its self-test makes the logical number that
it stands behind ready, and a port that trains sets its bit; a failure sets none and is reported; a stage has ended on a die when no
unit of it is open. Where the spec leaves a choice, the choice is the model's: log 4, 90, 91, 92, 93. -/
def Obligations.StagedStart : Prop :=
  (∀ s : State, s.power = false → ∃ t, exec .powerGood s = .next t ∧ PowerCycled s t true) ∧ (∀ s : State, ∃ t, exec .powerOff s = .next t ∧ PowerCycled s t false) ∧
  (∀ (u : Stage1Unit) (s : State), u ∈ s.stage1Open → ∃ t, exec (.stage1TrainingDone u true) s = .next t ∧ t.stage1Open = s.stage1Open.erase u ∧
    { t with stage1Open := s.stage1Open, llcReady := s.llcReady, stackReady := s.stackReady, msix := s.msix, bar0 := { t.bar0 with stage1Ended := s.bar0.stage1Ended } } = s ∧
    (∀ d, u = .llc d → BitSet s.llcReady t.llcReady d ∧ t.stackReady = s.stackReady) ∧ (∀ n, u = .stack n → BitSet s.stackReady t.stackReady n ∧ t.llcReady = s.llcReady) ∧
    let die := fun (v : Stage1Unit) => match v with
      | .llc d => d
      | .stack n => n / 3
    StageEnds (∀ v ∈ t.stage1Open, die v ≠ die u) s t s.bar0.stage1Ended t.bar0.stage1Ended (die u)) ∧
  (∀ (u : Stage1Unit) (s : State), u ∈ s.stage1Open → ∃ t s1, exec (.stage1TrainingDone u false) s = .next t ∧ Reports { s with stage1Open := s.stage1Open.erase u } s1 none 2 0x14 0 ∧
    { t with msix := s1.msix, bar0 := { t.bar0 with stage1Ended := s1.bar0.stage1Ended } } = s1 ∧ t.llcReady = s.llcReady ∧ t.stackReady = s.stackReady) ∧
  (∀ (m : BitVec 4) (s : State), s.power = true →
    let fresh := fun (d : Nat) => m.getLsbD d && !s.bar0.go2.getLsbD d
    let spares := fun (d : Nat) => (List.range 4).filterMap fun i =>
      let e := (s.bar0.sparemap.getD d 0).extractLsb' (16 * i) 16
      if e.getLsbD 15 then some (64 * d + (e.extractLsb' 0 6).toNat, 256 + 4 * d + i) else none
    let starts := fun (d : Nat) => d < 4 ∧ fresh d = true ∧ ((spares d).map (·.1)).Nodup
    ∃ t, exec (.go2 m) s = .next t ∧ t.bar0.go2 = s.bar0.go2 ||| m ∧ t.cuReady = s.cuReady ∧ t.linkReady = s.linkReady ∧
      (∀ u, u ∈ t.stage2Open ↔ u ∈ s.stage2Open ∨ (u < 272 ∧ starts (if u < 256 then u / 64 else (u - 256) / 4))) ∧
      (∀ x, x ∈ t.spares ↔ x ∈ s.spares ∨ ∃ d, starts d ∧ x ∈ spares d) ∧
      ∀ p, p ∈ t.portsOpen ↔ p ∈ s.portsOpen ∨ (p < 24 ∧ starts (p / 6))) ∧
  (∀ (p : Nat) (s : State), p ∈ s.stage2Open →
    let die := fun (v : Nat) => if v < 256 then v / 64 else (v - 256) / 4
    let behind := fun (v : Nat) => v < 256 ∧ (lookupKey s.spares v).getD v = p
    (∀ u, behind u → (∀ v < u, ¬behind v) →
      (∃ t c, exec (.cuSelfTestDone p true) s = .next t ∧ t.stage2Open = s.stage2Open.erase p ∧
        (∀ k, k ∈ t.cuReady ↔ k = u ∨ k ∈ s.cuReady) ∧ t.cus = s.cus ++ [c] ∧ c.num = u ∧ c.ctx = none ∧ c.l1 = [] ∧ c.locks = [] ∧ c.berths = List.replicate 16 none ∧
        { t with stage2Open := s.stage2Open, cuReady := s.cuReady, cus := s.cus, msix := s.msix, bar0 := { t.bar0 with stage2Ended := s.bar0.stage2Ended } } = s ∧
        StageEnds (∀ v ∈ t.stage2Open, die v ≠ die p) s t s.bar0.stage2Ended t.bar0.stage2Ended (die p)) ∧
      ((∀ l ∈ s.launches, l.resident = false) → ∃ t s1, exec (.cuSelfTestDone p false) s = .next t ∧ Reports { s with stage2Open := s.stage2Open.erase p } s1 none 2 0x14 0 ∧
        t.cuReady = s.cuReady ∧ t.cus = s.cus ∧ { t with msix := s1.msix, bar0 := { t.bar0 with stage2Ended := s1.bar0.stage2Ended } } = s1)) ∧
    ((∀ u, ¬behind u) →
      (∃ t, exec (.cuSelfTestDone p true) s = .next t ∧
        { t with msix := s.msix, bar0 := { t.bar0 with stage2Ended := s.bar0.stage2Ended } } = { s with stage2Open := s.stage2Open.erase p }) ∧
      ∃ t s1, exec (.cuSelfTestDone p false) s = .next t ∧ Reports { s with stage2Open := s.stage2Open.erase p } s1 none 2 0x14 0 ∧
        { t with msix := s1.msix, bar0 := { t.bar0 with stage2Ended := s1.bar0.stage2Ended } } = s1)) ∧
  ∀ (p : Nat) (s : State), p ∈ s.portsOpen → (∃ t, exec (.portTrainingDone p true) s = .next t ∧ t.portsOpen = s.portsOpen.erase p ∧ BitSet s.linkReady t.linkReady p ∧
      { t with portsOpen := s.portsOpen, linkReady := s.linkReady, bar0 := { t.bar0 with lanesUp := s.bar0.lanesUp } } = s ∧
      ∀ k, lookupKey t.bar0.lanesUp k = if k = p then some 4 else lookupKey s.bar0.lanesUp k) ∧
    ∃ t, exec (.portTrainingDone p false) s = .next t ∧ Reports { s with portsOpen := s.portsOpen.erase p } t none 2 0x14 0 ∧ t.linkReady = s.linkReady

/-- R427, R428, R431 to R434: a corrected event counts in its window; an uncorrectable one marks its data and is reported, or freezes the
context whose state it lies in; a record goes to TAIL of its queue where there is room and none waits; where the queue is full it is
dropped and counted if it is of class 1 or 5, and waits else; behind records that wait it waits (log 127); a queue whose header has a
nonzero reserved byte counts as full (log 109); a closed window is reported. Where the spec leaves a choice, the choice is the model's:
log 59, 98, 99, 107, 117, 127. -/
def Obligations.ErrorRecords : Prop :=
  (∀ (s : State) (q : Option Nat) (r : ErrRec) (base cap vec : Nat), s.errQueue q = some (base, cap, vec) → 0 < cap →
    let tail := s.dram.num (base + 8) 8
    let used := (tail + 2 ^ 64 - s.dram.num base 8) % 2 ^ 64
    let a : PAddr := ⟨.dram, base + 64 + 64 * (tail % cap)⟩
    let clean := ∀ b ∈ s.dram.read (base + 16) 48, b = 0
    (clean → used < cap → s.waitingErrs q = [] → let t := s.report q r
      OnlyModule s { t with msix := s.msix, devLost := s.devLost } ∧ t.msix = insertNat s.msix vec ∧ t.flights = s.flights ∧ t.lostOf q = 0 ∧
      (Writable s a 64 → Writable s ⟨.dram, base + 8⟩ 8 → t.dram.read a.addr 64 = r.bytes (s.lostOf q) ∧ t.dram.num (base + 8) 8 = (tail + 1) % 2 ^ 64)) ∧
    (clean → used < cap → s.waitingErrs q ≠ [] → (s.report q r).waitingErrs q = s.waitingErrs q ++ [r] ∧ (s.report q r).dram = s.dram) ∧
    (¬clean ∨ cap ≤ used → (r.cls = 1 ∨ r.cls = 5 → (s.report q r).lostOf q = s.lostOf q + 1 ∧ (s.report q r).waitingErrs q = s.waitingErrs q ∧ (s.report q r).dram = s.dram) ∧
      (r.cls ≠ 1 → r.cls ≠ 5 → (s.report q r).waitingErrs q = s.waitingErrs q ++ [r] ∧ (s.report q r).dram = s.dram))) ∧
  (∀ (s : State) (r : ErrRec), s.bar0.deveqlog < 4 → s.report none r = { s with devLost := s.devLost + 1 }) ∧
  (∀ (site : ErrSite) (s : State), s.power = true → (s.siteInfo site).here = true → ∃ t, exec (.eccCorrected site) s = .next t ∧
    CountsEvent s t (s.siteInfo site).source (s.siteInfo site).unit ∧ ((∀ p, site ≠ .link p) → { t with windows := s.windows } = s)) ∧
  (∀ (p : Nat) (s : State), s.power = true → p < 24 → ∃ t, exec (.eccCorrected (.link p)) s = .next t ∧ CountsEvent s t 6 (256 + p / 6) ∧
    { t with windows := s.windows, bar0 := { t.bar0 with retries := s.bar0.retries } } = s ∧
    (lookupKey t.bar0.retries p).getD 0 = min ((lookupKey s.bar0.retries p).getD 0 + 1) 65535) ∧
  (∀ (a : Nat) (s : State), s.power = true → (a < 0xC000000000 → a / 32 * 32 ∉ s.zeroFlags → ∃ t, exec (.eccUncorrectableDetected (.dram a)) s = .next t ∧
      Reports { s with dramBad := insertNat s.dramBad (a / 32 * 32) } t none 2 1 0) ∧
    (a < 2 ^ 48 → ∃ t, exec (.eccUncorrectableDetected (.llcHost a)) s = .next t ∧ Reports { s with hostBad := insertNat s.hostBad (a / 32 * 32) } t none 2 2 0) ∧
    (a / 32 * 32 ∈ s.zeroFlags → exec (.eccUncorrectableDetected (.dram a)) s = .next s) ∧
    (a < 0xC000000000 → ∃ t, exec (.eccUncorrectableDetected (.llc a)) s = .next t ∧ Reports { s with dramBad := insertNat s.dramBad (a / 32 * 32) } t none 2 2 0) ∧
    (a < 2 ^ 48 → ∃ t, exec (.eccUncorrectableDetected (.cxl a)) s = .next t ∧ Reports { s with hostBad := insertNat s.hostBad (a / 32 * 32) } t none 2 7 0)) ∧
  (∀ (id off : Nat) (s : State) (m : Team), s.power = true → s.team? id = some m →
    (off < m.scr → ∃ t s1, exec (.eccUncorrectableDetected (.scratch id off)) s = .next t ∧ { s1 with teams := s.teams } = s ∧
      s1.team? id = some { m with bad := insertNat m.bad (off / 32 * 32) } ∧ Reports s1 t (some m.ctx) 2 3 0) ∧
    ∀ p h, off < 65536 → m.hold.find? (·.part == p) = some h → ∃ t s1 m1, exec (.eccUncorrectableDetected (.hold id p off)) s = .next t ∧ { s1 with teams := s.teams } = s ∧
      s1.team? id = some m1 ∧ m1.holdPart p = { h with bad := insertNat h.bad off } ∧ Reports s1 t (some m.ctx) 2 5 0) ∧
  (∀ (u p k lane r : Nat) (s : State) (g : Group) (x : Thread), s.power = true → s.group? u p k = some g → g.thread? lane = some x → lane < 32 → r < g.nreg →
    ∃ t s1 g1, exec (.eccUncorrectableDetected (.reg u p k lane r)) s = .next t ∧ { s1 with groups := s.groups } = s ∧ s1.group? u p k = some g1 ∧
      g1.thread? lane = some { x with bad := insertNat x.bad r } ∧ (∀ n, n ≠ lane → g1.thread? n = g.thread? n) ∧ Reports s1 t ((s.team? g.team).map (·.ctx)) 2 4 0) ∧
  (∀ (c a : Nat) (s : State) (x : Ctx), s.power = true → s.ctx? c = some x → x.frozen = false → (∀ l ∈ s.launches, l.ctx = c → l.hdr.ring = 0) →
    (s.launches.map (·.id)).Nodup → (∀ q ∈ x.queues, q.walk = none) → ∃ t, exec (.eccUncorrectableDetected (.control c a)) s = .next t ∧ Frozen t c) ∧
  (∀ (source unit : Nat) (s : State) (w : ErrWindow), s.windows.find? (fun w => w.source == source && w.unit == unit) = some w →
    exec (.errorWindowClose source unit) s = .next (State.report { s with windows := s.windows.filter fun w => !(w.source == source && w.unit == unit) } w.ctx w.record)) ∧
  ∀ (q : Option Nat) (s : State) (r : ErrRec) (rs : List ErrRec) (base cap vec : Nat), s.waitingErrs q = r :: rs → s.errQueue q = some (base, cap, vec) →
    let tail := s.dram.num (base + 8) 8
    (∀ b ∈ s.dram.read (base + 16) 48, b = 0) → (tail + 2 ^ 64 - s.dram.num base 8) % 2 ^ 64 < cap → ∃ t, exec (.errorRecordWrite q) s = .next t ∧ t.waitingErrs q = rs ∧ t.msix = insertNat s.msix vec ∧
      (Writable s ⟨.dram, base + 64 + 64 * (tail % cap)⟩ 64 → Writable s ⟨.dram, base + 8⟩ 8 →
        t.dram.read (base + 64 + 64 * (tail % cap)) 64 = r.bytes (s.lostOf q) ∧ t.dram.num (base + 8) 8 = (tail + 1) % 2 ^ 64)

/-- R389, R408, R447, R448, R450: a group, CU or harbourmaster watchdog that expires reports, and stops its launch with STATUS 12 where its
level is armed, or ends the graph of a WAIT node with STATUS 12 as QABORT does; a limit of power or heat is entered and left with a
record, and a thermal shutdown powers the module off. Where the spec leaves a choice, the choice is the model's: log 94, 95, 96, 97. -/
def Obligations.WatchdogsAndLimits : Prop :=
  (∀ (cu part slot : Nat) (s : State) (g : Group) (l : Launch), s.group? cu part slot = some g → s.launch? g.launch = some l → l.stop = none → g.halt = none →
    g.wdExpired = none → (∃ k, g.thread? k ≠ none) → (if g.wdgroup = 0 then l.hdr.wdg else g.wdgroup.toNat) ≠ 0 →
    let first := s.groups.all fun h => h.cu != cu || h.wdExpired.isNone
    let s1 := { s with
      groups := updFirst (·.at_ cu part slot) (fun g => { g with wdExpired := some s.clock }) s.groups
      cus := if first then updFirst (·.num == cu) (fun c => { c with wdExpired := false }) s.cus else s.cus
      hmExpired := if first then s.hmExpired.filter (· != .cu cu) else s.hmExpired }
    ∃ t, exec (.groupWatchdogExpiry cu part slot) s = .next t ∧ WatchdogFires s1 t l (s.bar0.wdarm.getLsbD 0) 0x0E) ∧
  (∀ (cu : Nat) (s : State) (c : Cu) (l : Launch), s.cu? cu = some c → s.expiredLaunch cu = some l → s.launch? l.id = some l → l.stop = none → s.bar0.wdcu ≠ 0 →
    c.wdExpired = false → ∃ t, exec (.cuWatchdogExpiry cu) s = .next t ∧
      WatchdogFires { s with cus := updFirst (·.num == cu) (fun c => { c with wdExpired := true }) s.cus } t l (s.bar0.wdarm.getLsbD 1) 0x0F) ∧
  (∀ (cu : Nat) (s : State) (c : Cu) (l : Launch), s.cu? cu = some c → s.expiredLaunch cu = some l → s.launch? l.id = some l → l.stop = none → s.bar0.wdhm ≠ 0 →
    c.wdExpired = true → HmWait.cu cu ∉ s.hmExpired → ∃ t, exec (.harbourmasterWatchdogExpiry (.cu cu)) s = .next t ∧
      WatchdogFires { s with hmExpired := s.hmExpired ++ [.cu cu] } t l (s.bar0.wdarm.getLsbD 2) 0x10) ∧
  (∀ (ctx q : Nat) (s : State) (c : Ctx) (x : Queue) (w : Walk), s.queue? ctx q = some (c, x) → c.frozen = false → x.walk = some w → w.node ≠ 0 → w.phase = .running →
    s.bar0.wdhm ≠ 0 → HmWait.queue ctx q ∉ s.hmExpired → s.bar0.wdarm.getLsbD 2 = false →
    ∃ t, exec (.harbourmasterWatchdogExpiry (.queue ctx q)) s = .next t ∧ Reports { s with hmExpired := s.hmExpired ++ [.queue ctx q] } t (some ctx) 5 0x10 0) ∧
  (∀ (ctx q : Nat) (s : State) (c : Ctx) (x : Queue) (w : Walk), s.queue? ctx q = some (c, x) → c.frozen = false → x.walk = some w → w.node ≠ 0 → w.phase = .running →
    s.bar0.wdhm ≠ 0 → HmWait.queue ctx q ∉ s.hmExpired → s.bar0.wdarm.getLsbD 2 = true →
    let s0 := { s with hmExpired := s.hmExpired ++ [.queue ctx q] }
    (w.waiting ≠ none → ∃ t s1, exec (.harbourmasterWatchdogExpiry (.queue ctx q)) s = .next t ∧ Reports s0 s1 (some ctx) 5 0x10 8 ∧
      ∀ x1 c1 p, s1.queue? ctx q = some (c1, x1) → x1.owed = [] → (w.node + 4) % 4096 + 4 ≤ 4096 → s1.translate 256 ctx (w.node + 4) .write = .ok p →
        let h : PAddr := ⟨.dram, x.entry.addr⟩
        OnlyModule s1 t ∧ t.flights = s1.flights ∧ (t.queue? ctx q).map (·.2) = some { x1 with walk := none, parked := false } ∧
        (Writable s1 p 4 → Writable s1 h 8 → (p.space = .dram → overlap p.addr 4 h.addr 8 = false) →
          (t.memOf p.space).read p.addr 4 = leBytes 4 12 ∧ t.dram.num h.addr 8 = (s1.dram.num h.addr 8 + 1) % 2 ^ 64)) ∧
    (∀ l, w.waiting = none → (s.launches.find? fun l => l.ctx == ctx && l.queue == q && l.node == w.node && l.stop.isNone) = some l → s.launch? l.id = some l →
      ∃ t, exec (.harbourmasterWatchdogExpiry (.queue ctx q)) s = .next t ∧ WatchdogFires s0 t l true 0x10)) ∧
  (∀ (enter : Bool) (s : State), s.power = true →
    (s.thermalLimited ≠ enter → ∃ t, exec (.powerLimitChange true enter) s = .next t ∧ Reports { s with thermalLimited := enter } t none 5 0x12 0) ∧
    (s.powerLimited ≠ enter → ∃ t, exec (.powerLimitChange false enter) s = .next t ∧ Reports { s with powerLimited := enter } t none 5 0x13 0)) ∧
  ∀ s : State, s.power = true → ∃ t s1, exec .thermalShutdown s = .next t ∧ Reports s s1 none 5 0x12 0 ∧ PowerCycled s1 t false

/-- R177, R321, R409 to R412, R436, R440: a failed flit check is retransmitted, counted at its port and as a corrected event, three times
before it sends an operation's data to the refetch procedure, which does the part again from the same address, then from the replica,
goes on once the data has come and stops the launch as a consumed error, or fails the collective, if it does not; a read that fails the
check of a unit's boundary goes there too, and a read of a word, its fetch among them, is read again, as a corrected event, or stops the
launch; a write of a program, of an operation in flight, of RING_DRAIN or of PREEMPT_SAVE that fails its check again when it is sent
once more stops its launch, and a word has no effect then; a remote request is served from device memory or through the sent descriptor;
a far host's answer resumes or abandons; a packet for another node leaves by a trained port of its route with its count lowered, or is
dropped, which its requester learns. Where the spec leaves a choice, the choice is the model's: log 14, 23, 100, 101, 102, 103, 104,
105, 110, 122, 128. -/
def Obligations.LinksAndFabric : Prop :=
  (∀ (p : Nat) (s : State), p < 24 → ∃ t, exec (.flitCheckFail p none) s = .next t ∧ CountsEvent s t 6 (256 + p / 6) ∧
    { t with windows := s.windows, free := s.free, bar0 := { t.bar0 with retries := s.bar0.retries } } = s ∧
    (lookupKey t.bar0.retries p).getD 0 = min ((lookupKey s.bar0.retries p).getD 0 + 1) 65535) ∧
  (∀ (p k : Nat) (s : State) (f : Flight), p < 24 → s.flight? k = some f → f.fault = none → f.refetch = none →
    let same := fun (w : ErrWindow) => w.source == 6 && w.unit == 256 + p / 6
    ∃ t r w, exec (.flitCheckFail p (some k)) s = .next t ∧ { t with flights := s.flights, windows := s.windows, free := s.free, bar0 := { t.bar0 with retries := s.bar0.retries } } = s ∧
      t.flight? k = some { f with refetch := some r } ∧ r.why = .link p ∧ (∀ j, j ≠ k → t.flight? j = s.flight? j) ∧
      (lookupKey t.bar0.retries p).getD 0 = min ((lookupKey s.bar0.retries p).getD 0 + 3) 65535 ∧
      t.windows.find? same = some w ∧ w.record.count = (s.windows.find? same).elim 0 (·.record.count) + 3 ∧
      (∀ q, s.windows.find? same = none → (∃ x, f.op = .load x) ∨ (∃ x, f.op = .atomic x) ∨ (∃ x v, f.op = .sload x v) ∨ (∃ x, f.op = .convoy x) → isView f.va = false →
        s.translate f.cu f.ctx f.va .read = .ok q → w.record.addr = q.addr) ∧
      ∀ q va x v d off, s.windows.find? same = none → f.op = .pilot x → x.p1 = .view v d off → s.mapElem f.cu f.cu f.ctx .module .read d off 1 = .at_ q va 1 →
        w.record.addr = q.addr) ∧
  (∀ (k source : Nat) (s : State) (f : Flight) (rest : List Act), s.port2 = none → s.agenda = .readFail k source :: rest → s.flight? k = some f → f.fault = none →
    f.refetch = none → f.op.readsData = true → 0 < source → source ≤ 3 →
    ∃ t r, step s = .next t ∧ { t with clock := s.clock, agenda := s.agenda, free := s.free, flights := s.flights } = s ∧
      t.flight? k = some { f with refetch := some r } ∧ r.why = .boundary source ∧ ∀ j, j ≠ k → t.flight? j = s.flight? j) ∧
  (∀ (k : Nat) (ok : Bool) (s : State) (f : Flight) (r : Refetch), s.flight? k = some f → f.refetch = some r → f.op.plain = true →
    (r.why = .hash ∨ ok = true → ∃ t, exec (.refetch k ok) s = .next t ∧ { t with windows := s.windows, flights := s.flights } = s ∧
      t.flight? k = some { f with refetch := none } ∧ RefetchCounts s t f r 2) ∧
    (∀ l, r.why ≠ .hash → ok = false → (∀ c, f.op ≠ .convoy c) → s.launch? f.launch = some l → l.stop = none → l.hdr.ring = 0 →
      ∃ t, exec (.refetch k ok) s = .next t ∧ Stopped t f.launch 9 ∧ t.flight? k = none) ∧
    (∀ c, r.why ≠ .hash → ok = false → f.op = .convoy c → c.node = none →
      let s0 := s.updFlight k fun f => { f with refetch := none }
      ∃ t s1, exec (.refetch k ok) s = .next t ∧ CollectiveFails s0 s1 { f with refetch := none } c 2 ∧ Reports s1 t (some f.ctx) 2 0x15 0)) ∧
  (∀ (k : Nat) (ok : Bool) (s : State) (f0 : Flight) (r : Refetch), s.flight? k = some f0 → f0.refetch = some r → f0.op.plain = false →
    let f := { f0 with refetch := none }
    let s1 := s.updFlight k fun f => { f with refetch := none }
    let home := s1.redo f r .home
    let away := s1.redo f r (if r.why = .hash then .either else .replica)
    let lost := r.why ≠ .hash ∧ ok = false
    (home = none → exec (.refetch k ok) s = .next s) ∧
    (∀ u, home = some (.go u) → ¬lost → ∃ t, exec (.refetch k ok) s = .next t ∧ { t with windows := u.windows } = u ∧ RefetchCounts u t f r 2) ∧
    (((∃ u, home = some (.go u)) ∧ lost) ∨ (∃ line va, home = some (.hash line va)) →
      (∀ u, away = some (.go u) → ∃ t, exec (.refetch k ok) s = .next t ∧ { t with windows := u.windows } = u ∧ RefetchCounts u t f r 3) ∧
      (∀ l, away = none ∨ (∃ line va, away = some (.hash line va)) → s.launch? f.launch = some l → l.stop = none → l.hdr.ring = 0 →
        ∃ t, exec (.refetch k ok) s = .next t ∧ Stopped t f.launch 9 ∧ t.flight? k = none))) ∧
  (∀ (s t : State) (i : Instr), s.upset ≠ some .write ∨ s.written t = none → (∀ x b, s.upset ≠ some (.read x b)) → exec i s = .next t →
    execChecked i s = .next t) ∧
  (∀ (i : Instr) (s t : State) (e : Env) (source a : Nat) (lost : Bool), s.upset = some (.read source lost) → s.env? = some e → i.encode.isSome = true →
    exec i s = .next t → s.tookIn t = true → e.readAddr i source = some a →
    (lost = true → e.l.stop = none → e.l.hdr.ring = 0 → ∃ u, execChecked i s = .next u ∧ Stopped u e.l.id 9 ∧ u.upset = none ∧
      u.groups = s.groups ∧ u.teams = s.teams ∧ u.flights = s.flights) ∧
    (lost = false → ∃ u, execChecked i s = .next u ∧ { u with windows := t.windows, upset := t.upset } = t ∧ u.upset = none ∧
      CountsEvent t u source (boundaryUnit source e.iss.cu a))) ∧
  (∀ (i : Instr) (s t : State) (l : Launch) (source a : Nat), s.upset = some .write → s.writesFor i = some l → exec i s = .next t →
    s.written t = some (source, a) → l.stop = none → ∃ u, execChecked i s = .next u ∧ Stopped u l.id 9 ∧ u.upset = none ∧
      u.groups = s.groups ∧ u.teams = s.teams ∧ u.flights = s.flights) ∧
  (∀ (i : Instr) (s t : State) (e : Env) (source a : Nat), s.upset = some .write → s.env? = some e → i.encode.isSome = true → exec i s = .next t →
    s.written t = some (source, a) → e.l.stop = none → e.l.hdr.ring = 0 → ∃ u, execChecked i s = .next u ∧ Stopped u e.l.id 9 ∧ u.upset = none ∧
      u.groups = s.groups ∧ u.teams = s.teams ∧ u.flights = s.flights) ∧
  (∀ (i : Instr) (k : Nat) (s t : State) (f : Flight) (l : Launch) (source a : Nat), s.upset = some .write → eventFlight i = some k → exec i s = .next t →
    s.written t = some (source, a) → s.flight? k = some f → (∀ c, f.op ≠ .convoy c) → s.launch? f.launch = some l → l.stop = none → l.hdr.ring = 0 →
    ∃ u, execChecked i s = .next u ∧ Stopped u f.launch 9 ∧ u.flight? k = none ∧ u.upset = none) ∧
  (∀ (via : Via) (s : State) (f : Flight) (r : Refetch) (l : Launch) (m0 : Team) (u : Cu), s.flight? f.id = some f → s.launch? f.launch = some l →
    let again := fun (t : State) => s.redo f r via = some (.go t)
    CopyLands s f l via r.team r.line again ∧ (via = .home → CopyLeaves s f r.team r.line again) ∧
    (s.team? f.team = some m0 → s.cu? m0.cu = some u → s.upset ≠ some .residue → NoSkips s f → PilotEnds s f l via m0 again ∧ MchkEnds s f l via m0 again)) ∧
  (∀ (n a len : Nat) (s : State), s.power = true → ∃ t, exec (.remoteRequest (.read n a len)) s = .next t ∧
    (len ≠ 0 → a + len ≤ 0xC000000000 → t.reply = s.dram.read a len ∧ { t with reply := s.reply, replyBad := s.replyBad } = s) ∧
    (len = 0 ∨ 0xC000000000 < a + len → Answers s t [] true)) ∧
  (∀ (n a : Nat) (bs : List Byte) (s : State), s.power = true → ∃ t, exec (.remoteRequest (.write n a bs)) s = .next t ∧
    (bs ≠ [] → a + bs.length ≤ 0xC000000000 → OnlyMemory s { t with reply := s.reply, replyBad := s.replyBad } ∧ t.reply = [] ∧ t.replyBad = false ∧
      (s.dram.wf = true → (∀ k < bs.length, s.isRetired ⟨.dram, a + k⟩ = false ∧ NoShadow s ⟨.dram, a + k⟩ 1) → t.dram.read a bs.length = bs)) ∧
    (bs = [] ∨ 0xC000000000 < a + bs.length → Answers s t [] true)) ∧
  (∀ (n a : Nat) (o : AtomOp) (wide : Bool) (v w : BitVec 64) (s : State), s.power = true →
    let z := if wide then 8 else 4
    let cut := fun (x : BitVec 64) => if wide then x.toNat else x.toNat % 2 ^ 32
    let old := leNat (s.dram.read a z)
    a % z = 0 → a + z ≤ 0xC000000000 → (s.loadPhys ⟨.dram, a⟩ z).2 = false →
    ∃ t, exec (.remoteRequest (.atomic n a (.op o) wide v w)) s = .next t ∧ t.reply = leBytes z old ∧ t.replyBad = false ∧
      WritesAt s t ⟨.dram, a⟩ (leBytes z (atomNew o (8 * z) old (cut v) (cut w)))) ∧
  (∀ (n a : Nat) (v w : BitVec 64) (s : State), s.power = true → a % 4 = 0 → a + 4 ≤ 0xC000000000 → (s.loadPhys ⟨.dram, a⟩ 4).2 = false →
    ∃ t, exec (.remoteRequest (.atomic n a .fadd false v w)) s = .next t ∧ t.reply = s.dram.read a 4 ∧
      WritesAt s t ⟨.dram, a⟩ (leBytes 4 (fAdd32 .rne (leNat (s.dram.read a 4)) (v.toNat % 2 ^ 32)).pat)) ∧
  (∀ (n a : Nat) (v : BitVec 64) (s : State), s.power = true → a % 8 = 0 → a + 8 ≤ 0xC000000000 → (s.loadPhys ⟨.dram, a⟩ 8).2 = false →
    ∃ t, exec (.remoteRequest (.fxadd n a v)) s = .next t ∧ t.reply = s.dram.read a 8 ∧ WritesAt s t ⟨.dram, a⟩ (leBytes 8 (leNat (s.dram.read a 8) + v.toNat))) ∧
  (∀ (n tag off len : Nat) (desc : List Byte) (s : State), s.power = true →
    (s.ctxOfTag tag = none → ∃ t, exec (.remoteRequest (.viewRead n tag desc [(off, len)])) s = .next t ∧ Answers s t [] true) ∧
    ∀ c p va, s.ctxOfTag tag = some c → FarElement s c desc .read off len p va →
      ∃ t, exec (.remoteRequest (.viewRead n tag desc [(off, len)])) s = .next t ∧ Answers s t (s.loadPhys p len).1 (s.loadPhys p len).2) ∧
  (∀ (n tag off : Nat) (desc bs : List Byte) (s : State) (c : Ctx) (p : PAddr) (va : Nat), s.power = true → s.ctxOfTag tag = some c →
    (farDesc desc).readOnly = false → s.farGran c (farDesc desc) [(off, bs.length)] = false → FarElement s c desc .write off bs.length p va →
    ∃ t, exec (.remoteRequest (.viewWrite n tag desc [(off, bs)])) s = .next t ∧ t.reply = [] ∧ t.replyBad = false ∧ WritesAt s t p bs) ∧
  (∀ (n tag off : Nat) (desc : List Byte) (o : AtomOp) (wide : Bool) (v w : BitVec 64) (s : State) (c : Ctx) (p : PAddr) (va : Nat), s.power = true → s.ctxOfTag tag = some c →
    let z := if wide then 8 else 4
    let cut := fun (x : BitVec 64) => if wide then x.toNat else x.toNat % 2 ^ 32
    let old := leNat (s.loadPhys p z).1
    (farDesc desc).readOnly = false → s.farGran c (farDesc desc) [(off, z)] = false → z = 2 ^ (farDesc desc).esz → FarElement s c desc .atomic off z p va →
    (s.loadPhys p z).2 = false → ∃ t, exec (.remoteRequest (.viewAtomic n tag desc (.op o) wide [(off, v, w)])) s = .next t ∧
      t.reply = (s.loadPhys p z).1 ∧ t.replyBad = false ∧ WritesAt s t p (leBytes z (atomNew o (8 * z) old (cut v) (cut w)))) ∧
  (∀ (n tag off : Nat) (desc : List Byte) (v : BitVec 64) (s : State) (c : Ctx) (p : PAddr) (va : Nat), s.power = true → s.ctxOfTag tag = some c →
    (farDesc desc).readOnly = false → s.farGran c (farDesc desc) [(off, 8)] = false → (farDesc desc).esz = 3 → FarElement s c desc .atomic off 8 p va →
    (s.loadPhys p 8).2 = false → ∃ t, exec (.remoteRequest (.viewFxadd n tag desc [(off, v)])) s = .next t ∧
      t.reply = (s.loadPhys p 8).1 ∧ t.replyBad = false ∧ WritesAt s t p (leBytes 8 (leNat (s.loadPhys p 8).1 + v.toNat))) ∧
  (∀ (ctx fid : Nat) (abandon : Bool) (s : State) (rest : List Act) (c : Ctx), s.port2 = none → s.agenda = .farResume ctx fid abandon :: rest → s.ctx? ctx = some c →
    let s0 := { s with clock := s.clock + 1, agenda := rest }
    (fid < 2 ^ 32 ∨ c.faults.find? (·.fid == fid) = none → step s = .next s0) ∧
    ∀ x u p k m, c.faults.find? (·.fid == fid) = some x → 2 ^ 32 ≤ fid → x.who = .issue u p k m →
      (abandon = false → ∃ t, step s = .next t ∧ FaultGone s0 t ctx fid ∧
        ∀ g ∈ t.groups, (s.launch? g.launch).any (·.ctx == ctx) = true → ∀ k y, g.thread? k = some y → y.wait ≠ .fault fid) ∧
      (∀ l, abandon = true → x.launch = some l.id → s.launch? l.id = some l → l.stop = none → l.hdr.ring = 0 → ∃ t, step s = .next t ∧ Stopped t l.id 11)) ∧
  ∀ (k hops e : Nat) (s : State), s.power = true → k ≠ s.bar0.nodeid →
    (hops = 0 ∨ lookupKey s.bar0.route k = none ∨
      (lookupKey s.bar0.route k = some e ∧ (bitOf e 31 = false ∨ ∀ p < 24, bitOf e p = false ∨ s.linkReady.getLsbD p = false)) →
      ∃ t, exec (.packetForward k hops) s = .next t ∧ Answers s t [5] true) ∧
    (∀ p < 24, hops ≠ 0 → lookupKey s.bar0.route k = some e → bitOf e 31 = true → bitOf e p = true → s.linkReady.getLsbD p = true →
      ∃ t q, exec (.packetForward k hops) s = .next t ∧ t = { s with sent := s.sent ++ [(q, k, hops - 1)] } ∧ bitOf e q = true ∧ s.linkReady.getLsbD q = true)
end

