-- ==== Sys2Proof/Laws/Memory.lean ====
section
/-!
SUPPORT. Sparse memory: reading after writing, and the canonical form, which every operation over memory keeps and
which makes equal memories equal data.
-/
namespace Sys2Proof.Machine

/-- Every listed address of a canonical memory lies above a bound. -/
def Mem.above (m : Mem) (x : Nat) : Prop := ∀ c ∈ m, x < c.1

theorem Mem.wf_cons (a : Nat) (b : Byte) (m : Mem) :
    Mem.wf ((a, b) :: m) = true ↔ b ≠ 0 ∧ Mem.above m a ∧ Mem.wf m = true := by
  induction m generalizing a b with
  | nil => simp [Mem.wf, Mem.above]
  | cons c r ih =>
    obtain ⟨a', b'⟩ := c
    have h := ih a' b'
    simp only [Mem.wf, Bool.and_eq_true, decide_eq_true_eq, bne_iff_ne, ne_eq]
    constructor
    · rintro ⟨⟨h1, h2⟩, h3⟩
      refine ⟨h2, ?_, h3⟩
      intro c hc
      rcases List.mem_cons.1 hc with rfl | hc
      · exact h1
      · exact Nat.lt_trans h1 ((h.1 h3).2.1 c hc)
    · rintro ⟨h1, h2, h3⟩
      exact ⟨⟨h2 (a', b') (by simp), h1⟩, h3⟩

theorem Mem.get_of_above (m : Mem) (x y : Nat) (h : Mem.above m x) (hy : y ≤ x) : m.get y = 0 := by
  induction m with
  | nil => rfl
  | cons c r ih =>
    obtain ⟨a, b⟩ := c
    have ha : x < a := h (a, b) (by simp)
    rw [Mem.get, if_neg (by omega)]
    exact ih fun c hc => h c (by simp [hc])

theorem Mem.above_set (m : Mem) (x a : Nat) (v : Byte) (h : Mem.above m x) (ha : x < a) : Mem.above (m.set a v) x := by
  induction m with
  | nil =>
    rw [Mem.set]
    split
    · exact h
    · intro c hc
      simp only [List.mem_singleton] at hc
      subst hc
      exact ha
  | cons c r ih =>
    obtain ⟨b, w⟩ := c
    have hb : x < b := h (b, w) (by simp)
    have hr : Mem.above r x := fun c hc => h c (by simp [hc])
    rw [Mem.set]
    split
    · split
      · exact h
      · intro c hc
        rcases List.mem_cons.1 hc with rfl | hc
        · exact ha
        · exact h c hc
    · split
      · split
        · exact hr
        · intro c hc
          rcases List.mem_cons.1 hc with rfl | hc
          · exact ha
          · exact hr c hc
      · intro c hc
        rcases List.mem_cons.1 hc with rfl | hc
        · exact hb
        · exact ih hr c hc

/-- A write of one byte keeps the canonical form. -/
theorem Mem.wf_set (m : Mem) (a : Nat) (v : Byte) (h : m.wf = true) : (m.set a v).wf = true := by
  induction m with
  | nil =>
    rw [Mem.set]
    split
    · rfl
    · rw [Mem.wf_cons]
      exact ⟨by assumption, by simp [Mem.above], rfl⟩
  | cons c r ih =>
    obtain ⟨b, w⟩ := c
    have hc := (Mem.wf_cons b w r).1 h
    rw [Mem.set]
    split
    · split
      · exact h
      · rw [Mem.wf_cons]
        refine ⟨by assumption, ?_, h⟩
        intro c hm
        rcases List.mem_cons.1 hm with rfl | hm
        · assumption
        · exact Nat.lt_trans (by assumption) (hc.2.1 c hm)
    · split
      · subst a
        split
        · exact hc.2.2
        · rw [Mem.wf_cons]
          exact ⟨by assumption, hc.2.1, hc.2.2⟩
      · rw [Mem.wf_cons]
        exact ⟨hc.1, Mem.above_set r b a v hc.2.1 (by omega), ih hc.2.2⟩

/-- A byte after a write of one byte. -/
theorem Mem.get_set (m : Mem) (a x : Nat) (v : Byte) (h : m.wf = true) :
    (m.set a v).get x = if x = a then v else m.get x := by
  induction m with
  | nil =>
    rw [Mem.set]
    split
    · simp_all [Mem.get]
    · simp only [Mem.get]
      by_cases hx : x = a
      · simp [hx]
      · simp [hx, Ne.symm hx]
  | cons c r ih =>
    obtain ⟨b, w⟩ := c
    have hc := (Mem.wf_cons b w r).1 h
    rw [Mem.set]
    split
    · rename_i hab
      split
      · rename_i hv
        by_cases hx : x = a
        · subst hx
          rw [if_pos rfl, hv]
          refine Mem.get_of_above _ x x ?_ (Nat.le_refl _)
          intro c hm
          rcases List.mem_cons.1 hm with rfl | hm
          · exact hab
          · exact Nat.lt_trans hab (hc.2.1 c hm)
        · rw [if_neg hx]
      · by_cases hx : x = a
        · subst hx; simp [Mem.get]
        · rw [if_neg hx, Mem.get, if_neg (Ne.symm hx)]
    · split
      · rename_i hab
        subst hab
        split
        · rename_i hv
          by_cases hx : x = a
          · subst hx
            rw [if_pos rfl, hv]
            exact Mem.get_of_above r x x hc.2.1 (Nat.le_refl _)
          · rw [if_neg hx, Mem.get, if_neg (Ne.symm hx)]
        · by_cases hx : x = a
          · subst hx; simp [Mem.get]
          · rw [if_neg hx, Mem.get, if_neg (Ne.symm hx), Mem.get, if_neg (Ne.symm hx)]
      · rw [Mem.get, ih hc.2.2, Mem.get]
        by_cases hx : b = x
        · rw [if_pos hx, if_pos hx, if_neg (by omega)]
        · rw [if_neg hx, if_neg hx]

/-- A write of bytes keeps the canonical form. -/
theorem Mem.wf_write (m : Mem) (a : Nat) (bs : List Byte) (h : m.wf = true) : (m.write a bs).wf = true := by
  induction bs generalizing m a with
  | nil => exact h
  | cons b r ih => exact ih _ _ (Mem.wf_set m a b h)

/-- A byte after a write of bytes: what was written there, else what was there. -/
theorem Mem.get_write (m : Mem) (a x : Nat) (bs : List Byte) (h : m.wf = true) :
    (m.write a bs).get x = if a ≤ x ∧ x < a + bs.length then bs.getD (x - a) 0 else m.get x := by
  induction bs generalizing m a with
  | nil =>
    rw [Mem.write, if_neg]
    simp only [List.length_nil, Nat.add_zero]
    omega
  | cons b r ih =>
    rw [Mem.write, ih _ _ (Mem.wf_set m a b h), Mem.get_set m a x b h]
    simp only [List.length_cons]
    by_cases hx : x = a
    · subst hx
      rw [if_neg (by omega), if_pos rfl, if_pos (by omega)]
      simp
    · rw [if_neg hx]
      by_cases hi : a + 1 ≤ x ∧ x < a + 1 + r.length
      · rw [if_pos hi, if_pos (by omega)]
        obtain ⟨k, rfl⟩ := Nat.exists_eq_add_of_le hi.1
        rw [show a + 1 + k - (a + 1) = k by omega, show a + 1 + k - a = k + 1 by omega]
        simp
      · rw [if_neg hi, if_neg (by omega)]

/-- Bytes that a write does not touch read as before. -/
theorem Mem.get_write_outside (m : Mem) (a x : Nat) (bs : List Byte) (h : m.wf = true)
    (hx : x < a ∨ a + bs.length ≤ x) : (m.write a bs).get x = m.get x := by
  rw [Mem.get_write m a x bs h, if_neg (by omega)]

theorem Mem.read_eq (m : Mem) (a n : Nat) : m.read a n = (List.range n).map fun i => m.get (a + i) := by
  induction n generalizing a with
  | zero => rfl
  | succ n ih =>
    rw [Mem.read, ih, List.range_succ_eq_map]
    simp only [List.map_cons, List.map_map, Nat.add_zero, List.cons.injEq, true_and]
    refine List.map_congr_left fun i _ => ?_
    simp [Nat.add_assoc, Nat.add_comm 1 i]

/-- Reading back what was written. -/
theorem Mem.read_write (m : Mem) (a : Nat) (bs : List Byte) (h : m.wf = true) : (m.write a bs).read a bs.length = bs := by
  rw [Mem.read_eq]
  refine List.ext_getElem (by simp) fun i h1 h2 => ?_
  simp only [List.getElem_map, List.getElem_range]
  rw [Mem.get_write m a _ bs h, if_pos (by omega), show a + i - a = i by omega]
  simp [List.getD, h2]

/-- Canonical memories with equal bytes are equal. -/
theorem Mem.ext_get (m n : Mem) (hm : m.wf = true) (hn : n.wf = true) (h : ∀ x, m.get x = n.get x) : m = n := by
  induction m generalizing n with
  | nil =>
    cases n with
    | nil => rfl
    | cons c r =>
      obtain ⟨a, b⟩ := c
      have hc := (Mem.wf_cons a b r).1 hn
      have := h a
      simp [Mem.get] at this
      exact absurd this.symm hc.1
  | cons c r ih =>
    obtain ⟨a, b⟩ := c
    have hc := (Mem.wf_cons a b r).1 hm
    cases n with
    | nil =>
      have := h a
      simp [Mem.get] at this
      exact absurd this hc.1
    | cons d t =>
      obtain ⟨a', b'⟩ := d
      have hd := (Mem.wf_cons a' b' t).1 hn
      have haa : a = a' := by
        rcases Nat.lt_trichotomy a a' with hlt | heq | hgt
        · have := h a
          rw [Mem.get, if_pos rfl, Mem.get, if_neg (by omega), Mem.get_of_above t a' a hd.2.1 (by omega)] at this
          exact absurd this hc.1
        · exact heq
        · have := h a'
          rw [Mem.get, if_neg (by omega), Mem.get_of_above r a a' hc.2.1 (by omega), Mem.get, if_pos rfl] at this
          exact absurd this.symm hd.1
      subst haa
      have hb : b = b' := by
        have := h a
        simpa [Mem.get] using this
      subst hb
      refine congrArg _ (ih t hc.2.2 hd.2.2 fun x => ?_)
      have := h x
      rw [Mem.get, Mem.get] at this
      by_cases hx : a = x
      · subst hx
        rw [Mem.get_of_above r a a hc.2.1 (Nat.le_refl _), Mem.get_of_above t a a hd.2.1 (Nat.le_refl _)]
      · rwa [if_neg hx, if_neg hx] at this

end Sys2Proof.Machine
end

