-- ==== Sys2Proof/Laws/State.lean ====
section
/-!
SUPPORT. Every field of the state after every plain update of it: one equation each, so that no proof unfolds a record
update.
-/
namespace Sys2Proof.Machine

variable (s : State)

/-! ### State.updGroup -/

@[simp] theorem State.updGroup_power (cu part slot : Nat) (f : Group → Group) : (s.updGroup cu part slot f).power = s.power := rfl
@[simp] theorem State.updGroup_bar0 (cu part slot : Nat) (f : Group → Group) : (s.updGroup cu part slot f).bar0 = s.bar0 := rfl
@[simp] theorem State.updGroup_cuReady (cu part slot : Nat) (f : Group → Group) : (s.updGroup cu part slot f).cuReady = s.cuReady := rfl
@[simp] theorem State.updGroup_spares (cu part slot : Nat) (f : Group → Group) : (s.updGroup cu part slot f).spares = s.spares := rfl
@[simp] theorem State.updGroup_llcReady (cu part slot : Nat) (f : Group → Group) : (s.updGroup cu part slot f).llcReady = s.llcReady := rfl
@[simp] theorem State.updGroup_stackReady (cu part slot : Nat) (f : Group → Group) : (s.updGroup cu part slot f).stackReady = s.stackReady := rfl
@[simp] theorem State.updGroup_linkReady (cu part slot : Nat) (f : Group → Group) : (s.updGroup cu part slot f).linkReady = s.linkReady := rfl
@[simp] theorem State.updGroup_stage1Open (cu part slot : Nat) (f : Group → Group) : (s.updGroup cu part slot f).stage1Open = s.stage1Open := rfl
@[simp] theorem State.updGroup_stage2Open (cu part slot : Nat) (f : Group → Group) : (s.updGroup cu part slot f).stage2Open = s.stage2Open := rfl
@[simp] theorem State.updGroup_portsOpen (cu part slot : Nat) (f : Group → Group) : (s.updGroup cu part slot f).portsOpen = s.portsOpen := rfl
@[simp] theorem State.updGroup_dram (cu part slot : Nat) (f : Group → Group) : (s.updGroup cu part slot f).dram = s.dram := rfl
@[simp] theorem State.updGroup_dramBad (cu part slot : Nat) (f : Group → Group) : (s.updGroup cu part slot f).dramBad = s.dramBad := rfl
@[simp] theorem State.updGroup_zeroFlags (cu part slot : Nat) (f : Group → Group) : (s.updGroup cu part slot f).zeroFlags = s.zeroFlags := rfl
@[simp] theorem State.updGroup_hostMem (cu part slot : Nat) (f : Group → Group) : (s.updGroup cu part slot f).hostMem = s.hostMem := rfl
@[simp] theorem State.updGroup_hostBad (cu part slot : Nat) (f : Group → Group) : (s.updGroup cu part slot f).hostBad = s.hostBad := rfl
@[simp] theorem State.updGroup_peers (cu part slot : Nat) (f : Group → Group) : (s.updGroup cu part slot f).peers = s.peers := rfl
@[simp] theorem State.updGroup_retired (cu part slot : Nat) (f : Group → Group) : (s.updGroup cu part slot f).retired = s.retired := rfl
@[simp] theorem State.updGroup_repairs (cu part slot : Nat) (f : Group → Group) : (s.updGroup cu part slot f).repairs = s.repairs := rfl
@[simp] theorem State.updGroup_firmware (cu part slot : Nat) (f : Group → Group) : (s.updGroup cu part slot f).firmware = s.firmware := rfl
@[simp] theorem State.updGroup_powerLimited (cu part slot : Nat) (f : Group → Group) : (s.updGroup cu part slot f).powerLimited = s.powerLimited := rfl
@[simp] theorem State.updGroup_thermalLimited (cu part slot : Nat) (f : Group → Group) : (s.updGroup cu part slot f).thermalLimited = s.thermalLimited := rfl
@[simp] theorem State.updGroup_cus (cu part slot : Nat) (f : Group → Group) : (s.updGroup cu part slot f).cus = s.cus := rfl
@[simp] theorem State.updGroup_groups (cu part slot : Nat) (f : Group → Group) : (s.updGroup cu part slot f).groups = updFirst (·.at_ cu part slot) f s.groups := rfl
@[simp] theorem State.updGroup_teams (cu part slot : Nat) (f : Group → Group) : (s.updGroup cu part slot f).teams = s.teams := rfl
@[simp] theorem State.updGroup_launches (cu part slot : Nat) (f : Group → Group) : (s.updGroup cu part slot f).launches = s.launches := rfl
@[simp] theorem State.updGroup_ctxs (cu part slot : Nat) (f : Group → Group) : (s.updGroup cu part slot f).ctxs = s.ctxs := rfl
@[simp] theorem State.updGroup_saved (cu part slot : Nat) (f : Group → Group) : (s.updGroup cu part slot f).saved = s.saved := rfl
@[simp] theorem State.updGroup_flights (cu part slot : Nat) (f : Group → Group) : (s.updGroup cu part slot f).flights = s.flights := rfl
@[simp] theorem State.updGroup_early (cu part slot : Nat) (f : Group → Group) : (s.updGroup cu part slot f).early = s.early := rfl
@[simp] theorem State.updGroup_tlb (cu part slot : Nat) (f : Group → Group) : (s.updGroup cu part slot f).tlb = s.tlb := rfl
@[simp] theorem State.updGroup_viewCache (cu part slot : Nat) (f : Group → Group) : (s.updGroup cu part slot f).viewCache = s.viewCache := rfl
@[simp] theorem State.updGroup_reservation (cu part slot : Nat) (f : Group → Group) : (s.updGroup cu part slot f).reservation = s.reservation := rfl
@[simp] theorem State.updGroup_served (cu part slot : Nat) (f : Group → Group) : (s.updGroup cu part slot f).served = s.served := rfl
@[simp] theorem State.updGroup_devErrq (cu part slot : Nat) (f : Group → Group) : (s.updGroup cu part slot f).devErrq = s.devErrq := rfl
@[simp] theorem State.updGroup_devLost (cu part slot : Nat) (f : Group → Group) : (s.updGroup cu part slot f).devLost = s.devLost := rfl
@[simp] theorem State.updGroup_windows (cu part slot : Nat) (f : Group → Group) : (s.updGroup cu part slot f).windows = s.windows := rfl
@[simp] theorem State.updGroup_hmExpired (cu part slot : Nat) (f : Group → Group) : (s.updGroup cu part slot f).hmExpired = s.hmExpired := rfl
@[simp] theorem State.updGroup_msix (cu part slot : Nat) (f : Group → Group) : (s.updGroup cu part slot f).msix = s.msix := rfl
@[simp] theorem State.updGroup_clock (cu part slot : Nat) (f : Group → Group) : (s.updGroup cu part slot f).clock = s.clock := rfl
@[simp] theorem State.updGroup_cur (cu part slot : Nat) (f : Group → Group) : (s.updGroup cu part slot f).cur = s.cur := rfl
@[simp] theorem State.updGroup_port2 (cu part slot : Nat) (f : Group → Group) : (s.updGroup cu part slot f).port2 = s.port2 := rfl
@[simp] theorem State.updGroup_upset (cu part slot : Nat) (f : Group → Group) : (s.updGroup cu part slot f).upset = s.upset := rfl
@[simp] theorem State.updGroup_hdmbase (cu part slot : Nat) (f : Group → Group) : (s.updGroup cu part slot f).hdmbase = s.hdmbase := rfl
@[simp] theorem State.updGroup_reply (cu part slot : Nat) (f : Group → Group) : (s.updGroup cu part slot f).reply = s.reply := rfl
@[simp] theorem State.updGroup_replyBad (cu part slot : Nat) (f : Group → Group) : (s.updGroup cu part slot f).replyBad = s.replyBad := rfl
@[simp] theorem State.updGroup_sent (cu part slot : Nat) (f : Group → Group) : (s.updGroup cu part slot f).sent = s.sent := rfl
@[simp] theorem State.updGroup_agenda (cu part slot : Nat) (f : Group → Group) : (s.updGroup cu part slot f).agenda = s.agenda := rfl
@[simp] theorem State.updGroup_turn (cu part slot : Nat) (f : Group → Group) : (s.updGroup cu part slot f).turn = s.turn := rfl
@[simp] theorem State.updGroup_free (cu part slot : Nat) (f : Group → Group) : (s.updGroup cu part slot f).free = s.free := rfl
@[simp] theorem State.updGroup_nextLaunch (cu part slot : Nat) (f : Group → Group) : (s.updGroup cu part slot f).nextLaunch = s.nextLaunch := rfl
@[simp] theorem State.updGroup_nextTeamId (cu part slot : Nat) (f : Group → Group) : (s.updGroup cu part slot f).nextTeamId = s.nextTeamId := rfl
@[simp] theorem State.updGroup_nextFlight (cu part slot : Nat) (f : Group → Group) : (s.updGroup cu part slot f).nextFlight = s.nextFlight := rfl
@[simp] theorem State.updGroup_nextOrder (cu part slot : Nat) (f : Group → Group) : (s.updGroup cu part slot f).nextOrder = s.nextOrder := rfl

/-! ### State.updTeam -/

@[simp] theorem State.updTeam_power (id : Nat) (f : Team → Team) : (s.updTeam id f).power = s.power := rfl
@[simp] theorem State.updTeam_bar0 (id : Nat) (f : Team → Team) : (s.updTeam id f).bar0 = s.bar0 := rfl
@[simp] theorem State.updTeam_cuReady (id : Nat) (f : Team → Team) : (s.updTeam id f).cuReady = s.cuReady := rfl
@[simp] theorem State.updTeam_spares (id : Nat) (f : Team → Team) : (s.updTeam id f).spares = s.spares := rfl
@[simp] theorem State.updTeam_llcReady (id : Nat) (f : Team → Team) : (s.updTeam id f).llcReady = s.llcReady := rfl
@[simp] theorem State.updTeam_stackReady (id : Nat) (f : Team → Team) : (s.updTeam id f).stackReady = s.stackReady := rfl
@[simp] theorem State.updTeam_linkReady (id : Nat) (f : Team → Team) : (s.updTeam id f).linkReady = s.linkReady := rfl
@[simp] theorem State.updTeam_stage1Open (id : Nat) (f : Team → Team) : (s.updTeam id f).stage1Open = s.stage1Open := rfl
@[simp] theorem State.updTeam_stage2Open (id : Nat) (f : Team → Team) : (s.updTeam id f).stage2Open = s.stage2Open := rfl
@[simp] theorem State.updTeam_portsOpen (id : Nat) (f : Team → Team) : (s.updTeam id f).portsOpen = s.portsOpen := rfl
@[simp] theorem State.updTeam_dram (id : Nat) (f : Team → Team) : (s.updTeam id f).dram = s.dram := rfl
@[simp] theorem State.updTeam_dramBad (id : Nat) (f : Team → Team) : (s.updTeam id f).dramBad = s.dramBad := rfl
@[simp] theorem State.updTeam_zeroFlags (id : Nat) (f : Team → Team) : (s.updTeam id f).zeroFlags = s.zeroFlags := rfl
@[simp] theorem State.updTeam_hostMem (id : Nat) (f : Team → Team) : (s.updTeam id f).hostMem = s.hostMem := rfl
@[simp] theorem State.updTeam_hostBad (id : Nat) (f : Team → Team) : (s.updTeam id f).hostBad = s.hostBad := rfl
@[simp] theorem State.updTeam_peers (id : Nat) (f : Team → Team) : (s.updTeam id f).peers = s.peers := rfl
@[simp] theorem State.updTeam_retired (id : Nat) (f : Team → Team) : (s.updTeam id f).retired = s.retired := rfl
@[simp] theorem State.updTeam_repairs (id : Nat) (f : Team → Team) : (s.updTeam id f).repairs = s.repairs := rfl
@[simp] theorem State.updTeam_firmware (id : Nat) (f : Team → Team) : (s.updTeam id f).firmware = s.firmware := rfl
@[simp] theorem State.updTeam_powerLimited (id : Nat) (f : Team → Team) : (s.updTeam id f).powerLimited = s.powerLimited := rfl
@[simp] theorem State.updTeam_thermalLimited (id : Nat) (f : Team → Team) : (s.updTeam id f).thermalLimited = s.thermalLimited := rfl
@[simp] theorem State.updTeam_cus (id : Nat) (f : Team → Team) : (s.updTeam id f).cus = s.cus := rfl
@[simp] theorem State.updTeam_groups (id : Nat) (f : Team → Team) : (s.updTeam id f).groups = s.groups := rfl
@[simp] theorem State.updTeam_teams (id : Nat) (f : Team → Team) : (s.updTeam id f).teams = updFirst (·.id == id) f s.teams := rfl
@[simp] theorem State.updTeam_launches (id : Nat) (f : Team → Team) : (s.updTeam id f).launches = s.launches := rfl
@[simp] theorem State.updTeam_ctxs (id : Nat) (f : Team → Team) : (s.updTeam id f).ctxs = s.ctxs := rfl
@[simp] theorem State.updTeam_saved (id : Nat) (f : Team → Team) : (s.updTeam id f).saved = s.saved := rfl
@[simp] theorem State.updTeam_flights (id : Nat) (f : Team → Team) : (s.updTeam id f).flights = s.flights := rfl
@[simp] theorem State.updTeam_early (id : Nat) (f : Team → Team) : (s.updTeam id f).early = s.early := rfl
@[simp] theorem State.updTeam_tlb (id : Nat) (f : Team → Team) : (s.updTeam id f).tlb = s.tlb := rfl
@[simp] theorem State.updTeam_viewCache (id : Nat) (f : Team → Team) : (s.updTeam id f).viewCache = s.viewCache := rfl
@[simp] theorem State.updTeam_reservation (id : Nat) (f : Team → Team) : (s.updTeam id f).reservation = s.reservation := rfl
@[simp] theorem State.updTeam_served (id : Nat) (f : Team → Team) : (s.updTeam id f).served = s.served := rfl
@[simp] theorem State.updTeam_devErrq (id : Nat) (f : Team → Team) : (s.updTeam id f).devErrq = s.devErrq := rfl
@[simp] theorem State.updTeam_devLost (id : Nat) (f : Team → Team) : (s.updTeam id f).devLost = s.devLost := rfl
@[simp] theorem State.updTeam_windows (id : Nat) (f : Team → Team) : (s.updTeam id f).windows = s.windows := rfl
@[simp] theorem State.updTeam_hmExpired (id : Nat) (f : Team → Team) : (s.updTeam id f).hmExpired = s.hmExpired := rfl
@[simp] theorem State.updTeam_msix (id : Nat) (f : Team → Team) : (s.updTeam id f).msix = s.msix := rfl
@[simp] theorem State.updTeam_clock (id : Nat) (f : Team → Team) : (s.updTeam id f).clock = s.clock := rfl
@[simp] theorem State.updTeam_cur (id : Nat) (f : Team → Team) : (s.updTeam id f).cur = s.cur := rfl
@[simp] theorem State.updTeam_port2 (id : Nat) (f : Team → Team) : (s.updTeam id f).port2 = s.port2 := rfl
@[simp] theorem State.updTeam_upset (id : Nat) (f : Team → Team) : (s.updTeam id f).upset = s.upset := rfl
@[simp] theorem State.updTeam_hdmbase (id : Nat) (f : Team → Team) : (s.updTeam id f).hdmbase = s.hdmbase := rfl
@[simp] theorem State.updTeam_reply (id : Nat) (f : Team → Team) : (s.updTeam id f).reply = s.reply := rfl
@[simp] theorem State.updTeam_replyBad (id : Nat) (f : Team → Team) : (s.updTeam id f).replyBad = s.replyBad := rfl
@[simp] theorem State.updTeam_sent (id : Nat) (f : Team → Team) : (s.updTeam id f).sent = s.sent := rfl
@[simp] theorem State.updTeam_agenda (id : Nat) (f : Team → Team) : (s.updTeam id f).agenda = s.agenda := rfl
@[simp] theorem State.updTeam_turn (id : Nat) (f : Team → Team) : (s.updTeam id f).turn = s.turn := rfl
@[simp] theorem State.updTeam_free (id : Nat) (f : Team → Team) : (s.updTeam id f).free = s.free := rfl
@[simp] theorem State.updTeam_nextLaunch (id : Nat) (f : Team → Team) : (s.updTeam id f).nextLaunch = s.nextLaunch := rfl
@[simp] theorem State.updTeam_nextTeamId (id : Nat) (f : Team → Team) : (s.updTeam id f).nextTeamId = s.nextTeamId := rfl
@[simp] theorem State.updTeam_nextFlight (id : Nat) (f : Team → Team) : (s.updTeam id f).nextFlight = s.nextFlight := rfl
@[simp] theorem State.updTeam_nextOrder (id : Nat) (f : Team → Team) : (s.updTeam id f).nextOrder = s.nextOrder := rfl

/-! ### State.updLaunch -/

@[simp] theorem State.updLaunch_power (id : Nat) (f : Launch → Launch) : (s.updLaunch id f).power = s.power := rfl
@[simp] theorem State.updLaunch_bar0 (id : Nat) (f : Launch → Launch) : (s.updLaunch id f).bar0 = s.bar0 := rfl
@[simp] theorem State.updLaunch_cuReady (id : Nat) (f : Launch → Launch) : (s.updLaunch id f).cuReady = s.cuReady := rfl
@[simp] theorem State.updLaunch_spares (id : Nat) (f : Launch → Launch) : (s.updLaunch id f).spares = s.spares := rfl
@[simp] theorem State.updLaunch_llcReady (id : Nat) (f : Launch → Launch) : (s.updLaunch id f).llcReady = s.llcReady := rfl
@[simp] theorem State.updLaunch_stackReady (id : Nat) (f : Launch → Launch) : (s.updLaunch id f).stackReady = s.stackReady := rfl
@[simp] theorem State.updLaunch_linkReady (id : Nat) (f : Launch → Launch) : (s.updLaunch id f).linkReady = s.linkReady := rfl
@[simp] theorem State.updLaunch_stage1Open (id : Nat) (f : Launch → Launch) : (s.updLaunch id f).stage1Open = s.stage1Open := rfl
@[simp] theorem State.updLaunch_stage2Open (id : Nat) (f : Launch → Launch) : (s.updLaunch id f).stage2Open = s.stage2Open := rfl
@[simp] theorem State.updLaunch_portsOpen (id : Nat) (f : Launch → Launch) : (s.updLaunch id f).portsOpen = s.portsOpen := rfl
@[simp] theorem State.updLaunch_dram (id : Nat) (f : Launch → Launch) : (s.updLaunch id f).dram = s.dram := rfl
@[simp] theorem State.updLaunch_dramBad (id : Nat) (f : Launch → Launch) : (s.updLaunch id f).dramBad = s.dramBad := rfl
@[simp] theorem State.updLaunch_zeroFlags (id : Nat) (f : Launch → Launch) : (s.updLaunch id f).zeroFlags = s.zeroFlags := rfl
@[simp] theorem State.updLaunch_hostMem (id : Nat) (f : Launch → Launch) : (s.updLaunch id f).hostMem = s.hostMem := rfl
@[simp] theorem State.updLaunch_hostBad (id : Nat) (f : Launch → Launch) : (s.updLaunch id f).hostBad = s.hostBad := rfl
@[simp] theorem State.updLaunch_peers (id : Nat) (f : Launch → Launch) : (s.updLaunch id f).peers = s.peers := rfl
@[simp] theorem State.updLaunch_retired (id : Nat) (f : Launch → Launch) : (s.updLaunch id f).retired = s.retired := rfl
@[simp] theorem State.updLaunch_repairs (id : Nat) (f : Launch → Launch) : (s.updLaunch id f).repairs = s.repairs := rfl
@[simp] theorem State.updLaunch_firmware (id : Nat) (f : Launch → Launch) : (s.updLaunch id f).firmware = s.firmware := rfl
@[simp] theorem State.updLaunch_powerLimited (id : Nat) (f : Launch → Launch) : (s.updLaunch id f).powerLimited = s.powerLimited := rfl
@[simp] theorem State.updLaunch_thermalLimited (id : Nat) (f : Launch → Launch) : (s.updLaunch id f).thermalLimited = s.thermalLimited := rfl
@[simp] theorem State.updLaunch_cus (id : Nat) (f : Launch → Launch) : (s.updLaunch id f).cus = s.cus := rfl
@[simp] theorem State.updLaunch_groups (id : Nat) (f : Launch → Launch) : (s.updLaunch id f).groups = s.groups := rfl
@[simp] theorem State.updLaunch_teams (id : Nat) (f : Launch → Launch) : (s.updLaunch id f).teams = s.teams := rfl
@[simp] theorem State.updLaunch_launches (id : Nat) (f : Launch → Launch) : (s.updLaunch id f).launches = updFirst (·.id == id) f s.launches := rfl
@[simp] theorem State.updLaunch_ctxs (id : Nat) (f : Launch → Launch) : (s.updLaunch id f).ctxs = s.ctxs := rfl
@[simp] theorem State.updLaunch_saved (id : Nat) (f : Launch → Launch) : (s.updLaunch id f).saved = s.saved := rfl
@[simp] theorem State.updLaunch_flights (id : Nat) (f : Launch → Launch) : (s.updLaunch id f).flights = s.flights := rfl
@[simp] theorem State.updLaunch_early (id : Nat) (f : Launch → Launch) : (s.updLaunch id f).early = s.early := rfl
@[simp] theorem State.updLaunch_tlb (id : Nat) (f : Launch → Launch) : (s.updLaunch id f).tlb = s.tlb := rfl
@[simp] theorem State.updLaunch_viewCache (id : Nat) (f : Launch → Launch) : (s.updLaunch id f).viewCache = s.viewCache := rfl
@[simp] theorem State.updLaunch_reservation (id : Nat) (f : Launch → Launch) : (s.updLaunch id f).reservation = s.reservation := rfl
@[simp] theorem State.updLaunch_served (id : Nat) (f : Launch → Launch) : (s.updLaunch id f).served = s.served := rfl
@[simp] theorem State.updLaunch_devErrq (id : Nat) (f : Launch → Launch) : (s.updLaunch id f).devErrq = s.devErrq := rfl
@[simp] theorem State.updLaunch_devLost (id : Nat) (f : Launch → Launch) : (s.updLaunch id f).devLost = s.devLost := rfl
@[simp] theorem State.updLaunch_windows (id : Nat) (f : Launch → Launch) : (s.updLaunch id f).windows = s.windows := rfl
@[simp] theorem State.updLaunch_hmExpired (id : Nat) (f : Launch → Launch) : (s.updLaunch id f).hmExpired = s.hmExpired := rfl
@[simp] theorem State.updLaunch_msix (id : Nat) (f : Launch → Launch) : (s.updLaunch id f).msix = s.msix := rfl
@[simp] theorem State.updLaunch_clock (id : Nat) (f : Launch → Launch) : (s.updLaunch id f).clock = s.clock := rfl
@[simp] theorem State.updLaunch_cur (id : Nat) (f : Launch → Launch) : (s.updLaunch id f).cur = s.cur := rfl
@[simp] theorem State.updLaunch_port2 (id : Nat) (f : Launch → Launch) : (s.updLaunch id f).port2 = s.port2 := rfl
@[simp] theorem State.updLaunch_upset (id : Nat) (f : Launch → Launch) : (s.updLaunch id f).upset = s.upset := rfl
@[simp] theorem State.updLaunch_hdmbase (id : Nat) (f : Launch → Launch) : (s.updLaunch id f).hdmbase = s.hdmbase := rfl
@[simp] theorem State.updLaunch_reply (id : Nat) (f : Launch → Launch) : (s.updLaunch id f).reply = s.reply := rfl
@[simp] theorem State.updLaunch_replyBad (id : Nat) (f : Launch → Launch) : (s.updLaunch id f).replyBad = s.replyBad := rfl
@[simp] theorem State.updLaunch_sent (id : Nat) (f : Launch → Launch) : (s.updLaunch id f).sent = s.sent := rfl
@[simp] theorem State.updLaunch_agenda (id : Nat) (f : Launch → Launch) : (s.updLaunch id f).agenda = s.agenda := rfl
@[simp] theorem State.updLaunch_turn (id : Nat) (f : Launch → Launch) : (s.updLaunch id f).turn = s.turn := rfl
@[simp] theorem State.updLaunch_free (id : Nat) (f : Launch → Launch) : (s.updLaunch id f).free = s.free := rfl
@[simp] theorem State.updLaunch_nextLaunch (id : Nat) (f : Launch → Launch) : (s.updLaunch id f).nextLaunch = s.nextLaunch := rfl
@[simp] theorem State.updLaunch_nextTeamId (id : Nat) (f : Launch → Launch) : (s.updLaunch id f).nextTeamId = s.nextTeamId := rfl
@[simp] theorem State.updLaunch_nextFlight (id : Nat) (f : Launch → Launch) : (s.updLaunch id f).nextFlight = s.nextFlight := rfl
@[simp] theorem State.updLaunch_nextOrder (id : Nat) (f : Launch → Launch) : (s.updLaunch id f).nextOrder = s.nextOrder := rfl

/-! ### State.updCtx -/

@[simp] theorem State.updCtx_power (id : Nat) (f : Ctx → Ctx) : (s.updCtx id f).power = s.power := rfl
@[simp] theorem State.updCtx_bar0 (id : Nat) (f : Ctx → Ctx) : (s.updCtx id f).bar0 = s.bar0 := rfl
@[simp] theorem State.updCtx_cuReady (id : Nat) (f : Ctx → Ctx) : (s.updCtx id f).cuReady = s.cuReady := rfl
@[simp] theorem State.updCtx_spares (id : Nat) (f : Ctx → Ctx) : (s.updCtx id f).spares = s.spares := rfl
@[simp] theorem State.updCtx_llcReady (id : Nat) (f : Ctx → Ctx) : (s.updCtx id f).llcReady = s.llcReady := rfl
@[simp] theorem State.updCtx_stackReady (id : Nat) (f : Ctx → Ctx) : (s.updCtx id f).stackReady = s.stackReady := rfl
@[simp] theorem State.updCtx_linkReady (id : Nat) (f : Ctx → Ctx) : (s.updCtx id f).linkReady = s.linkReady := rfl
@[simp] theorem State.updCtx_stage1Open (id : Nat) (f : Ctx → Ctx) : (s.updCtx id f).stage1Open = s.stage1Open := rfl
@[simp] theorem State.updCtx_stage2Open (id : Nat) (f : Ctx → Ctx) : (s.updCtx id f).stage2Open = s.stage2Open := rfl
@[simp] theorem State.updCtx_portsOpen (id : Nat) (f : Ctx → Ctx) : (s.updCtx id f).portsOpen = s.portsOpen := rfl
@[simp] theorem State.updCtx_dram (id : Nat) (f : Ctx → Ctx) : (s.updCtx id f).dram = s.dram := rfl
@[simp] theorem State.updCtx_dramBad (id : Nat) (f : Ctx → Ctx) : (s.updCtx id f).dramBad = s.dramBad := rfl
@[simp] theorem State.updCtx_zeroFlags (id : Nat) (f : Ctx → Ctx) : (s.updCtx id f).zeroFlags = s.zeroFlags := rfl
@[simp] theorem State.updCtx_hostMem (id : Nat) (f : Ctx → Ctx) : (s.updCtx id f).hostMem = s.hostMem := rfl
@[simp] theorem State.updCtx_hostBad (id : Nat) (f : Ctx → Ctx) : (s.updCtx id f).hostBad = s.hostBad := rfl
@[simp] theorem State.updCtx_peers (id : Nat) (f : Ctx → Ctx) : (s.updCtx id f).peers = s.peers := rfl
@[simp] theorem State.updCtx_retired (id : Nat) (f : Ctx → Ctx) : (s.updCtx id f).retired = s.retired := rfl
@[simp] theorem State.updCtx_repairs (id : Nat) (f : Ctx → Ctx) : (s.updCtx id f).repairs = s.repairs := rfl
@[simp] theorem State.updCtx_firmware (id : Nat) (f : Ctx → Ctx) : (s.updCtx id f).firmware = s.firmware := rfl
@[simp] theorem State.updCtx_powerLimited (id : Nat) (f : Ctx → Ctx) : (s.updCtx id f).powerLimited = s.powerLimited := rfl
@[simp] theorem State.updCtx_thermalLimited (id : Nat) (f : Ctx → Ctx) : (s.updCtx id f).thermalLimited = s.thermalLimited := rfl
@[simp] theorem State.updCtx_cus (id : Nat) (f : Ctx → Ctx) : (s.updCtx id f).cus = s.cus := rfl
@[simp] theorem State.updCtx_groups (id : Nat) (f : Ctx → Ctx) : (s.updCtx id f).groups = s.groups := rfl
@[simp] theorem State.updCtx_teams (id : Nat) (f : Ctx → Ctx) : (s.updCtx id f).teams = s.teams := rfl
@[simp] theorem State.updCtx_launches (id : Nat) (f : Ctx → Ctx) : (s.updCtx id f).launches = s.launches := rfl
@[simp] theorem State.updCtx_ctxs (id : Nat) (f : Ctx → Ctx) : (s.updCtx id f).ctxs = updFirst (·.id == id) f s.ctxs := rfl
@[simp] theorem State.updCtx_saved (id : Nat) (f : Ctx → Ctx) : (s.updCtx id f).saved = s.saved := rfl
@[simp] theorem State.updCtx_flights (id : Nat) (f : Ctx → Ctx) : (s.updCtx id f).flights = s.flights := rfl
@[simp] theorem State.updCtx_early (id : Nat) (f : Ctx → Ctx) : (s.updCtx id f).early = s.early := rfl
@[simp] theorem State.updCtx_tlb (id : Nat) (f : Ctx → Ctx) : (s.updCtx id f).tlb = s.tlb := rfl
@[simp] theorem State.updCtx_viewCache (id : Nat) (f : Ctx → Ctx) : (s.updCtx id f).viewCache = s.viewCache := rfl
@[simp] theorem State.updCtx_reservation (id : Nat) (f : Ctx → Ctx) : (s.updCtx id f).reservation = s.reservation := rfl
@[simp] theorem State.updCtx_served (id : Nat) (f : Ctx → Ctx) : (s.updCtx id f).served = s.served := rfl
@[simp] theorem State.updCtx_devErrq (id : Nat) (f : Ctx → Ctx) : (s.updCtx id f).devErrq = s.devErrq := rfl
@[simp] theorem State.updCtx_devLost (id : Nat) (f : Ctx → Ctx) : (s.updCtx id f).devLost = s.devLost := rfl
@[simp] theorem State.updCtx_windows (id : Nat) (f : Ctx → Ctx) : (s.updCtx id f).windows = s.windows := rfl
@[simp] theorem State.updCtx_hmExpired (id : Nat) (f : Ctx → Ctx) : (s.updCtx id f).hmExpired = s.hmExpired := rfl
@[simp] theorem State.updCtx_msix (id : Nat) (f : Ctx → Ctx) : (s.updCtx id f).msix = s.msix := rfl
@[simp] theorem State.updCtx_clock (id : Nat) (f : Ctx → Ctx) : (s.updCtx id f).clock = s.clock := rfl
@[simp] theorem State.updCtx_cur (id : Nat) (f : Ctx → Ctx) : (s.updCtx id f).cur = s.cur := rfl
@[simp] theorem State.updCtx_port2 (id : Nat) (f : Ctx → Ctx) : (s.updCtx id f).port2 = s.port2 := rfl
@[simp] theorem State.updCtx_upset (id : Nat) (f : Ctx → Ctx) : (s.updCtx id f).upset = s.upset := rfl
@[simp] theorem State.updCtx_hdmbase (id : Nat) (f : Ctx → Ctx) : (s.updCtx id f).hdmbase = s.hdmbase := rfl
@[simp] theorem State.updCtx_reply (id : Nat) (f : Ctx → Ctx) : (s.updCtx id f).reply = s.reply := rfl
@[simp] theorem State.updCtx_replyBad (id : Nat) (f : Ctx → Ctx) : (s.updCtx id f).replyBad = s.replyBad := rfl
@[simp] theorem State.updCtx_sent (id : Nat) (f : Ctx → Ctx) : (s.updCtx id f).sent = s.sent := rfl
@[simp] theorem State.updCtx_agenda (id : Nat) (f : Ctx → Ctx) : (s.updCtx id f).agenda = s.agenda := rfl
@[simp] theorem State.updCtx_turn (id : Nat) (f : Ctx → Ctx) : (s.updCtx id f).turn = s.turn := rfl
@[simp] theorem State.updCtx_free (id : Nat) (f : Ctx → Ctx) : (s.updCtx id f).free = s.free := rfl
@[simp] theorem State.updCtx_nextLaunch (id : Nat) (f : Ctx → Ctx) : (s.updCtx id f).nextLaunch = s.nextLaunch := rfl
@[simp] theorem State.updCtx_nextTeamId (id : Nat) (f : Ctx → Ctx) : (s.updCtx id f).nextTeamId = s.nextTeamId := rfl
@[simp] theorem State.updCtx_nextFlight (id : Nat) (f : Ctx → Ctx) : (s.updCtx id f).nextFlight = s.nextFlight := rfl
@[simp] theorem State.updCtx_nextOrder (id : Nat) (f : Ctx → Ctx) : (s.updCtx id f).nextOrder = s.nextOrder := rfl

/-! ### State.updFlight -/

@[simp] theorem State.updFlight_power (id : Nat) (f : Flight → Flight) : (s.updFlight id f).power = s.power := rfl
@[simp] theorem State.updFlight_bar0 (id : Nat) (f : Flight → Flight) : (s.updFlight id f).bar0 = s.bar0 := rfl
@[simp] theorem State.updFlight_cuReady (id : Nat) (f : Flight → Flight) : (s.updFlight id f).cuReady = s.cuReady := rfl
@[simp] theorem State.updFlight_spares (id : Nat) (f : Flight → Flight) : (s.updFlight id f).spares = s.spares := rfl
@[simp] theorem State.updFlight_llcReady (id : Nat) (f : Flight → Flight) : (s.updFlight id f).llcReady = s.llcReady := rfl
@[simp] theorem State.updFlight_stackReady (id : Nat) (f : Flight → Flight) : (s.updFlight id f).stackReady = s.stackReady := rfl
@[simp] theorem State.updFlight_linkReady (id : Nat) (f : Flight → Flight) : (s.updFlight id f).linkReady = s.linkReady := rfl
@[simp] theorem State.updFlight_stage1Open (id : Nat) (f : Flight → Flight) : (s.updFlight id f).stage1Open = s.stage1Open := rfl
@[simp] theorem State.updFlight_stage2Open (id : Nat) (f : Flight → Flight) : (s.updFlight id f).stage2Open = s.stage2Open := rfl
@[simp] theorem State.updFlight_portsOpen (id : Nat) (f : Flight → Flight) : (s.updFlight id f).portsOpen = s.portsOpen := rfl
@[simp] theorem State.updFlight_dram (id : Nat) (f : Flight → Flight) : (s.updFlight id f).dram = s.dram := rfl
@[simp] theorem State.updFlight_dramBad (id : Nat) (f : Flight → Flight) : (s.updFlight id f).dramBad = s.dramBad := rfl
@[simp] theorem State.updFlight_zeroFlags (id : Nat) (f : Flight → Flight) : (s.updFlight id f).zeroFlags = s.zeroFlags := rfl
@[simp] theorem State.updFlight_hostMem (id : Nat) (f : Flight → Flight) : (s.updFlight id f).hostMem = s.hostMem := rfl
@[simp] theorem State.updFlight_hostBad (id : Nat) (f : Flight → Flight) : (s.updFlight id f).hostBad = s.hostBad := rfl
@[simp] theorem State.updFlight_peers (id : Nat) (f : Flight → Flight) : (s.updFlight id f).peers = s.peers := rfl
@[simp] theorem State.updFlight_retired (id : Nat) (f : Flight → Flight) : (s.updFlight id f).retired = s.retired := rfl
@[simp] theorem State.updFlight_repairs (id : Nat) (f : Flight → Flight) : (s.updFlight id f).repairs = s.repairs := rfl
@[simp] theorem State.updFlight_firmware (id : Nat) (f : Flight → Flight) : (s.updFlight id f).firmware = s.firmware := rfl
@[simp] theorem State.updFlight_powerLimited (id : Nat) (f : Flight → Flight) : (s.updFlight id f).powerLimited = s.powerLimited := rfl
@[simp] theorem State.updFlight_thermalLimited (id : Nat) (f : Flight → Flight) : (s.updFlight id f).thermalLimited = s.thermalLimited := rfl
@[simp] theorem State.updFlight_cus (id : Nat) (f : Flight → Flight) : (s.updFlight id f).cus = s.cus := rfl
@[simp] theorem State.updFlight_groups (id : Nat) (f : Flight → Flight) : (s.updFlight id f).groups = s.groups := rfl
@[simp] theorem State.updFlight_teams (id : Nat) (f : Flight → Flight) : (s.updFlight id f).teams = s.teams := rfl
@[simp] theorem State.updFlight_launches (id : Nat) (f : Flight → Flight) : (s.updFlight id f).launches = s.launches := rfl
@[simp] theorem State.updFlight_ctxs (id : Nat) (f : Flight → Flight) : (s.updFlight id f).ctxs = s.ctxs := rfl
@[simp] theorem State.updFlight_saved (id : Nat) (f : Flight → Flight) : (s.updFlight id f).saved = s.saved := rfl
@[simp] theorem State.updFlight_flights (id : Nat) (f : Flight → Flight) : (s.updFlight id f).flights = updFirst (·.id == id) f s.flights := rfl
@[simp] theorem State.updFlight_early (id : Nat) (f : Flight → Flight) : (s.updFlight id f).early = s.early := rfl
@[simp] theorem State.updFlight_tlb (id : Nat) (f : Flight → Flight) : (s.updFlight id f).tlb = s.tlb := rfl
@[simp] theorem State.updFlight_viewCache (id : Nat) (f : Flight → Flight) : (s.updFlight id f).viewCache = s.viewCache := rfl
@[simp] theorem State.updFlight_reservation (id : Nat) (f : Flight → Flight) : (s.updFlight id f).reservation = s.reservation := rfl
@[simp] theorem State.updFlight_served (id : Nat) (f : Flight → Flight) : (s.updFlight id f).served = s.served := rfl
@[simp] theorem State.updFlight_devErrq (id : Nat) (f : Flight → Flight) : (s.updFlight id f).devErrq = s.devErrq := rfl
@[simp] theorem State.updFlight_devLost (id : Nat) (f : Flight → Flight) : (s.updFlight id f).devLost = s.devLost := rfl
@[simp] theorem State.updFlight_windows (id : Nat) (f : Flight → Flight) : (s.updFlight id f).windows = s.windows := rfl
@[simp] theorem State.updFlight_hmExpired (id : Nat) (f : Flight → Flight) : (s.updFlight id f).hmExpired = s.hmExpired := rfl
@[simp] theorem State.updFlight_msix (id : Nat) (f : Flight → Flight) : (s.updFlight id f).msix = s.msix := rfl
@[simp] theorem State.updFlight_clock (id : Nat) (f : Flight → Flight) : (s.updFlight id f).clock = s.clock := rfl
@[simp] theorem State.updFlight_cur (id : Nat) (f : Flight → Flight) : (s.updFlight id f).cur = s.cur := rfl
@[simp] theorem State.updFlight_port2 (id : Nat) (f : Flight → Flight) : (s.updFlight id f).port2 = s.port2 := rfl
@[simp] theorem State.updFlight_upset (id : Nat) (f : Flight → Flight) : (s.updFlight id f).upset = s.upset := rfl
@[simp] theorem State.updFlight_hdmbase (id : Nat) (f : Flight → Flight) : (s.updFlight id f).hdmbase = s.hdmbase := rfl
@[simp] theorem State.updFlight_reply (id : Nat) (f : Flight → Flight) : (s.updFlight id f).reply = s.reply := rfl
@[simp] theorem State.updFlight_replyBad (id : Nat) (f : Flight → Flight) : (s.updFlight id f).replyBad = s.replyBad := rfl
@[simp] theorem State.updFlight_sent (id : Nat) (f : Flight → Flight) : (s.updFlight id f).sent = s.sent := rfl
@[simp] theorem State.updFlight_agenda (id : Nat) (f : Flight → Flight) : (s.updFlight id f).agenda = s.agenda := rfl
@[simp] theorem State.updFlight_turn (id : Nat) (f : Flight → Flight) : (s.updFlight id f).turn = s.turn := rfl
@[simp] theorem State.updFlight_free (id : Nat) (f : Flight → Flight) : (s.updFlight id f).free = s.free := rfl
@[simp] theorem State.updFlight_nextLaunch (id : Nat) (f : Flight → Flight) : (s.updFlight id f).nextLaunch = s.nextLaunch := rfl
@[simp] theorem State.updFlight_nextTeamId (id : Nat) (f : Flight → Flight) : (s.updFlight id f).nextTeamId = s.nextTeamId := rfl
@[simp] theorem State.updFlight_nextFlight (id : Nat) (f : Flight → Flight) : (s.updFlight id f).nextFlight = s.nextFlight := rfl
@[simp] theorem State.updFlight_nextOrder (id : Nat) (f : Flight → Flight) : (s.updFlight id f).nextOrder = s.nextOrder := rfl

/-! ### State.updCu -/

@[simp] theorem State.updCu_power (n : Nat) (f : Cu → Cu) : (s.updCu n f).power = s.power := rfl
@[simp] theorem State.updCu_bar0 (n : Nat) (f : Cu → Cu) : (s.updCu n f).bar0 = s.bar0 := rfl
@[simp] theorem State.updCu_cuReady (n : Nat) (f : Cu → Cu) : (s.updCu n f).cuReady = s.cuReady := rfl
@[simp] theorem State.updCu_spares (n : Nat) (f : Cu → Cu) : (s.updCu n f).spares = s.spares := rfl
@[simp] theorem State.updCu_llcReady (n : Nat) (f : Cu → Cu) : (s.updCu n f).llcReady = s.llcReady := rfl
@[simp] theorem State.updCu_stackReady (n : Nat) (f : Cu → Cu) : (s.updCu n f).stackReady = s.stackReady := rfl
@[simp] theorem State.updCu_linkReady (n : Nat) (f : Cu → Cu) : (s.updCu n f).linkReady = s.linkReady := rfl
@[simp] theorem State.updCu_stage1Open (n : Nat) (f : Cu → Cu) : (s.updCu n f).stage1Open = s.stage1Open := rfl
@[simp] theorem State.updCu_stage2Open (n : Nat) (f : Cu → Cu) : (s.updCu n f).stage2Open = s.stage2Open := rfl
@[simp] theorem State.updCu_portsOpen (n : Nat) (f : Cu → Cu) : (s.updCu n f).portsOpen = s.portsOpen := rfl
@[simp] theorem State.updCu_dram (n : Nat) (f : Cu → Cu) : (s.updCu n f).dram = s.dram := rfl
@[simp] theorem State.updCu_dramBad (n : Nat) (f : Cu → Cu) : (s.updCu n f).dramBad = s.dramBad := rfl
@[simp] theorem State.updCu_zeroFlags (n : Nat) (f : Cu → Cu) : (s.updCu n f).zeroFlags = s.zeroFlags := rfl
@[simp] theorem State.updCu_hostMem (n : Nat) (f : Cu → Cu) : (s.updCu n f).hostMem = s.hostMem := rfl
@[simp] theorem State.updCu_hostBad (n : Nat) (f : Cu → Cu) : (s.updCu n f).hostBad = s.hostBad := rfl
@[simp] theorem State.updCu_peers (n : Nat) (f : Cu → Cu) : (s.updCu n f).peers = s.peers := rfl
@[simp] theorem State.updCu_retired (n : Nat) (f : Cu → Cu) : (s.updCu n f).retired = s.retired := rfl
@[simp] theorem State.updCu_repairs (n : Nat) (f : Cu → Cu) : (s.updCu n f).repairs = s.repairs := rfl
@[simp] theorem State.updCu_firmware (n : Nat) (f : Cu → Cu) : (s.updCu n f).firmware = s.firmware := rfl
@[simp] theorem State.updCu_powerLimited (n : Nat) (f : Cu → Cu) : (s.updCu n f).powerLimited = s.powerLimited := rfl
@[simp] theorem State.updCu_thermalLimited (n : Nat) (f : Cu → Cu) : (s.updCu n f).thermalLimited = s.thermalLimited := rfl
@[simp] theorem State.updCu_cus (n : Nat) (f : Cu → Cu) : (s.updCu n f).cus = updFirst (·.num == n) f s.cus := rfl
@[simp] theorem State.updCu_groups (n : Nat) (f : Cu → Cu) : (s.updCu n f).groups = s.groups := rfl
@[simp] theorem State.updCu_teams (n : Nat) (f : Cu → Cu) : (s.updCu n f).teams = s.teams := rfl
@[simp] theorem State.updCu_launches (n : Nat) (f : Cu → Cu) : (s.updCu n f).launches = s.launches := rfl
@[simp] theorem State.updCu_ctxs (n : Nat) (f : Cu → Cu) : (s.updCu n f).ctxs = s.ctxs := rfl
@[simp] theorem State.updCu_saved (n : Nat) (f : Cu → Cu) : (s.updCu n f).saved = s.saved := rfl
@[simp] theorem State.updCu_flights (n : Nat) (f : Cu → Cu) : (s.updCu n f).flights = s.flights := rfl
@[simp] theorem State.updCu_early (n : Nat) (f : Cu → Cu) : (s.updCu n f).early = s.early := rfl
@[simp] theorem State.updCu_tlb (n : Nat) (f : Cu → Cu) : (s.updCu n f).tlb = s.tlb := rfl
@[simp] theorem State.updCu_viewCache (n : Nat) (f : Cu → Cu) : (s.updCu n f).viewCache = s.viewCache := rfl
@[simp] theorem State.updCu_reservation (n : Nat) (f : Cu → Cu) : (s.updCu n f).reservation = s.reservation := rfl
@[simp] theorem State.updCu_served (n : Nat) (f : Cu → Cu) : (s.updCu n f).served = s.served := rfl
@[simp] theorem State.updCu_devErrq (n : Nat) (f : Cu → Cu) : (s.updCu n f).devErrq = s.devErrq := rfl
@[simp] theorem State.updCu_devLost (n : Nat) (f : Cu → Cu) : (s.updCu n f).devLost = s.devLost := rfl
@[simp] theorem State.updCu_windows (n : Nat) (f : Cu → Cu) : (s.updCu n f).windows = s.windows := rfl
@[simp] theorem State.updCu_hmExpired (n : Nat) (f : Cu → Cu) : (s.updCu n f).hmExpired = s.hmExpired := rfl
@[simp] theorem State.updCu_msix (n : Nat) (f : Cu → Cu) : (s.updCu n f).msix = s.msix := rfl
@[simp] theorem State.updCu_clock (n : Nat) (f : Cu → Cu) : (s.updCu n f).clock = s.clock := rfl
@[simp] theorem State.updCu_cur (n : Nat) (f : Cu → Cu) : (s.updCu n f).cur = s.cur := rfl
@[simp] theorem State.updCu_port2 (n : Nat) (f : Cu → Cu) : (s.updCu n f).port2 = s.port2 := rfl
@[simp] theorem State.updCu_upset (n : Nat) (f : Cu → Cu) : (s.updCu n f).upset = s.upset := rfl
@[simp] theorem State.updCu_hdmbase (n : Nat) (f : Cu → Cu) : (s.updCu n f).hdmbase = s.hdmbase := rfl
@[simp] theorem State.updCu_reply (n : Nat) (f : Cu → Cu) : (s.updCu n f).reply = s.reply := rfl
@[simp] theorem State.updCu_replyBad (n : Nat) (f : Cu → Cu) : (s.updCu n f).replyBad = s.replyBad := rfl
@[simp] theorem State.updCu_sent (n : Nat) (f : Cu → Cu) : (s.updCu n f).sent = s.sent := rfl
@[simp] theorem State.updCu_agenda (n : Nat) (f : Cu → Cu) : (s.updCu n f).agenda = s.agenda := rfl
@[simp] theorem State.updCu_turn (n : Nat) (f : Cu → Cu) : (s.updCu n f).turn = s.turn := rfl
@[simp] theorem State.updCu_free (n : Nat) (f : Cu → Cu) : (s.updCu n f).free = s.free := rfl
@[simp] theorem State.updCu_nextLaunch (n : Nat) (f : Cu → Cu) : (s.updCu n f).nextLaunch = s.nextLaunch := rfl
@[simp] theorem State.updCu_nextTeamId (n : Nat) (f : Cu → Cu) : (s.updCu n f).nextTeamId = s.nextTeamId := rfl
@[simp] theorem State.updCu_nextFlight (n : Nat) (f : Cu → Cu) : (s.updCu n f).nextFlight = s.nextFlight := rfl
@[simp] theorem State.updCu_nextOrder (n : Nat) (f : Cu → Cu) : (s.updCu n f).nextOrder = s.nextOrder := rfl

/-! ### State.dropFlight -/

@[simp] theorem State.dropFlight_power (id : Nat) : (s.dropFlight id).power = s.power := rfl
@[simp] theorem State.dropFlight_bar0 (id : Nat) : (s.dropFlight id).bar0 = s.bar0 := rfl
@[simp] theorem State.dropFlight_cuReady (id : Nat) : (s.dropFlight id).cuReady = s.cuReady := rfl
@[simp] theorem State.dropFlight_spares (id : Nat) : (s.dropFlight id).spares = s.spares := rfl
@[simp] theorem State.dropFlight_llcReady (id : Nat) : (s.dropFlight id).llcReady = s.llcReady := rfl
@[simp] theorem State.dropFlight_stackReady (id : Nat) : (s.dropFlight id).stackReady = s.stackReady := rfl
@[simp] theorem State.dropFlight_linkReady (id : Nat) : (s.dropFlight id).linkReady = s.linkReady := rfl
@[simp] theorem State.dropFlight_stage1Open (id : Nat) : (s.dropFlight id).stage1Open = s.stage1Open := rfl
@[simp] theorem State.dropFlight_stage2Open (id : Nat) : (s.dropFlight id).stage2Open = s.stage2Open := rfl
@[simp] theorem State.dropFlight_portsOpen (id : Nat) : (s.dropFlight id).portsOpen = s.portsOpen := rfl
@[simp] theorem State.dropFlight_dram (id : Nat) : (s.dropFlight id).dram = s.dram := rfl
@[simp] theorem State.dropFlight_dramBad (id : Nat) : (s.dropFlight id).dramBad = s.dramBad := rfl
@[simp] theorem State.dropFlight_zeroFlags (id : Nat) : (s.dropFlight id).zeroFlags = s.zeroFlags := rfl
@[simp] theorem State.dropFlight_hostMem (id : Nat) : (s.dropFlight id).hostMem = s.hostMem := rfl
@[simp] theorem State.dropFlight_hostBad (id : Nat) : (s.dropFlight id).hostBad = s.hostBad := rfl
@[simp] theorem State.dropFlight_peers (id : Nat) : (s.dropFlight id).peers = s.peers := rfl
@[simp] theorem State.dropFlight_retired (id : Nat) : (s.dropFlight id).retired = s.retired := rfl
@[simp] theorem State.dropFlight_repairs (id : Nat) : (s.dropFlight id).repairs = s.repairs := rfl
@[simp] theorem State.dropFlight_firmware (id : Nat) : (s.dropFlight id).firmware = s.firmware := rfl
@[simp] theorem State.dropFlight_powerLimited (id : Nat) : (s.dropFlight id).powerLimited = s.powerLimited := rfl
@[simp] theorem State.dropFlight_thermalLimited (id : Nat) : (s.dropFlight id).thermalLimited = s.thermalLimited := rfl
@[simp] theorem State.dropFlight_cus (id : Nat) : (s.dropFlight id).cus = s.cus := rfl
@[simp] theorem State.dropFlight_groups (id : Nat) : (s.dropFlight id).groups = s.groups := rfl
@[simp] theorem State.dropFlight_teams (id : Nat) : (s.dropFlight id).teams = s.teams := rfl
@[simp] theorem State.dropFlight_launches (id : Nat) : (s.dropFlight id).launches = s.launches := rfl
@[simp] theorem State.dropFlight_ctxs (id : Nat) : (s.dropFlight id).ctxs = s.ctxs := rfl
@[simp] theorem State.dropFlight_saved (id : Nat) : (s.dropFlight id).saved = s.saved := rfl
@[simp] theorem State.dropFlight_flights (id : Nat) : (s.dropFlight id).flights = s.flights.filter (·.id != id) := rfl
@[simp] theorem State.dropFlight_early (id : Nat) : (s.dropFlight id).early = s.early := rfl
@[simp] theorem State.dropFlight_tlb (id : Nat) : (s.dropFlight id).tlb = s.tlb := rfl
@[simp] theorem State.dropFlight_viewCache (id : Nat) : (s.dropFlight id).viewCache = s.viewCache := rfl
@[simp] theorem State.dropFlight_reservation (id : Nat) : (s.dropFlight id).reservation = s.reservation := rfl
@[simp] theorem State.dropFlight_served (id : Nat) : (s.dropFlight id).served = s.served := rfl
@[simp] theorem State.dropFlight_devErrq (id : Nat) : (s.dropFlight id).devErrq = s.devErrq := rfl
@[simp] theorem State.dropFlight_devLost (id : Nat) : (s.dropFlight id).devLost = s.devLost := rfl
@[simp] theorem State.dropFlight_windows (id : Nat) : (s.dropFlight id).windows = s.windows := rfl
@[simp] theorem State.dropFlight_hmExpired (id : Nat) : (s.dropFlight id).hmExpired = s.hmExpired := rfl
@[simp] theorem State.dropFlight_msix (id : Nat) : (s.dropFlight id).msix = s.msix := rfl
@[simp] theorem State.dropFlight_clock (id : Nat) : (s.dropFlight id).clock = s.clock := rfl
@[simp] theorem State.dropFlight_cur (id : Nat) : (s.dropFlight id).cur = s.cur := rfl
@[simp] theorem State.dropFlight_port2 (id : Nat) : (s.dropFlight id).port2 = s.port2 := rfl
@[simp] theorem State.dropFlight_upset (id : Nat) : (s.dropFlight id).upset = s.upset := rfl
@[simp] theorem State.dropFlight_hdmbase (id : Nat) : (s.dropFlight id).hdmbase = s.hdmbase := rfl
@[simp] theorem State.dropFlight_reply (id : Nat) : (s.dropFlight id).reply = s.reply := rfl
@[simp] theorem State.dropFlight_replyBad (id : Nat) : (s.dropFlight id).replyBad = s.replyBad := rfl
@[simp] theorem State.dropFlight_sent (id : Nat) : (s.dropFlight id).sent = s.sent := rfl
@[simp] theorem State.dropFlight_agenda (id : Nat) : (s.dropFlight id).agenda = s.agenda := rfl
@[simp] theorem State.dropFlight_turn (id : Nat) : (s.dropFlight id).turn = s.turn := rfl
@[simp] theorem State.dropFlight_free (id : Nat) : (s.dropFlight id).free = s.free := rfl
@[simp] theorem State.dropFlight_nextLaunch (id : Nat) : (s.dropFlight id).nextLaunch = s.nextLaunch := rfl
@[simp] theorem State.dropFlight_nextTeamId (id : Nat) : (s.dropFlight id).nextTeamId = s.nextTeamId := rfl
@[simp] theorem State.dropFlight_nextFlight (id : Nat) : (s.dropFlight id).nextFlight = s.nextFlight := rfl
@[simp] theorem State.dropFlight_nextOrder (id : Nat) : (s.dropFlight id).nextOrder = s.nextOrder := rfl

/-! ### State.launchFlight -/

@[simp] theorem State.launchFlight_power (f : Nat → Flight) : (s.launchFlight f).power = s.power := rfl
@[simp] theorem State.launchFlight_bar0 (f : Nat → Flight) : (s.launchFlight f).bar0 = s.bar0 := rfl
@[simp] theorem State.launchFlight_cuReady (f : Nat → Flight) : (s.launchFlight f).cuReady = s.cuReady := rfl
@[simp] theorem State.launchFlight_spares (f : Nat → Flight) : (s.launchFlight f).spares = s.spares := rfl
@[simp] theorem State.launchFlight_llcReady (f : Nat → Flight) : (s.launchFlight f).llcReady = s.llcReady := rfl
@[simp] theorem State.launchFlight_stackReady (f : Nat → Flight) : (s.launchFlight f).stackReady = s.stackReady := rfl
@[simp] theorem State.launchFlight_linkReady (f : Nat → Flight) : (s.launchFlight f).linkReady = s.linkReady := rfl
@[simp] theorem State.launchFlight_stage1Open (f : Nat → Flight) : (s.launchFlight f).stage1Open = s.stage1Open := rfl
@[simp] theorem State.launchFlight_stage2Open (f : Nat → Flight) : (s.launchFlight f).stage2Open = s.stage2Open := rfl
@[simp] theorem State.launchFlight_portsOpen (f : Nat → Flight) : (s.launchFlight f).portsOpen = s.portsOpen := rfl
@[simp] theorem State.launchFlight_dram (f : Nat → Flight) : (s.launchFlight f).dram = s.dram := rfl
@[simp] theorem State.launchFlight_dramBad (f : Nat → Flight) : (s.launchFlight f).dramBad = s.dramBad := rfl
@[simp] theorem State.launchFlight_zeroFlags (f : Nat → Flight) : (s.launchFlight f).zeroFlags = s.zeroFlags := rfl
@[simp] theorem State.launchFlight_hostMem (f : Nat → Flight) : (s.launchFlight f).hostMem = s.hostMem := rfl
@[simp] theorem State.launchFlight_hostBad (f : Nat → Flight) : (s.launchFlight f).hostBad = s.hostBad := rfl
@[simp] theorem State.launchFlight_peers (f : Nat → Flight) : (s.launchFlight f).peers = s.peers := rfl
@[simp] theorem State.launchFlight_retired (f : Nat → Flight) : (s.launchFlight f).retired = s.retired := rfl
@[simp] theorem State.launchFlight_repairs (f : Nat → Flight) : (s.launchFlight f).repairs = s.repairs := rfl
@[simp] theorem State.launchFlight_firmware (f : Nat → Flight) : (s.launchFlight f).firmware = s.firmware := rfl
@[simp] theorem State.launchFlight_powerLimited (f : Nat → Flight) : (s.launchFlight f).powerLimited = s.powerLimited := rfl
@[simp] theorem State.launchFlight_thermalLimited (f : Nat → Flight) : (s.launchFlight f).thermalLimited = s.thermalLimited := rfl
@[simp] theorem State.launchFlight_cus (f : Nat → Flight) : (s.launchFlight f).cus = s.cus := rfl
@[simp] theorem State.launchFlight_groups (f : Nat → Flight) : (s.launchFlight f).groups = s.groups := rfl
@[simp] theorem State.launchFlight_teams (f : Nat → Flight) : (s.launchFlight f).teams = s.teams := rfl
@[simp] theorem State.launchFlight_launches (f : Nat → Flight) : (s.launchFlight f).launches = s.launches := rfl
@[simp] theorem State.launchFlight_ctxs (f : Nat → Flight) : (s.launchFlight f).ctxs = s.ctxs := rfl
@[simp] theorem State.launchFlight_saved (f : Nat → Flight) : (s.launchFlight f).saved = s.saved := rfl
@[simp] theorem State.launchFlight_flights (f : Nat → Flight) : (s.launchFlight f).flights = s.flights ++ [f s.nextFlight] := rfl
@[simp] theorem State.launchFlight_early (f : Nat → Flight) : (s.launchFlight f).early = s.early := rfl
@[simp] theorem State.launchFlight_tlb (f : Nat → Flight) : (s.launchFlight f).tlb = s.tlb := rfl
@[simp] theorem State.launchFlight_viewCache (f : Nat → Flight) : (s.launchFlight f).viewCache = s.viewCache := rfl
@[simp] theorem State.launchFlight_reservation (f : Nat → Flight) : (s.launchFlight f).reservation = s.reservation := rfl
@[simp] theorem State.launchFlight_served (f : Nat → Flight) : (s.launchFlight f).served = s.served := rfl
@[simp] theorem State.launchFlight_devErrq (f : Nat → Flight) : (s.launchFlight f).devErrq = s.devErrq := rfl
@[simp] theorem State.launchFlight_devLost (f : Nat → Flight) : (s.launchFlight f).devLost = s.devLost := rfl
@[simp] theorem State.launchFlight_windows (f : Nat → Flight) : (s.launchFlight f).windows = s.windows := rfl
@[simp] theorem State.launchFlight_hmExpired (f : Nat → Flight) : (s.launchFlight f).hmExpired = s.hmExpired := rfl
@[simp] theorem State.launchFlight_msix (f : Nat → Flight) : (s.launchFlight f).msix = s.msix := rfl
@[simp] theorem State.launchFlight_clock (f : Nat → Flight) : (s.launchFlight f).clock = s.clock := rfl
@[simp] theorem State.launchFlight_cur (f : Nat → Flight) : (s.launchFlight f).cur = s.cur := rfl
@[simp] theorem State.launchFlight_port2 (f : Nat → Flight) : (s.launchFlight f).port2 = s.port2 := rfl
@[simp] theorem State.launchFlight_upset (f : Nat → Flight) : (s.launchFlight f).upset = s.upset := rfl
@[simp] theorem State.launchFlight_hdmbase (f : Nat → Flight) : (s.launchFlight f).hdmbase = s.hdmbase := rfl
@[simp] theorem State.launchFlight_reply (f : Nat → Flight) : (s.launchFlight f).reply = s.reply := rfl
@[simp] theorem State.launchFlight_replyBad (f : Nat → Flight) : (s.launchFlight f).replyBad = s.replyBad := rfl
@[simp] theorem State.launchFlight_sent (f : Nat → Flight) : (s.launchFlight f).sent = s.sent := rfl
@[simp] theorem State.launchFlight_agenda (f : Nat → Flight) : (s.launchFlight f).agenda = s.agenda := rfl
@[simp] theorem State.launchFlight_turn (f : Nat → Flight) : (s.launchFlight f).turn = s.turn := rfl
@[simp] theorem State.launchFlight_free (f : Nat → Flight) : (s.launchFlight f).free = s.free := rfl
@[simp] theorem State.launchFlight_nextLaunch (f : Nat → Flight) : (s.launchFlight f).nextLaunch = s.nextLaunch := rfl
@[simp] theorem State.launchFlight_nextTeamId (f : Nat → Flight) : (s.launchFlight f).nextTeamId = s.nextTeamId := rfl
@[simp] theorem State.launchFlight_nextFlight (f : Nat → Flight) : (s.launchFlight f).nextFlight = s.nextFlight + 1 := rfl
@[simp] theorem State.launchFlight_nextOrder (f : Nat → Flight) : (s.launchFlight f).nextOrder = s.nextOrder := rfl

/-! ### State.raise -/

@[simp] theorem State.raise_power (v : Nat) : (s.raise v).power = s.power := rfl
@[simp] theorem State.raise_bar0 (v : Nat) : (s.raise v).bar0 = s.bar0 := rfl
@[simp] theorem State.raise_cuReady (v : Nat) : (s.raise v).cuReady = s.cuReady := rfl
@[simp] theorem State.raise_spares (v : Nat) : (s.raise v).spares = s.spares := rfl
@[simp] theorem State.raise_llcReady (v : Nat) : (s.raise v).llcReady = s.llcReady := rfl
@[simp] theorem State.raise_stackReady (v : Nat) : (s.raise v).stackReady = s.stackReady := rfl
@[simp] theorem State.raise_linkReady (v : Nat) : (s.raise v).linkReady = s.linkReady := rfl
@[simp] theorem State.raise_stage1Open (v : Nat) : (s.raise v).stage1Open = s.stage1Open := rfl
@[simp] theorem State.raise_stage2Open (v : Nat) : (s.raise v).stage2Open = s.stage2Open := rfl
@[simp] theorem State.raise_portsOpen (v : Nat) : (s.raise v).portsOpen = s.portsOpen := rfl
@[simp] theorem State.raise_dram (v : Nat) : (s.raise v).dram = s.dram := rfl
@[simp] theorem State.raise_dramBad (v : Nat) : (s.raise v).dramBad = s.dramBad := rfl
@[simp] theorem State.raise_zeroFlags (v : Nat) : (s.raise v).zeroFlags = s.zeroFlags := rfl
@[simp] theorem State.raise_hostMem (v : Nat) : (s.raise v).hostMem = s.hostMem := rfl
@[simp] theorem State.raise_hostBad (v : Nat) : (s.raise v).hostBad = s.hostBad := rfl
@[simp] theorem State.raise_peers (v : Nat) : (s.raise v).peers = s.peers := rfl
@[simp] theorem State.raise_retired (v : Nat) : (s.raise v).retired = s.retired := rfl
@[simp] theorem State.raise_repairs (v : Nat) : (s.raise v).repairs = s.repairs := rfl
@[simp] theorem State.raise_firmware (v : Nat) : (s.raise v).firmware = s.firmware := rfl
@[simp] theorem State.raise_powerLimited (v : Nat) : (s.raise v).powerLimited = s.powerLimited := rfl
@[simp] theorem State.raise_thermalLimited (v : Nat) : (s.raise v).thermalLimited = s.thermalLimited := rfl
@[simp] theorem State.raise_cus (v : Nat) : (s.raise v).cus = s.cus := rfl
@[simp] theorem State.raise_groups (v : Nat) : (s.raise v).groups = s.groups := rfl
@[simp] theorem State.raise_teams (v : Nat) : (s.raise v).teams = s.teams := rfl
@[simp] theorem State.raise_launches (v : Nat) : (s.raise v).launches = s.launches := rfl
@[simp] theorem State.raise_ctxs (v : Nat) : (s.raise v).ctxs = s.ctxs := rfl
@[simp] theorem State.raise_saved (v : Nat) : (s.raise v).saved = s.saved := rfl
@[simp] theorem State.raise_flights (v : Nat) : (s.raise v).flights = s.flights := rfl
@[simp] theorem State.raise_early (v : Nat) : (s.raise v).early = s.early := rfl
@[simp] theorem State.raise_tlb (v : Nat) : (s.raise v).tlb = s.tlb := rfl
@[simp] theorem State.raise_viewCache (v : Nat) : (s.raise v).viewCache = s.viewCache := rfl
@[simp] theorem State.raise_reservation (v : Nat) : (s.raise v).reservation = s.reservation := rfl
@[simp] theorem State.raise_served (v : Nat) : (s.raise v).served = s.served := rfl
@[simp] theorem State.raise_devErrq (v : Nat) : (s.raise v).devErrq = s.devErrq := rfl
@[simp] theorem State.raise_devLost (v : Nat) : (s.raise v).devLost = s.devLost := rfl
@[simp] theorem State.raise_windows (v : Nat) : (s.raise v).windows = s.windows := rfl
@[simp] theorem State.raise_hmExpired (v : Nat) : (s.raise v).hmExpired = s.hmExpired := rfl
@[simp] theorem State.raise_msix (v : Nat) : (s.raise v).msix = insertNat s.msix v := rfl
@[simp] theorem State.raise_clock (v : Nat) : (s.raise v).clock = s.clock := rfl
@[simp] theorem State.raise_cur (v : Nat) : (s.raise v).cur = s.cur := rfl
@[simp] theorem State.raise_port2 (v : Nat) : (s.raise v).port2 = s.port2 := rfl
@[simp] theorem State.raise_upset (v : Nat) : (s.raise v).upset = s.upset := rfl
@[simp] theorem State.raise_hdmbase (v : Nat) : (s.raise v).hdmbase = s.hdmbase := rfl
@[simp] theorem State.raise_reply (v : Nat) : (s.raise v).reply = s.reply := rfl
@[simp] theorem State.raise_replyBad (v : Nat) : (s.raise v).replyBad = s.replyBad := rfl
@[simp] theorem State.raise_sent (v : Nat) : (s.raise v).sent = s.sent := rfl
@[simp] theorem State.raise_agenda (v : Nat) : (s.raise v).agenda = s.agenda := rfl
@[simp] theorem State.raise_turn (v : Nat) : (s.raise v).turn = s.turn := rfl
@[simp] theorem State.raise_free (v : Nat) : (s.raise v).free = s.free := rfl
@[simp] theorem State.raise_nextLaunch (v : Nat) : (s.raise v).nextLaunch = s.nextLaunch := rfl
@[simp] theorem State.raise_nextTeamId (v : Nat) : (s.raise v).nextTeamId = s.nextTeamId := rfl
@[simp] theorem State.raise_nextFlight (v : Nat) : (s.raise v).nextFlight = s.nextFlight := rfl
@[simp] theorem State.raise_nextOrder (v : Nat) : (s.raise v).nextOrder = s.nextOrder := rfl

end Sys2Proof.Machine
end

