-- ==== Sys2Proof/Laws/Canonical.lean ====
section
/-!
SUPPORT. The canonical form of every memory of the machine: reset has it, every operation that writes a memory keeps it,
and so does every update of a part of the state that holds no memory.
-/
namespace Sys2Proof.Safety
open Sys2Proof.Machine

/-! ### Lists -/

/-- What holds of every element still holds after a change of one that keeps it. -/
theorem forall_updFirst {α : Type} (q : α → Prop) (p : α → Bool) (f : α → α) (xs : List α) (hf : ∀ x, q x → q (f x))
    (h : ∀ x ∈ xs, q x) : ∀ x ∈ updFirst p f xs, q x := by
  induction xs with
  | nil => exact h
  | cons x r ih =>
    have hr := fun y hy => h y (List.mem_cons_of_mem x hy)
    rw [updFirst]
    split
    · intro y hy
      rcases List.mem_cons.1 hy with rfl | hy
      · exact hf x (h x (by simp))
      · exact hr y hy
    · intro y hy
      rcases List.mem_cons.1 hy with rfl | hy
      · exact h y (by simp)
      · exact ih hr y hy

/-! ### The machine -/

theorem memOk_reset : MemOk State.reset := by
  simp [MemOk, State.reset, Mem.wf]

/-- The form rests on the memories alone. -/
theorem MemOk.congr {s t : State} (h : MemOk s) (h1 : t.dram = s.dram) (h2 : t.hostMem = s.hostMem) (h3 : t.peers = s.peers)
    (h4 : t.teams = s.teams) (h5 : t.saved = s.saved) : MemOk t := by
  rw [MemOk, h1, h2, h3, h4, h5]
  exact h

theorem MemOk.memOf {s : State} (h : MemOk s) (sp : Space) : (s.memOf sp).wf = true := by
  obtain ⟨h1, h2, h3, -⟩ := h
  cases sp with
  | dram => exact h1
  | host => exact h2
  | peer n =>
    simp only [State.memOf]
    cases hp : s.peers.find? (·.node == n) with
    | none => rfl
    | some p => exact (h3 p (List.mem_of_find?_eq_some hp)).1
  | peerHost n =>
    simp only [State.memOf]
    cases hp : s.peers.find? (·.node == n) with
    | none => rfl
    | some p => exact (h3 p (List.mem_of_find?_eq_some hp)).2

theorem MemOk.withMem {s : State} (h : MemOk s) (sp : Space) (m : Mem) (bad : List Nat) (hm : m.wf = true) :
    MemOk (s.withMem sp m bad) := by
  obtain ⟨h1, h2, h3, h4⟩ := h
  cases sp with
  | dram => exact ⟨hm, h2, h3, h4⟩
  | host => exact ⟨h1, hm, h3, h4⟩
  | peer n =>
    exact ⟨h1, h2, forall_updFirst (fun p : Peer => p.mem.wf = true ∧ p.hostMem.wf = true) _ _ _ (fun _ hp => ⟨hm, hp.2⟩) h3, h4⟩
  | peerHost n =>
    exact ⟨h1, h2, forall_updFirst (fun p : Peer => p.mem.wf = true ∧ p.hostMem.wf = true) _ _ _ (fun _ hp => ⟨hp.1, hm⟩) h3, h4⟩

theorem MemOk.putPhys {s : State} (h : MemOk s) (p : PAddr) (bs : List Byte) (b : Bool) : MemOk (s.putPhys p bs b) := by
  have hw := h.withMem p.space _ (markWrite (s.badOf p.space) p.addr bs.length b) (Mem.wf_write _ p.addr bs (h.memOf p.space))
  simp only [State.putPhys]
  split
  · exact h
  · split
    · exact hw.congr rfl rfl rfl rfl rfl
    · exact hw

theorem MemOk.copyPage {s : State} (h : MemOk s) (src dst : PAddr) : MemOk (s.copyPage src dst) := by
  have hw := fun bad => h.withMem dst.space _ bad (Mem.wf_write _ dst.addr ((s.memOf src.space).read src.addr 4096) (h.memOf dst.space))
  simp only [State.copyPage]
  split
  · exact h
  · exact (hw _).congr rfl rfl rfl rfl rfl

theorem MemOk.copyPages {s : State} (h : MemOk s) (cs : List PageCopy) (src dst : PageCopy → PAddr) :
    MemOk (cs.foldl (fun t c => t.copyPage (src c) (dst c)) s) := by
  induction cs generalizing s with
  | nil => exact h
  | cons c r ih => exact ih (h.copyPage _ _)

theorem MemOk.preserveFor {s : State} (h : MemOk s) (p : PAddr) (n : Nat) : MemOk (s.preserveFor p n) := by
  simp only [State.preserveFor]
  split
  · exact h
  · exact (h.copyPages _ (·.page) (·.shadow)).congr rfl rfl rfl rfl rfl

/-- Every write of physical memory keeps the form. -/
theorem MemOk.storePhys {s : State} (h : MemOk s) (p : PAddr) (bs : List Byte) (b : Bool) : MemOk (s.storePhys p bs b) := by
  rw [State.storePhys]
  split
  · exact h
  · exact (h.preserveFor _ _).putPhys _ _ _

theorem MemOk.updTeam {s : State} (h : MemOk s) (id : Nat) (f : Team → Team) (hf : ∀ t, TeamMemOk t → TeamMemOk (f t)) :
    MemOk (s.updTeam id f) := by
  obtain ⟨h1, h2, h3, h4, h5⟩ := h
  exact ⟨h1, h2, h3, forall_updFirst TeamMemOk _ _ _ hf h4, h5⟩

theorem MemOk.updGroup {s : State} (h : MemOk s) (cu part slot : Nat) (f : Group → Group) : MemOk (s.updGroup cu part slot f) :=
  h.congr rfl rfl rfl rfl rfl

theorem MemOk.updLaunch {s : State} (h : MemOk s) (id : Nat) (f : Launch → Launch) : MemOk (s.updLaunch id f) :=
  h.congr rfl rfl rfl rfl rfl

theorem MemOk.updCtx {s : State} (h : MemOk s) (id : Nat) (f : Ctx → Ctx) : MemOk (s.updCtx id f) :=
  h.congr rfl rfl rfl rfl rfl

theorem MemOk.updFlight {s : State} (h : MemOk s) (id : Nat) (f : Flight → Flight) : MemOk (s.updFlight id f) :=
  h.congr rfl rfl rfl rfl rfl

theorem MemOk.updCu {s : State} (h : MemOk s) (n : Nat) (f : Cu → Cu) : MemOk (s.updCu n f) :=
  h.congr rfl rfl rfl rfl rfl

theorem MemOk.onLanes {s : State} (h : MemOk s) (e : Env) (lanes : List Nat) (f : Nat → Thread → Thread → Thread) :
    MemOk (e.onLanes lanes s f) := h.updGroup _ _ _ _

theorem MemOk.storeCached {s : State} (h : MemOk s) (cu : Nat) (p : PAddr) (bs : List Byte) : MemOk (s.storeCached cu p bs) :=
  (h.storePhys p bs false).updCu _ _

/-! ### What a write of device DRAM leaves -/

/-- A write that no preserved page awaits changes nothing else first. -/
theorem preserveFor_none (s : State) (p : PAddr) (n : Nat) (h : s.duePages p n = []) : s.preserveFor p n = s := by
  simp only [State.preserveFor, h]

/-- A byte of device DRAM after a write of one page. -/
theorem putPhys_dram (s : State) (h : MemOk s) (a x : Nat) (bs : List Byte) (b : Bool) (hr : s.isRetired ⟨.dram, a⟩ = false) :
    (s.putPhys ⟨.dram, a⟩ bs b).dram.get x = if a ≤ x ∧ x < a + bs.length then bs.getD (x - a) 0 else s.dram.get x := by
  rw [← Mem.get_write s.dram a x bs h.1]
  simp [State.putPhys, hr, State.withMem, State.memOf]

/-- A write of a retired page is dropped (R449). -/
theorem putPhys_retired (s : State) (p : PAddr) (bs : List Byte) (b : Bool) (hr : s.isRetired p = true) : s.putPhys p bs b = s := by
  simp [State.putPhys, hr]

/-- A byte of device DRAM after a store that no preserved page awaits. -/
theorem storePhys_dram (s : State) (h : MemOk s) (a x : Nat) (bs : List Byte) (b : Bool) (hr : s.isRetired ⟨.dram, a⟩ = false)
    (hd : s.duePages ⟨.dram, a⟩ bs.length = []) :
    (s.storePhys ⟨.dram, a⟩ bs b).dram.get x = if a ≤ x ∧ x < a + bs.length then bs.getD (x - a) 0 else s.dram.get x := by
  rw [State.storePhys]
  split
  · rename_i he
    rw [if_neg]
    simp only [List.isEmpty_iff] at he
    subst he
    simp only [List.length_nil]
    omega
  · rw [preserveFor_none s _ _ hd, putPhys_dram s h a x bs b hr]

/-! ### Error records -/

theorem MemOk.setLost {s : State} (h : MemOk s) (q : Option Nat) (n : Nat) : MemOk (s.setLost q n) := by
  cases q <;> exact h.congr rfl rfl rfl rfl rfl

theorem MemOk.setWaitingErrs {s : State} (h : MemOk s) (q : Option Nat) (rs : List ErrRec) : MemOk (s.setWaitingErrs q rs) := by
  cases q <;> exact h.congr rfl rfl rfl rfl rfl

theorem MemOk.writeErr {s : State} (h : MemOk s) (q : Option Nat) (r : ErrRec) : MemOk (s.writeErr q r) := by
  simp only [State.writeErr]
  split
  · exact h
  · exact (((h.storePhys _ _ _).storePhys _ _ _).setLost q 0).congr rfl rfl rfl rfl rfl

theorem MemOk.report {s : State} (h : MemOk s) (q : Option Nat) (r : ErrRec) : MemOk (s.report q r) := by
  simp only [State.report]
  split
  · split
    · exact h.writeErr q r
    · exact h.setWaitingErrs q _
  · split
    · exact h.setLost q _
    · exact h.setWaitingErrs q _

/-! ### Scratchpad and hold tiles -/

theorem TeamMemOk.withMem {t : Team} (h : TeamMemOk t) (m : Mem) (bad : List Nat) (hm : m.wf = true) :
    TeamMemOk { t with mem := m, bad := bad } := ⟨hm, h.2⟩

theorem MemOk.scrWrite {s : State} (h : MemOk s) (team off : Nat) (bs : List Byte) (b : Bool) : MemOk (s.scrWrite team off bs b) :=
  h.updTeam _ _ fun _ ht => ht.withMem _ _ (Mem.wf_write _ _ _ ht.1)

theorem wf_setAll {α : Type} (m : Mem) (xs : List (Nat × Byte × α)) (h : m.wf = true) :
    (xs.foldl (fun m x => Mem.set m x.1 x.2.1) m).wf = true := by
  induction xs generalizing m with
  | nil => exact h
  | cons x r ih => exact ih _ (Mem.wf_set m _ _ h)

theorem MemOk.landBytes {s : State} (h : MemOk s) (team : Nat) (xs : List (Nat × Byte × Bool)) : MemOk (s.landBytes team xs) :=
  h.updTeam _ _ fun _ ht => ht.withMem _ _ (wf_setAll _ xs ht.1)

theorem wf_putRow (h : HoldPart) (tile row : Nat) (ws : List Word) (cols : List Nat) (hw : h.mem.wf = true) :
    (h.putRow tile row ws cols).mem.wf = true := Mem.wf_write _ _ _ hw

theorem wf_putTile (h : HoldPart) (t : Nat) (bs : MarkedBytes) (hw : h.mem.wf = true) :
    (h.putTile t bs).mem.wf = true := Mem.wf_write _ _ _ hw

end Sys2Proof.Safety
end

