-- ==== Sys2Proof/Laws/Issue.lean ====
section
/-!
SUPPORT. What an issue can do: looking up a group after an update of one, the lanes of an issue, and one lemma for
each of the shared operations that run a word.
-/
namespace Sys2Proof.Machine
open Sys2Proof.Safety

/-! ### Lists -/

theorem find?_updFirst_same {α : Type} (p : α → Bool) (f : α → α) (xs : List α) (h : ∀ x, p x = true → p (f x) = true) :
    (updFirst p f xs).find? p = (xs.find? p).map f := by
  induction xs with
  | nil => rfl
  | cons x r ih =>
    rw [updFirst]
    by_cases hx : p x = true
    · rw [if_pos hx, List.find?_cons_of_pos (h x hx), List.find?_cons_of_pos hx]; rfl
    · rw [if_neg hx, List.find?_cons_of_neg hx, List.find?_cons_of_neg hx, ih]

theorem find?_updFirst_other {α : Type} (p q : α → Bool) (f : α → α) (xs : List α)
    (h : ∀ x, p x = true → q (f x) = false ∧ q x = false) : (updFirst p f xs).find? q = xs.find? q := by
  induction xs with
  | nil => rfl
  | cons x r ih =>
    rw [updFirst]
    by_cases hx : p x = true
    · rw [if_pos hx, List.find?_cons_of_neg (by simp [(h x hx).1]), List.find?_cons_of_neg (by simp [(h x hx).2])]
    · rw [if_neg hx]
      by_cases hq : q x = true
      · rw [List.find?_cons_of_pos hq, List.find?_cons_of_pos hq]
      · rw [List.find?_cons_of_neg hq, List.find?_cons_of_neg hq, ih]

/-! ### Groups -/

theorem Group.at_iff (g : Group) (a b c : Nat) : g.at_ a b c = true ↔ g.cu = a ∧ g.part = b ∧ g.slot = c := by
  simp [Group.at_, and_assoc]

/-- A change of a group keeps its key. -/
def KeepsKey (f : Group → Group) : Prop := ∀ g, (f g).cu = g.cu ∧ (f g).part = g.part ∧ (f g).slot = g.slot

theorem KeepsKey.at_ {f : Group → Group} (h : KeepsKey f) (g : Group) (a b c : Nat) : (f g).at_ a b c = g.at_ a b c := by
  obtain ⟨h1, h2, h3⟩ := h g
  simp only [Group.at_, h1, h2, h3]

/-- The group that was changed. -/
theorem State.group?_updGroup (s : State) (a b c : Nat) {f : Group → Group} (h : KeepsKey f) :
    (s.updGroup a b c f).group? a b c = (s.group? a b c).map f :=
  find?_updFirst_same _ f s.groups fun g hg => by rw [h.at_]; exact hg

/-- Every other group. -/
theorem State.group?_updGroup_other (s : State) (a b c a' b' c' : Nat) {f : Group → Group} (h : KeepsKey f)
    (hne : (a', b', c') ≠ (a, b, c)) : (s.updGroup a b c f).group? a' b' c' = s.group? a' b' c' := by
  refine find?_updFirst_other _ _ f s.groups fun g hg => ?_
  have hq : g.at_ a' b' c' = false := by
    obtain ⟨h1, h2, h3⟩ := (Group.at_iff g a b c).1 hg
    rw [Bool.eq_false_iff, ne_eq, Group.at_iff]
    rintro ⟨h4, h5, h6⟩
    exact hne (by simp [← h1, ← h2, ← h3, h4, h5, h6])
  exact ⟨by rw [h.at_]; exact hq, hq⟩

/-! ### Lanes -/

theorem bitOf_two_pow (i j : Nat) : bitOf (2 ^ i) j = decide (i = j) := by
  rw [bitOf, ← Nat.shiftRight_eq_div_pow]
  have := Nat.testBit_two_pow (n := i) (m := j)
  rw [Nat.testBit_eq_decide_div_mod_eq, ← Nat.shiftRight_eq_div_pow] at this
  rw [← this]
  by_cases h : (2 ^ i) >>> j % 2 = 1 <;> simp [h]

theorem bitOf_eq_testBit (x i : Nat) : bitOf x i = x.testBit i := by
  rw [bitOf, Nat.testBit_eq_decide_div_mod_eq]
  by_cases h : x / 2 ^ i % 2 = 1 <;> simp [h]

/-- The number that a list of bits makes has exactly these bits. -/
theorem testBit_mask (xs : List Nat) (m i : Nat) :
    (xs.foldl (fun m i => if bitOf m i then m else m + 2 ^ i) m).testBit i = (m.testBit i || xs.contains i) := by
  induction xs generalizing m with
  | nil => simp
  | cons x r ih =>
    rw [List.foldl_cons, ih, List.contains_cons]
    have key : (if bitOf m x then m else m + 2 ^ x).testBit i = (m.testBit i || (i == x)) := by
      rw [bitOf_eq_testBit]
      by_cases hb : m.testBit x = true
      · rw [if_pos hb]
        by_cases hi : i = x
        · subst hi; simp [hb]
        · simp [hi]
      · rw [if_neg hb]
        have hb' : m.testBit x = false := by simpa using hb
        by_cases hi : i = x
        · subst hi
          rw [Nat.add_comm, Nat.testBit_two_pow_add_eq, hb']
          simp
        · have hm : m = 2 ^ (x + 1) * (m / 2 ^ (x + 1)) + m % 2 ^ (x + 1) := (Nat.div_add_mod _ _).symm
          have hr : m % 2 ^ (x + 1) < 2 ^ x := by
            have h1 : m % 2 ^ (x + 1) < 2 ^ (x + 1) := Nat.mod_lt _ (Nat.two_pow_pos _)
            have h2 : 2 ^ (x + 1) = 2 ^ x * 2 := Nat.pow_succ _ _
            rcases Nat.lt_or_ge (m % 2 ^ (x + 1)) (2 ^ x) with h | h
            · exact h
            · have hbit : (m % 2 ^ (x + 1)).testBit x = true := by
                rw [show m % 2 ^ (x + 1) = 2 ^ x + (m % 2 ^ (x + 1) - 2 ^ x) by omega, Nat.testBit_two_pow_add_eq,
                  Nat.testBit_lt_two_pow (by omega)]
                rfl
              rw [Nat.testBit_mod_two_pow] at hbit
              simp [hb'] at hbit
          have hsum : m + 2 ^ x = 2 ^ (x + 1) * (m / 2 ^ (x + 1)) + (2 ^ x + m % 2 ^ (x + 1)) := by omega
          have hlt : 2 ^ x + m % 2 ^ (x + 1) < 2 ^ (x + 1) := by
            have h2 : 2 ^ (x + 1) = 2 ^ x * 2 := Nat.pow_succ _ _
            omega
          rw [hsum, Nat.testBit_two_pow_mul_add _ hlt]
          conv => rhs; rw [hm, Nat.testBit_two_pow_mul_add _ (Nat.mod_lt _ (Nat.two_pow_pos _))]
          by_cases hj : i < x + 1
          · have hix : i < x := by omega
            rw [if_pos hj, if_pos hj, Nat.testBit_two_pow_add_gt hix]
            simp [hi]
          · rw [if_neg hj, if_neg hj]
            simp [hi]
    rw [key, Bool.or_assoc]

/-- A lane is in the mask of a list exactly where it is in the list. -/
theorem bitOf_maskOf (xs : List Nat) (i : Nat) (hi : i < 32) : bitOf (maskOf 32 xs).toNat i = xs.contains i := by
  rw [bitOf_eq_testBit, maskOf, BitVec.toNat_ofNat, Nat.testBit_mod_two_pow, testBit_mask]
  simp [hi]

theorem mem_lanesOf (m : BitVec 32) (i : Nat) (h : i ∈ lanesOf m) : i < 32 := by
  rw [lanesOf, List.mem_filter, List.mem_range] at h
  exact h.1

/-- One lane of a group after a change of some lanes. -/
theorem Group.thread?_mapLanes (g : Group) (m : BitVec 32) (f : Nat → Thread → Thread) (n : Nat) :
    (g.mapLanes m f).thread? n = if bitOf m.toNat n then (g.thread? n).map (f n) else g.thread? n := by
  simp only [Group.mapLanes, Group.thread?, List.getElem?_mapIdx]
  cases g.threads[n]? with
  | none => simp
  | some t => by_cases h : bitOf m.toNat n = true <;> simp [h]

theorem Group.mapLanes_threads (g : Group) (m : BitVec 32) (f : Nat → Thread → Thread) (ts : List (Option Thread)) :
    { g.mapLanes m f with threads := ts } = { g with threads := ts } := rfl

theorem keepsKey_mapLanes (m : BitVec 32) (f : Nat → Thread → Thread) : KeepsKey fun g => g.mapLanes m f := fun _ => ⟨rfl, rfl, rfl⟩

/-! ### The issue -/

/-- What the machine's issue stands on. -/
theorem State.env?_some (s : State) (e : Env) (h : s.env? = some e) :
    e.s = s ∧ s.group? e.iss.cu e.iss.part e.iss.slot = some e.g ∧
    e.lanes = (lanesOf e.iss.lanes).filter (fun i => (e.g.thread? i).isSome) ∧ e.lanes ≠ [] := by
  unfold State.env? at h
  split at h
  · cases h
  · split at h
    · cases h
    · rename_i g hg
      split at h
      · simp only at h
        split at h
        · cases h
        · rename_i t ht
          cases h
          refine ⟨rfl, hg, rfl, ?_⟩
          intro hnil
          simp only at hnil
          rw [hnil] at ht
          simp at ht
      · cases h

/-- Lanes of an issue are below 32 and hold threads. -/
theorem Env.lane_lt {s : State} {e : Env} (h : s.env? = some e) {n : Nat} (hn : n ∈ e.lanes) :
    n < 32 ∧ ∃ t, e.thread n = some t := by
  obtain ⟨-, -, hl, -⟩ := State.env?_some s e h
  rw [hl, List.mem_filter] at hn
  exact ⟨mem_lanesOf _ _ hn.1, Option.isSome_iff_exists.1 hn.2⟩

theorem Env.mem_take {e : Env} {gd : Guard} {n : Nat} (h : n ∈ e.take gd) : n ∈ e.lanes := (List.mem_filter.1 h).1

/-- The group of the issue after a change of some of its lanes. -/
theorem Env.group?_onLanes (e : Env) (lanes : List Nat) (t : State) (f : Nat → Thread → Thread → Thread) :
    (e.onLanes lanes t f).group? e.iss.cu e.iss.part e.iss.slot =
      (t.group? e.iss.cu e.iss.part e.iss.slot).map fun g =>
        g.mapLanes (maskOf 32 lanes) fun n t => (e.thread n).elim t fun t0 => f n t0 t :=
  State.group?_updGroup t _ _ _ (keepsKey_mapLanes _ _)

/-- One lane after a change of some lanes. -/
theorem Env.laneIn_onLanes (e : Env) (lanes : List Nat) (t : State) (f : Nat → Thread → Thread → Thread) (n : Nat)
    (hn : n < 32) :
    laneIn (e.onLanes lanes t f) e n =
      if lanes.contains n then (laneIn t e n).map fun x => (e.thread n).elim x fun t0 => f n t0 x else laneIn t e n := by
  unfold laneIn
  rw [Env.group?_onLanes]
  cases t.group? e.iss.cu e.iss.part e.iss.slot with
  | none => simp
  | some g =>
    simp only [Option.map_some, Option.bind_some]
    rw [Group.thread?_mapLanes, bitOf_maskOf _ _ hn]

/-- A lane that no issue has. -/
theorem Env.laneIn_onLanes_out (e : Env) (lanes : List Nat) (t : State) (f : Nat → Thread → Thread → Thread) (n : Nat)
    (hn : 32 ≤ n) : laneIn (e.onLanes lanes t f) e n = laneIn t e n := by
  unfold laneIn
  rw [Env.group?_onLanes]
  cases t.group? e.iss.cu e.iss.part e.iss.slot with
  | none => rfl
  | some g =>
    simp only [Option.map_some, Option.bind_some]
    rw [Group.thread?_mapLanes]
    have : bitOf (maskOf 32 lanes).toNat n = false := by
      rw [bitOf_eq_testBit]
      exact Nat.testBit_lt_two_pow (Nat.lt_of_lt_of_le (maskOf 32 lanes).isLt (Nat.pow_le_pow_right (by omega) hn))
    rw [this]
    rfl

/-- Changes of lanes touch only the issuing group. -/
theorem onlyGroup_updGroup (s t : State) (e : Env) (f : Group → Group) (hk : KeepsKey f) (h : OnlyGroup s t e) :
    OnlyGroup s (e.upd t f) e :=
  ⟨h.1, fun a b c hne => by
    rw [Env.upd, State.group?_updGroup_other t _ _ _ _ _ _ hk hne]
    exact h.2 a b c hne⟩

/-- Changes of lanes touch only threads. -/
theorem onlyThreads_onLanes (s t : State) (e : Env) (lanes : List Nat) (f : Nat → Thread → Thread → Thread)
    (h : OnlyThreads s t e) : OnlyThreads s (e.onLanes lanes t f) e := by
  obtain ⟨hg, g, hg1, hg2⟩ := h
  refine ⟨onlyGroup_updGroup s t e _ (keepsKey_mapLanes _ _) hg, ?_⟩
  refine ⟨_, by rw [Env.group?_onLanes, hg1]; rfl, ?_⟩
  rw [Group.mapLanes_threads]
  exact hg2

theorem onlyThreads_self (s : State) (e : Env) (h : s.env? = some e) : OnlyThreads s s e :=
  ⟨⟨rfl, fun _ _ _ _ => rfl⟩, e.g, (State.env?_some s e h).2.1, rfl⟩

/-- The issue with its threads past the word: nothing else has changed yet. -/
theorem onlyThreads_advance (s : State) (e : Env) (i : Instr) (h : s.env? = some e) :
    OnlyThreads s (e.advance (e.shape i)) e := by
  have hs := (State.env?_some s e h).1
  unfold Env.advance
  rw [hs]
  exact onlyThreads_onLanes s s e _ _ (onlyThreads_self s e h)

/-- One lane once the threads are past the word. -/
theorem laneIn_advance (s : State) (e : Env) (i : Instr) (h : s.env? = some e) (n : Nat) :
    laneIn (e.advance (e.shape i)) e n =
      if e.lanes.contains n then (e.thread n).map (passed e i ((Taking e i).contains n)) else e.thread n := by
  obtain ⟨hs, hg, hl, -⟩ := State.env?_some s e h
  have hbase : laneIn s e n = e.thread n := by rw [laneIn, hg]; rfl
  have hadv : e.advance (e.shape i) = e.onLanes e.lanes s fun n t0 t => t.past (e.windowsAfter (e.shape i) ((Taking e i).contains n) t0) := by
    unfold Env.advance
    rw [hs]
    rfl
  rw [hadv]
  by_cases hn : n < 32
  · rw [Env.laneIn_onLanes _ _ _ _ _ hn, hbase]
    by_cases hc : e.lanes.contains n = true
    · rw [if_pos hc, if_pos hc]
      cases ht : e.thread n with
      | none => rfl
      | some t => simp [passed]
    · rw [if_neg hc, if_neg hc]
  · rw [Env.laneIn_onLanes_out _ _ _ _ _ (by omega), hbase, if_neg]
    intro hc
    exact absurd ((Env.lane_lt h (by simpa using hc)).1) hn

/-- RUNNING A WORD: where the issue is clear, the word has its effect. -/
theorem runWord_clear (s : State) (i : Instr) (e : Env) (extra : Env → List Nat → List Cond) (act : Env → State → Out)
    (h : Clear s i e (extra e (Taking e i))) :
    runWord s i extra act = .next (e.finish (act e (e.advance (e.shape i)))) := by
  obtain ⟨h1, h2, h3, h4⟩ := h
  unfold runWord
  rw [h1]
  simp only [Taking] at h2
  simp only [h2, h3, h4, Bool.false_eq_true, if_false]

/-- A word that changes the threads that take part. -/
theorem threadOp_clear (s : State) (i : Instr) (e : Env) (f : Env → Nat → Thread → Thread → Thread) (h : Clear s i e []) :
    ∃ t, threadOp s i f = .next t ∧ OnlyThreads s t e ∧ Lanes t e i (f e) := by
  have h1 := h.1
  refine ⟨_, runWord_clear s i e noMore _ h, onlyThreads_onLanes s _ e _ _ (onlyThreads_advance s e i h1), ?_, ?_, ?_⟩
  · intro n hn t0 ht
    have hl := Env.mem_take hn
    rw [Env.finish, Env.laneIn_onLanes _ _ _ _ _ (Env.lane_lt h1 hl).1, if_pos (by simpa [Taking] using hn),
      laneIn_advance s e i h1, if_pos (by simpa using hl), ht]
    simp only [Option.map_some, Option.elim_some]
    rw [show (Taking e i).contains n = true by simpa using hn]
  · intro n hl hn t0 ht
    rw [Env.finish, Env.laneIn_onLanes _ _ _ _ _ (Env.lane_lt h1 hl).1, if_neg (by simpa [Taking] using hn),
      laneIn_advance s e i h1, if_pos (by simpa using hl), ht]
    simp only [Option.map_some]
    rw [show (Taking e i).contains n = false by simpa using hn]
  · intro n hn
    have ht : n ∉ e.take (e.shape i).guard := fun hc => hn (Env.mem_take hc)
    by_cases h32 : n < 32
    · rw [Env.finish, Env.laneIn_onLanes _ _ _ _ _ h32, if_neg (by simpa using ht), laneIn_advance s e i h1, if_neg (by simpa using hn)]
    · rw [Env.finish, Env.laneIn_onLanes_out _ _ _ _ _ (by omega), laneIn_advance s e i h1, if_neg (by simpa using hn)]

/-- A word that writes v-registers. -/
theorem vecOp_clear (s : State) (i : Instr) (e : Env) (d : Ref) (q : Bool) (f : Env → Nat → Thread → List Word × Nat)
    (h : Clear s i e []) :
    ∃ t, vecOp s i d q f = .next t ∧ OnlyThreads s t e ∧
      Lanes t e i fun n t0 t => (t.putRegs (e.sel d t0 true).list (f e n t0).1).orFx q (f e n t0).2 :=
  threadOp_clear s i e (fun e n t0 t => (t.putRegs (e.sel d t0 true).list (f e n t0).1).orFx q (f e n t0).2) h

/-- A word that writes a predicate. -/
theorem predOp_clear (s : State) (i : Instr) (e : Env) (p : BitVec 3) (q : Bool) (f : Env → Nat → Thread → Bool × Nat)
    (h : Clear s i e []) :
    ∃ t, predOp s i p q f = .next t ∧ OnlyThreads s t e ∧
      Lanes t e i fun n t0 t => (t.setP p.toNat (f e n t0).1).orFx q (f e n t0).2 :=
  threadOp_clear s i e (fun e n t0 t => (t.setP p.toNat (f e n t0).1).orFx q (f e n t0).2) h

/-- One lane after a change of the issuing group that leaves its threads. -/
theorem Env.laneIn_upd (e : Env) (t : State) (f : Group → Group) (hk : KeepsKey f) (hf : ∀ g, (f g).threads = g.threads)
    (n : Nat) : laneIn (e.upd t f) e n = laneIn t e n := by
  unfold laneIn
  rw [Env.upd, State.group?_updGroup t _ _ _ hk]
  cases t.group? e.iss.cu e.iss.part e.iss.slot with
  | none => rfl
  | some g => simp only [Option.map_some, Option.bind_some, Group.thread?, hf]

/-- A uniform word. -/
theorem uniOp_clear (s : State) (i : Instr) (e : Env) (d : BitVec 6) (f : Env → Nat) (h : Clear s i e []) :
    ∃ t, uniOp s i d f = .next t ∧ OnlyGroup s t e ∧ Lanes t e i (fun _ _ t => t) ∧
      ∃ g, t.group? e.iss.cu e.iss.part e.iss.slot = some g ∧
        { g with threads := e.g.threads, sregs := e.g.sregs } = e.g ∧ g.sregs = (e.g.setS d.toNat (f e)).sregs := by
  have h1 := h.1
  have hk : KeepsKey fun g => g.setS d.toNat (f e) := fun g => by
    simp only [Group.setS]; split <;> exact ⟨rfl, rfl, rfl⟩
  have ht : ∀ g : Group, (g.setS d.toNat (f e)).threads = g.threads := fun g => by
    simp only [Group.setS]; split <;> rfl
  obtain ⟨ho, g, hg1, hg2⟩ := onlyThreads_advance s e i h1
  have hg : (e.upd (e.advance (e.shape i)) fun g => g.setS d.toNat (f e)).group? e.iss.cu e.iss.part e.iss.slot =
      some (g.setS d.toNat (f e)) := by
    rw [Env.upd, State.group?_updGroup _ _ _ _ hk, hg1]; rfl
  refine ⟨_, runWord_clear s i e noMore _ h, onlyGroup_updGroup s _ e _ hk ho, ⟨?_, ?_, ?_⟩, _, hg, ?_, ?_⟩
  · intro n hn t0 h0
    rw [Env.finish, Env.laneIn_upd _ _ _ hk ht, laneIn_advance s e i h1, if_pos (by simpa using Env.mem_take hn), h0]
    simp only [Option.map_some]
    rw [show (Taking e i).contains n = true by simpa using hn]
  · intro n hl hn t0 h0
    rw [Env.finish, Env.laneIn_upd _ _ _ hk ht, laneIn_advance s e i h1, if_pos (by simpa using hl), h0]
    simp only [Option.map_some]
    rw [show (Taking e i).contains n = false by simpa using hn]
  · intro n hn
    rw [Env.finish, Env.laneIn_upd _ _ _ hk ht, laneIn_advance s e i h1, if_neg (by simpa using hn)]
  · rw [← hg2]; simp only [Group.setS]; split <;> rfl
  · rw [← hg2]; simp only [Group.setS]; split <;> rfl

theorem regsNat_lt (ws : List Word) : regsNat ws < 2 ^ (32 * ws.length) := by
  induction ws with
  | nil => simp [regsNat]
  | cons w r ih =>
    simp only [regsNat, List.length_cons]
    have := w.isLt
    rw [show 32 * (r.length + 1) = 32 + 32 * r.length by omega, Nat.pow_add]
    have h1 : 2 ^ 32 * regsNat r + 2 ^ 32 ≤ 2 ^ 32 * 2 ^ (32 * r.length) := by
      rw [← Nat.mul_succ]; exact Nat.mul_le_mul_left _ ih
    omega

end Sys2Proof.Machine
end

