-- ==== Sys2Proof/Laws/PerInstr.lean ====
section
/-!
SUPPORT. What every constructor of the instruction type satisfies, one lemma each: only instruction words can be ill formed.
-/
namespace Sys2Proof.Laws.WordOrEvent

open Sys2Proof

/-- An instruction that is not well formed has a word (R97): no event of the table is ill formed. -/
def Statement (i : Instr) : Prop := i.illFormed ≠ none → i.encode.isSome = true

/-- An instruction that has a word. -/
theorem of_word (i : Instr) (h : i.encode.isSome = true) : Statement i := fun _ => h

/-- An instruction that nothing makes ill formed. -/
theorem of_none (i : Instr) (h : i.illFormed = none) : Statement i := fun n => absurd h n

theorem iadd (d : BitVec 7) (a : BitVec 7) (b : BitVec 7) (q : Bool) (g : BitVec 3) : Statement (.iadd d a b q g) := of_word _ rfl
theorem isub (d : BitVec 7) (a : BitVec 7) (b : BitVec 7) (q : Bool) (g : BitVec 3) : Statement (.isub d a b q g) := of_word _ rfl
theorem iadc (d : BitVec 7) (a : BitVec 7) (b : BitVec 7) (q : Bool) (c : BitVec 3) : Statement (.iadc d a b q c) := of_word _ rfl
theorem isbb (d : BitVec 7) (a : BitVec 7) (b : BitVec 7) (q : Bool) (c : BitVec 3) : Statement (.isbb d a b q c) := of_word _ rfl
theorem imul (d : BitVec 7) (a : BitVec 7) (b : BitVec 7) (q : Bool) (g : BitVec 3) : Statement (.imul d a b q g) := of_word _ rfl
theorem imulhS (d : BitVec 7) (a : BitVec 7) (b : BitVec 7) (q : Bool) (g : BitVec 3) : Statement (.imulhS d a b q g) := of_word _ rfl
theorem imulhU (d : BitVec 7) (a : BitVec 7) (b : BitVec 7) (q : Bool) (g : BitVec 3) : Statement (.imulhU d a b q g) := of_word _ rfl
theorem imad (d : BitVec 7) (a : BitVec 7) (b : BitVec 7) (q : Bool) (g : BitVec 3) : Statement (.imad d a b q g) := of_word _ rfl
theorem and (d : BitVec 7) (a : BitVec 7) (b : BitVec 7) (q : Bool) (g : BitVec 3) : Statement (.and d a b q g) := of_word _ rfl
theorem or (d : BitVec 7) (a : BitVec 7) (b : BitVec 7) (q : Bool) (g : BitVec 3) : Statement (.or d a b q g) := of_word _ rfl
theorem xor (d : BitVec 7) (a : BitVec 7) (b : BitVec 7) (q : Bool) (g : BitVec 3) : Statement (.xor d a b q g) := of_word _ rfl
theorem shl (d : BitVec 7) (a : BitVec 7) (b : BitVec 7) (q : Bool) (g : BitVec 3) : Statement (.shl d a b q g) := of_word _ rfl
theorem shr (d : BitVec 7) (a : BitVec 7) (b : BitVec 7) (q : Bool) (g : BitVec 3) : Statement (.shr d a b q g) := of_word _ rfl
theorem sar (d : BitVec 7) (a : BitVec 7) (b : BitVec 7) (q : Bool) (g : BitVec 3) : Statement (.sar d a b q g) := of_word _ rfl
theorem rotl (d : BitVec 7) (a : BitVec 7) (b : BitVec 7) (q : Bool) (g : BitVec 3) : Statement (.rotl d a b q g) := of_word _ rfl
theorem bfeS (d : BitVec 7) (a : BitVec 7) (b : BitVec 7) (q : Bool) (g : BitVec 3) : Statement (.bfeS d a b q g) := of_word _ rfl
theorem bfeU (d : BitVec 7) (a : BitVec 7) (b : BitVec 7) (q : Bool) (g : BitVec 3) : Statement (.bfeU d a b q g) := of_word _ rfl
theorem bfi (d : BitVec 7) (a : BitVec 7) (b : BitVec 7) (q : Bool) (g : BitVec 3) : Statement (.bfi d a b q g) := of_word _ rfl
theorem icmp (c : ICmp) (p : BitVec 3) (a : BitVec 7) (b : BitVec 7) (q : Bool) (g : BitVec 3) : Statement (.icmp c p a b q g) := of_word _ rfl
theorem sel (d : BitVec 7) (a : BitVec 7) (b : BitVec 7) (q : Bool) (s : BitVec 3) : Statement (.sel d a b q s) := of_word _ rfl
theorem bysel (d : BitVec 7) (a : BitVec 7) (b : BitVec 7) (q : Bool) (g : BitVec 3) : Statement (.bysel d a b q g) := of_word _ rfl
theorem iaddImm (d : BitVec 7) (a : BitVec 7) (i : BitVec 11) : Statement (.iaddImm d a i) := of_word _ rfl
theorem imulImm (d : BitVec 7) (a : BitVec 7) (i : BitVec 11) : Statement (.imulImm d a i) := of_word _ rfl
theorem andImm (d : BitVec 7) (a : BitVec 7) (i : BitVec 11) : Statement (.andImm d a i) := of_word _ rfl
theorem orImm (d : BitVec 7) (a : BitVec 7) (i : BitVec 11) : Statement (.orImm d a i) := of_word _ rfl
theorem xorImm (d : BitVec 7) (a : BitVec 7) (i : BitVec 11) : Statement (.xorImm d a i) := of_word _ rfl
theorem shlImm (d : BitVec 7) (a : BitVec 7) (n : BitVec 5) : Statement (.shlImm d a n) := of_word _ rfl
theorem shrImm (d : BitVec 7) (a : BitVec 7) (n : BitVec 5) : Statement (.shrImm d a n) := of_word _ rfl
theorem sarImm (d : BitVec 7) (a : BitVec 7) (n : BitVec 5) : Statement (.sarImm d a n) := of_word _ rfl
theorem rotlImm (d : BitVec 7) (a : BitVec 7) (n : BitVec 5) : Statement (.rotlImm d a n) := of_word _ rfl
theorem movi (d : BitVec 7) (i : BitVec 11) : Statement (.movi d i) := of_word _ rfl
theorem seta (k : BitVec 2) (a : BitVec 7) : Statement (.seta k a) := of_word _ rfl
theorem aadd (k : BitVec 2) (i : BitVec 11) : Statement (.aadd k i) := of_word _ rfl
theorem mov (d : BitVec 7) (a : BitVec 7) (q : Bool) (g : BitVec 3) : Statement (.mov d a q g) := of_word _ rfl
theorem not (d : BitVec 7) (a : BitVec 7) (q : Bool) (g : BitVec 3) : Statement (.not d a q g) := of_word _ rfl
theorem iabs (d : BitVec 7) (a : BitVec 7) (q : Bool) (g : BitVec 3) : Statement (.iabs d a q g) := of_word _ rfl
theorem popc (d : BitVec 7) (a : BitVec 7) (q : Bool) (g : BitVec 3) : Statement (.popc d a q g) := of_word _ rfl
theorem clz (d : BitVec 7) (a : BitVec 7) (q : Bool) (g : BitVec 3) : Statement (.clz d a q g) := of_word _ rfl
theorem brev (d : BitVec 7) (a : BitVec 7) (q : Bool) (g : BitVec 3) : Statement (.brev d a q g) := of_word _ rfl
theorem fdiv (d : BitVec 7) (a : BitVec 7) (l : BitVec 4) (q : Bool) (g : BitVec 3) : Statement (.fdiv d a l q g) := of_word _ rfl
theorem idivS (d : BitVec 7) (a : BitVec 7) (l : BitVec 4) (q : Bool) (g : BitVec 3) : Statement (.idivS d a l q g) := of_word _ rfl
theorem idivU (d : BitVec 7) (a : BitVec 7) (l : BitVec 4) (q : Bool) (g : BitVec 3) : Statement (.idivU d a l q g) := of_word _ rfl
theorem iremS (d : BitVec 7) (a : BitVec 7) (l : BitVec 4) (q : Bool) (g : BitVec 3) : Statement (.iremS d a l q g) := of_word _ rfl
theorem iremU (d : BitVec 7) (a : BitVec 7) (l : BitVec 4) (q : Bool) (g : BitVec 3) : Statement (.iremU d a l q g) := of_word _ rfl
theorem iminS (d : BitVec 7) (a : BitVec 7) (q : Bool) (g : BitVec 3) : Statement (.iminS d a q g) := of_word _ rfl
theorem iminU (d : BitVec 7) (a : BitVec 7) (q : Bool) (g : BitVec 3) : Statement (.iminU d a q g) := of_word _ rfl
theorem imaxS (d : BitVec 7) (a : BitVec 7) (q : Bool) (g : BitVec 3) : Statement (.imaxS d a q g) := of_word _ rfl
theorem imaxU (d : BitVec 7) (a : BitVec 7) (q : Bool) (g : BitVec 3) : Statement (.imaxU d a q g) := of_word _ rfl
theorem fadd (d : BitVec 7) (a : BitVec 7) (b : BitVec 7) (q : Bool) (g : BitVec 3) : Statement (.fadd d a b q g) := of_word _ rfl
theorem fsub (d : BitVec 7) (a : BitVec 7) (b : BitVec 7) (q : Bool) (g : BitVec 3) : Statement (.fsub d a b q g) := of_word _ rfl
theorem fmul (d : BitVec 7) (a : BitVec 7) (b : BitVec 7) (q : Bool) (g : BitVec 3) : Statement (.fmul d a b q g) := of_word _ rfl
theorem ffma (d : BitVec 7) (a : BitVec 7) (b : BitVec 7) (q : Bool) (g : BitVec 3) : Statement (.ffma d a b q g) := of_word _ rfl
theorem ffms (d : BitVec 7) (a : BitVec 7) (b : BitVec 7) (q : Bool) (g : BitVec 3) : Statement (.ffms d a b q g) := of_word _ rfl
theorem fcmp (c : FCmp) (p : BitVec 3) (a : BitVec 7) (b : BitVec 7) (q : Bool) (g : BitVec 3) : Statement (.fcmp c p a b q g) := of_word _ rfl
theorem faddImm (d : BitVec 7) (a : BitVec 7) (i : BitVec 11) : Statement (.faddImm d a i) := of_word _ rfl
theorem fmulImm (d : BitVec 7) (a : BitVec 7) (i : BitVec 11) : Statement (.fmulImm d a i) := of_word _ rfl
theorem ffmaImm (d : BitVec 7) (a : BitVec 7) (i : BitVec 11) : Statement (.ffmaImm d a i) := of_word _ rfl
theorem fabs (d : BitVec 7) (a : BitVec 7) (q : Bool) (g : BitVec 3) : Statement (.fabs d a q g) := of_word _ rfl
theorem fneg (d : BitVec 7) (a : BitVec 7) (q : Bool) (g : BitVec 3) : Statement (.fneg d a q g) := of_word _ rfl
theorem fclass (d : BitVec 7) (a : BitVec 7) (q : Bool) (g : BitVec 3) : Statement (.fclass d a q g) := of_word _ rfl
theorem fmin (d : BitVec 7) (a : BitVec 7) (q : Bool) (g : BitVec 3) : Statement (.fmin d a q g) := of_word _ rfl
theorem fmax (d : BitVec 7) (a : BitVec 7) (q : Bool) (g : BitVec 3) : Statement (.fmax d a q g) := of_word _ rfl
theorem fsqrt (d : BitVec 7) (a : BitVec 7) (l : BitVec 4) (q : Bool) (g : BitVec 3) : Statement (.fsqrt d a l q g) := of_word _ rfl
theorem frcp (d : BitVec 7) (a : BitVec 7) (l : BitVec 4) (q : Bool) (g : BitVec 3) : Statement (.frcp d a l q g) := of_word _ rfl
theorem frsq (d : BitVec 7) (a : BitVec 7) (l : BitVec 4) (q : Bool) (g : BitVec 3) : Statement (.frsq d a l q g) := of_word _ rfl
theorem fexp2 (d : BitVec 7) (a : BitVec 7) (l : BitVec 4) (q : Bool) (g : BitVec 3) : Statement (.fexp2 d a l q g) := of_word _ rfl
theorem flog2 (d : BitVec 7) (a : BitVec 7) (l : BitVec 4) (q : Bool) (g : BitVec 3) : Statement (.flog2 d a l q g) := of_word _ rfl
theorem fsin (d : BitVec 7) (a : BitVec 7) (l : BitVec 4) (q : Bool) (g : BitVec 3) : Statement (.fsin d a l q g) := of_word _ rfl
theorem fcos (d : BitVec 7) (a : BitVec 7) (l : BitVec 4) (q : Bool) (g : BitVec 3) : Statement (.fcos d a l q g) := of_word _ rfl
theorem ftanh (d : BitVec 7) (a : BitVec 7) (l : BitVec 4) (q : Bool) (g : BitVec 3) : Statement (.ftanh d a l q g) := of_word _ rfl
theorem pkfmaH (d : BitVec 7) (a : BitVec 7) (b : BitVec 7) (q : Bool) (g : BitVec 3) : Statement (.pkfmaH d a b q g) := of_word _ rfl
theorem pkfmaB (d : BitVec 7) (a : BitVec 7) (b : BitVec 7) (q : Bool) (g : BitVec 3) : Statement (.pkfmaB d a b q g) := of_word _ rfl
theorem pkaddH (d : BitVec 7) (a : BitVec 7) (q : Bool) (g : BitVec 3) : Statement (.pkaddH d a q g) := of_word _ rfl
theorem pkmulH (d : BitVec 7) (a : BitVec 7) (q : Bool) (g : BitVec 3) : Statement (.pkmulH d a q g) := of_word _ rfl
theorem pkminH (d : BitVec 7) (a : BitVec 7) (q : Bool) (g : BitVec 3) : Statement (.pkminH d a q g) := of_word _ rfl
theorem pkmaxH (d : BitVec 7) (a : BitVec 7) (q : Bool) (g : BitVec 3) : Statement (.pkmaxH d a q g) := of_word _ rfl
theorem pksubH (d : BitVec 7) (a : BitVec 7) (q : Bool) (g : BitVec 3) : Statement (.pksubH d a q g) := of_word _ rfl
theorem pkaddB (d : BitVec 7) (a : BitVec 7) (q : Bool) (g : BitVec 3) : Statement (.pkaddB d a q g) := of_word _ rfl
theorem pkmulB (d : BitVec 7) (a : BitVec 7) (q : Bool) (g : BitVec 3) : Statement (.pkmulB d a q g) := of_word _ rfl
theorem pkminB (d : BitVec 7) (a : BitVec 7) (q : Bool) (g : BitVec 3) : Statement (.pkminB d a q g) := of_word _ rfl
theorem pkmaxB (d : BitVec 7) (a : BitVec 7) (q : Bool) (g : BitVec 3) : Statement (.pkmaxB d a q g) := of_word _ rfl
theorem pksubB (d : BitVec 7) (a : BitVec 7) (q : Bool) (g : BitVec 3) : Statement (.pksubB d a q g) := of_word _ rfl
theorem cvtS32F32 (d : BitVec 7) (a : BitVec 7) (q : Bool) (g : BitVec 3) : Statement (.cvtS32F32 d a q g) := of_word _ rfl
theorem cvtU32F32 (d : BitVec 7) (a : BitVec 7) (q : Bool) (g : BitVec 3) : Statement (.cvtU32F32 d a q g) := of_word _ rfl
theorem cvtF32S32 (d : BitVec 7) (a : BitVec 7) (q : Bool) (g : BitVec 3) : Statement (.cvtF32S32 d a q g) := of_word _ rfl
theorem cvtF32U32 (d : BitVec 7) (a : BitVec 7) (q : Bool) (g : BitVec 3) : Statement (.cvtF32U32 d a q g) := of_word _ rfl
theorem cvtF16F32 (d : BitVec 7) (a : BitVec 7) (q : Bool) (g : BitVec 3) : Statement (.cvtF16F32 d a q g) := of_word _ rfl
theorem cvtF32F16 (d : BitVec 7) (a : BitVec 7) (q : Bool) (g : BitVec 3) : Statement (.cvtF32F16 d a q g) := of_word _ rfl
theorem cvtBf16F32 (d : BitVec 7) (a : BitVec 7) (q : Bool) (g : BitVec 3) : Statement (.cvtBf16F32 d a q g) := of_word _ rfl
theorem cvtF32Bf16 (d : BitVec 7) (a : BitVec 7) (q : Bool) (g : BitVec 3) : Statement (.cvtF32Bf16 d a q g) := of_word _ rfl
theorem cvtF32F64 (d : BitVec 7) (a : BitVec 7) (q : Bool) (g : BitVec 3) : Statement (.cvtF32F64 d a q g) := of_word _ rfl
theorem cvtF64F32 (d : BitVec 7) (a : BitVec 7) (q : Bool) (g : BitVec 3) : Statement (.cvtF64F32 d a q g) := of_word _ rfl
theorem unpk (d : BitVec 7) (a : BitVec 7) (q : Bool) (g : BitVec 3) : Statement (.unpk d a q g) := of_word _ rfl
theorem cvtn (d : BitVec 7) (a : BitVec 7) (f : BitVec 3) (c : BitVec 4) (q : Bool) (g : BitVec 3) : Statement (.cvtn d a f c q g) := of_word _ rfl
theorem cvtw (d : BitVec 7) (a : BitVec 7) (f : BitVec 3) (c : BitVec 4) (q : Bool) (g : BitVec 3) : Statement (.cvtw d a f c q g) := of_word _ rfl
theorem ql8 (d : BitVec 7) (r : BitVec 4) (n : BitVec 3) (f : BitVec 3) (c : BitVec 4) (q : Bool) (g : BitVec 3) : Statement (.ql8 d r n f c q g) := of_word _ rfl
theorem dl8 (d : BitVec 7) (a : BitVec 7) (f : BitVec 3) (c : BitVec 4) (q : Bool) (g : BitVec 3) : Statement (.dl8 d a f c q g) := of_word _ rfl
theorem xl8 (d : BitVec 7) (a : BitVec 7) (f : BitVec 3) (e : BitVec 3) (q : Bool) (g : BitVec 3) : Statement (.xl8 d a f e q g) := of_word _ rfl
theorem lxi (d : BitVec 7) (a : BitVec 7) (b : BitVec 7) (q : Bool) (g : BitVec 3) : Statement (.lxi d a b q g) := of_word _ rfl
theorem lxm (d : BitVec 7) (a : BitVec 7) (b : BitVec 7) (q : Bool) (g : BitVec 3) : Statement (.lxm d a b q g) := of_word _ rfl
theorem lxr (d : BitVec 7) (a : BitVec 7) (b : BitVec 7) (q : Bool) (g : BitVec 3) : Statement (.lxr d a b q g) := of_word _ rfl
theorem lxs (d : BitVec 7) (a : BitVec 7) (b : BitVec 7) (q : Bool) (g : BitVec 3) : Statement (.lxs d a b q g) := of_word _ rfl
theorem lmask (d : BitVec 7) (a : BitVec 7) (q : Bool) (g : BitVec 3) : Statement (.lmask d a q g) := of_word _ rfl
theorem lpeer (d : BitVec 7) (a : BitVec 7) (q : Bool) (g : BitVec 3) : Statement (.lpeer d a q g) := of_word _ rfl
theorem compact (d : BitVec 7) (a : BitVec 7) (q : Bool) (g : BitVec 3) : Statement (.compact d a q g) := of_word _ rfl
theorem lfirst (d : BitVec 7) (a : BitVec 7) (q : Bool) (g : BitVec 3) : Statement (.lfirst d a q g) := of_word _ rfl
theorem lfoldIadd (d : BitVec 7) (a : BitVec 7) (q : Bool) (g : BitVec 3) : Statement (.lfoldIadd d a q g) := of_word _ rfl
theorem lfoldIminS (d : BitVec 7) (a : BitVec 7) (q : Bool) (g : BitVec 3) : Statement (.lfoldIminS d a q g) := of_word _ rfl
theorem lfoldImaxS (d : BitVec 7) (a : BitVec 7) (q : Bool) (g : BitVec 3) : Statement (.lfoldImaxS d a q g) := of_word _ rfl
theorem lfoldAnd (d : BitVec 7) (a : BitVec 7) (q : Bool) (g : BitVec 3) : Statement (.lfoldAnd d a q g) := of_word _ rfl
theorem lfoldOr (d : BitVec 7) (a : BitVec 7) (q : Bool) (g : BitVec 3) : Statement (.lfoldOr d a q g) := of_word _ rfl
theorem lfoldXor (d : BitVec 7) (a : BitVec 7) (q : Bool) (g : BitVec 3) : Statement (.lfoldXor d a q g) := of_word _ rfl
theorem lfoldFadd (d : BitVec 7) (a : BitVec 7) (q : Bool) (g : BitVec 3) : Statement (.lfoldFadd d a q g) := of_word _ rfl
theorem lfoldFmax (d : BitVec 7) (a : BitVec 7) (q : Bool) (g : BitVec 3) : Statement (.lfoldFmax d a q g) := of_word _ rfl
theorem pand (p : BitVec 3) (a : BitVec 3) (b : BitVec 3) (g : BitVec 3) : Statement (.pand p a b g) := of_word _ rfl
theorem por (p : BitVec 3) (a : BitVec 3) (b : BitVec 3) (g : BitVec 3) : Statement (.por p a b g) := of_word _ rfl
theorem pxor (p : BitVec 3) (a : BitVec 3) (b : BitVec 3) (g : BitVec 3) : Statement (.pxor p a b g) := of_word _ rfl
theorem pnot (p : BitVec 3) (a : BitVec 3) (g : BitVec 3) : Statement (.pnot p a g) := of_word _ rfl
theorem pmov (p : BitVec 3) (a : BitVec 3) (g : BitVec 3) : Statement (.pmov p a g) := of_word _ rfl
theorem lany (p : BitVec 3) (a : BitVec 3) (g : BitVec 3) : Statement (.lany p a g) := of_word _ rfl
theorem lall (p : BitVec 3) (a : BitVec 3) (g : BitVec 3) : Statement (.lall p a g) := of_word _ rfl
theorem lagree (p : BitVec 3) (a : BitVec 3) (g : BitVec 3) : Statement (.lagree p a g) := of_word _ rfl
theorem lodd (p : BitVec 3) (a : BitVec 3) (g : BitVec 3) : Statement (.lodd p a g) := of_word _ rfl
theorem rdfx (d : BitVec 7) (q : Bool) (g : BitVec 3) : Statement (.rdfx d q g) := of_word _ rfl
theorem wrfx (a : BitVec 7) (g : BitVec 3) : Statement (.wrfx a g) := of_word _ rfl
theorem clrfx (a : BitVec 7) (g : BitVec 3) : Statement (.clrfx a g) := of_word _ rfl
theorem sadd (d : BitVec 6) (a : BitVec 6) (b : BitVec 6) : Statement (.sadd d a b) := of_word _ rfl
theorem ssub (d : BitVec 6) (a : BitVec 6) (b : BitVec 6) : Statement (.ssub d a b) := of_word _ rfl
theorem smul (d : BitVec 6) (a : BitVec 6) (b : BitVec 6) : Statement (.smul d a b) := of_word _ rfl
theorem sand (d : BitVec 6) (a : BitVec 6) (b : BitVec 6) : Statement (.sand d a b) := of_word _ rfl
theorem sor (d : BitVec 6) (a : BitVec 6) (b : BitVec 6) : Statement (.sor d a b) := of_word _ rfl
theorem sxor (d : BitVec 6) (a : BitVec 6) (b : BitVec 6) : Statement (.sxor d a b) := of_word _ rfl
theorem sshl (d : BitVec 6) (a : BitVec 6) (b : BitVec 6) : Statement (.sshl d a b) := of_word _ rfl
theorem sshr (d : BitVec 6) (a : BitVec 6) (b : BitVec 6) : Statement (.sshr d a b) := of_word _ rfl
theorem ssar (d : BitVec 6) (a : BitVec 6) (b : BitVec 6) : Statement (.ssar d a b) := of_word _ rfl
theorem smov (d : BitVec 6) (a : BitVec 6) : Statement (.smov d a) := of_word _ rfl
theorem scmp (d : BitVec 6) (a : BitVec 6) (b : BitVec 6) (c : ICmp) : Statement (.scmp d a b c) := of_word _ rfl
theorem ssel (d : BitVec 6) (a : BitVec 6) (b : BitVec 6) : Statement (.ssel d a b) := of_word _ rfl
theorem saddImm (d : BitVec 6) (a : BitVec 6) (i : BitVec 13) : Statement (.saddImm d a i) := of_word _ rfl
theorem sandImm (d : BitVec 6) (a : BitVec 6) (i : BitVec 13) : Statement (.sandImm d a i) := of_word _ rfl
theorem sorImm (d : BitVec 6) (a : BitVec 6) (i : BitVec 13) : Statement (.sorImm d a i) := of_word _ rfl
theorem sxorImm (d : BitVec 6) (a : BitVec 6) (i : BitVec 13) : Statement (.sxorImm d a i) := of_word _ rfl
theorem sshlImm (d : BitVec 6) (a : BitVec 6) (n : BitVec 6) : Statement (.sshlImm d a n) := of_word _ rfl
theorem sshrImm (d : BitVec 6) (a : BitVec 6) (n : BitVec 6) : Statement (.sshrImm d a n) := of_word _ rfl
theorem ssarImm (d : BitVec 6) (a : BitVec 6) (n : BitVec 6) : Statement (.ssarImm d a n) := of_word _ rfl
theorem smovi (d : BitVec 6) (i : BitVec 13) : Statement (.smovi d i) := of_word _ rfl
theorem sldc (d : BitVec 6) (i : BitVec 13) : Statement (.sldc d i) := of_word _ rfl
theorem sld (d : BitVec 6) (a : BitVec 6) (i : BitVec 13) : Statement (.sld d a i) := of_word _ rfl
theorem sst (d : BitVec 6) (a : BitVec 6) (i : BitVec 13) : Statement (.sst d a i) := of_word _ rfl
theorem ldB (d : BitVec 7) (o : BitVec 7) (b : BitVec 3) (l : BitVec 4) (s : Scope) (r : Bool) : Statement (.ldB d o b l s r) := of_word _ rfl
theorem ldH (d : BitVec 7) (o : BitVec 7) (b : BitVec 3) (l : BitVec 4) (s : Scope) (r : Bool) : Statement (.ldH d o b l s r) := of_word _ rfl
theorem ldW (d : BitVec 7) (o : BitVec 7) (b : BitVec 3) (l : BitVec 4) (s : Scope) (r : Bool) : Statement (.ldW d o b l s r) := of_word _ rfl
theorem ldD (d : BitVec 7) (o : BitVec 7) (b : BitVec 3) (l : BitVec 4) (s : Scope) (r : Bool) : Statement (.ldD d o b l s r) := of_word _ rfl
theorem ldQ (d : BitVec 7) (o : BitVec 7) (b : BitVec 3) (l : BitVec 4) (s : Scope) (r : Bool) : Statement (.ldQ d o b l s r) := of_word _ rfl
theorem stB (d : BitVec 7) (o : BitVec 7) (b : BitVec 3) (l : BitVec 4) (s : Scope) (r : Bool) : Statement (.stB d o b l s r) := of_word _ rfl
theorem stH (d : BitVec 7) (o : BitVec 7) (b : BitVec 3) (l : BitVec 4) (s : Scope) (r : Bool) : Statement (.stH d o b l s r) := of_word _ rfl
theorem stW (d : BitVec 7) (o : BitVec 7) (b : BitVec 3) (l : BitVec 4) (s : Scope) (r : Bool) : Statement (.stW d o b l s r) := of_word _ rfl
theorem stD (d : BitVec 7) (o : BitVec 7) (b : BitVec 3) (l : BitVec 4) (s : Scope) (r : Bool) : Statement (.stD d o b l s r) := of_word _ rfl
theorem stQ (d : BitVec 7) (o : BitVec 7) (b : BitVec 3) (l : BitVec 4) (s : Scope) (r : Bool) : Statement (.stQ d o b l s r) := of_word _ rfl
theorem ldl (d : BitVec 7) (o : BitVec 7) (b : BitVec 3) (l : BitVec 4) (z : Size) : Statement (.ldl d o b l z) := of_word _ rfl
theorem ldt (d : BitVec 7) (o : BitVec 7) (b : BitVec 3) (l : BitVec 4) : Statement (.ldt d o b l) := of_word _ rfl
theorem stl (d : BitVec 7) (o : BitVec 7) (b : BitVec 3) (l : BitVec 4) (z : Size) : Statement (.stl d o b l z) := of_word _ rfl
theorem atom (d : BitVec 7) (c : AtomOp) (v : BitVec 3) (b : BitVec 3) (l : BitVec 4) (s : Scope) (r : Bool) : Statement (.atom d c v b l s r) := of_word _ rfl
theorem atomFadd (d : BitVec 7) (v : BitVec 3) (b : BitVec 3) (l : BitVec 4) (s : Scope) (r : Bool) : Statement (.atomFadd d v b l s r) := of_word _ rfl
theorem atomD (d : BitVec 7) (c : AtomOp) (v : BitVec 3) (b : BitVec 3) (l : BitVec 4) (s : Scope) (r : Bool) : Statement (.atomD d c v b l s r) := of_word _ rfl
theorem fxadd (d : BitVec 7) (v : BitVec 3) (b : BitVec 3) (l : BitVec 4) (s : Scope) (r : Bool) : Statement (.fxadd d v b l s r) := of_word _ rfl
theorem atoml (d : BitVec 7) (o : BitVec 7) (b : BitVec 3) (l : BitVec 4) (c : LAtomOp) : Statement (.atoml d o b l c) := of_word _ rfl
theorem pref (o : BitVec 7) (b : BitVec 3) (l : BitVec 4) : Statement (.pref o b l) := of_word _ rfl
theorem zfill (o : BitVec 7) (b : BitVec 3) (l : BitVec 4) (s : Scope) (r : Bool) : Statement (.zfill o b l s r) := of_word _ rfl
theorem mma (c : BitVec 7) (a : BitVec 7) (s : BitVec 3) (f : BitVec 3) (l : BitVec 4) (r : Bool) : Statement (.mma c a s f l r) := of_word _ rfl
theorem mmah (t : BitVec 5) (a : BitVec 7) (s : BitVec 3) (f : BitVec 3) (l : BitVec 4) (r : Bool) : Statement (.mmah t a s f l r) := of_word _ rfl
theorem mmas (c : BitVec 7) (a : BitVec 7) (s : BitVec 3) (f : BitVec 3) (l : BitVec 4) (r : Bool) : Statement (.mmas c a s f l r) := of_word _ rfl
theorem hldReg (t : BitVec 5) (a : BitVec 7) (l : BitVec 4) : Statement (.hldReg t a l) := of_word _ rfl
theorem hstReg (t : BitVec 5) (a : BitVec 7) (l : BitVec 4) : Statement (.hstReg t a l) := of_word _ rfl
theorem hldScratch (t : BitVec 5) (s : BitVec 3) (l : BitVec 4) : Statement (.hldScratch t s l) := of_word _ rfl
theorem hstScratch (t : BitVec 5) (s : BitVec 3) (l : BitVec 4) : Statement (.hstScratch t s l) := of_word _ rfl
theorem hzero (t : BitVec 5) (l : BitVec 4) : Statement (.hzero t l) := of_word _ rfl
theorem hdrn (a : BitVec 6) (b : BitVec 6) (c : BitVec 6) (l : BitVec 4) : Statement (.hdrn a b c l) := of_word _ rfl
theorem hdrnMom (a : BitVec 6) (b : BitVec 6) (c : BitVec 6) (l : BitVec 4) : Statement (.hdrnMom a b c l) := of_word _ rfl
theorem hdrnSq (a : BitVec 6) (b : BitVec 6) (c : BitVec 6) (l : BitVec 4) : Statement (.hdrnSq a b c l) := of_word _ rfl
theorem pilotGt (a : BitVec 6) (b : BitVec 6) (c : BitVec 6) (l : BitVec 4) : Statement (.pilotGt a b c l) := of_word _ rfl
theorem pilotTop (a : BitVec 6) (b : BitVec 6) (c : BitVec 6) (l : BitVec 4) : Statement (.pilotTop a b c l) := of_word _ rfl
theorem mchk (a : BitVec 6) (b : BitVec 6) (c : BitVec 6) (l : BitVec 4) : Statement (.mchk a b c l) := of_word _ rfl
theorem vset (a : BitVec 6) (b : BitVec 6) (c : BitVec 6) (l : BitVec 4) : Statement (.vset a b c l) := of_word _ rfl
theorem vbase (a : BitVec 6) (b : BitVec 6) (c : BitVec 6) (l : BitVec 4) : Statement (.vbase a b c l) := of_word _ rfl
theorem vinv (a : BitVec 6) (l : BitVec 4) : Statement (.vinv a l) := of_word _ rfl
theorem vqry (a : BitVec 6) (b : BitVec 6) (c : BitVec 6) (l : BitVec 4) : Statement (.vqry a b c l) := of_word _ rfl
theorem cpy (d : BitVec 7) (o : BitVec 7) (b : BitVec 3) (l : BitVec 4) (z : CopySize) : Statement (.cpy d o b l z) := of_word _ rfl
theorem cpym (a : BitVec 6) (b : BitVec 6) (c : BitVec 6) (l : BitVec 4) : Statement (.cpym a b c l) := of_word _ rfl
theorem cpyo (a : BitVec 6) (b : BitVec 6) (l : BitVec 4) : Statement (.cpyo a b l) := of_word _ rfl
theorem cpyrw (a : BitVec 6) (b : BitVec 6) (c : BitVec 6) (l : BitVec 4) : Statement (.cpyrw a b c l) := of_word _ rfl
theorem csig (a : BitVec 6) (b : BitVec 6) (l : BitVec 4) : Statement (.csig a b l) := of_word _ rfl
theorem spawn (d : BitVec 7) (a : BitVec 7) (b : BitVec 7) (g : BitVec 3) : Statement (.spawn d a b g) := of_word _ rfl
theorem park (d : BitVec 7) (a : BitVec 7) (b : BitVec 7) (g : BitVec 3) : Statement (.park d a b g) := of_word _ rfl
theorem bflush (a : BitVec 6) (l : BitVec 4) : Statement (.bflush a l) := of_word _ rfl
theorem cvoy (a : BitVec 6) (b : BitVec 6) (c : BitVec 6) (l : BitVec 4) : Statement (.cvoy a b c l) := of_word _ rfl
theorem cvqry (a : BitVec 6) (c : BitVec 6) (l : BitVec 4) : Statement (.cvqry a c l) := of_word _ rfl
theorem bra (p : BitVec 3) (n : Bool) (o : BitVec 21) : Statement (.bra p n o) := of_word _ rfl
theorem call (p : BitVec 3) (n : Bool) (o : BitVec 21) : Statement (.call p n o) := of_word _ rfl
theorem jmp (s : BitVec 6) : Statement (.jmp s) := of_word _ rfl
theorem callr (s : BitVec 6) : Statement (.callr s) := of_word _ rfl
theorem nop : Statement .nop := of_word _ rfl
theorem ret : Statement .ret := of_word _ rfl
theorem exit : Statement .exit := of_word _ rfl
theorem yield : Statement .yield := of_word _ rfl
theorem bkpt (c : BitVec 12) : Statement (.bkpt c) := of_word _ rfl
theorem trap (c : BitVec 12) : Statement (.trap c) := of_word _ rfl
theorem meld (a : BitVec 3) (b : BitVec 3) : Statement (.meld a b) := of_word _ rfl
theorem mset (p : BitVec 2) (s : BitVec 6) : Statement (.mset p s) := of_word _ rfl
theorem mend : Statement .mend := of_word _ rfl
theorem bar (n : BitVec 6) (s : BitVec 6) : Statement (.bar n s) := of_word _ rfl
theorem bara (n : BitVec 6) (s : BitVec 6) : Statement (.bara n s) := of_word _ rfl
theorem barw (n : BitVec 6) (s : BitVec 6) : Statement (.barw n s) := of_word _ rfl
theorem gbar : Statement .gbar := of_word _ rfl
theorem fence (o : FenceOrd) (c : Scope) : Statement (.fence o c) := of_word _ rfl
theorem cinv (c : Scope) : Statement (.cinv c) := of_word _ rfl
theorem waitc (s : BitVec 6) : Statement (.waitc s) := of_word _ rfl
theorem shw (d : BitVec 7) (a : BitVec 7) (g : BitVec 3) : Statement (.shw d a g) := of_word _ rfl
theorem shrWindow (d : BitVec 7) (a : BitVec 7) (g : BitVec 3) : Statement (.shrWindow d a g) := of_word _ rfl
theorem shp (d : BitVec 7) (a : BitVec 7) (g : BitVec 3) : Statement (.shp d a g) := of_word _ rfl
theorem rdsr (s : BitVec 6) (r : BitVec 12) : Statement (.rdsr s r) := of_word _ rfl
theorem wrsr (s : BitVec 6) (r : BitVec 12) : Statement (.wrsr s r) := of_word _ rfl
theorem rdclk (s : BitVec 6) : Statement (.rdclk s) := of_word _ rfl
theorem errq (s : BitVec 6) : Statement (.errq s) := of_word _ rfl
theorem imml (p : BitVec 25) : Statement (.imml p) := of_word _ rfl
theorem immh (p : BitVec 25) : Statement (.immh p) := of_word _ rfl
theorem modArith (r : BitVec 2) (s : BitVec 2) (n : BitVec 3) (a : BitVec 3) : Statement (.modArith r s n a) := of_word _ rfl
theorem modOffset (o : BitVec 23) : Statement (.modOffset o) := of_word _ rfl
theorem modCounter (s : Scope) (i : BitVec 12) : Statement (.modCounter s i) := of_word _ rfl
theorem modLane (p : BitVec 3) (n : Bool) (f : BitVec 6) : Statement (.modLane p n f) := of_word _ rfl
theorem sched (o : Bool) (d : BitVec 4) : Statement (.sched o d) := of_word _ rfl
theorem loadDataReturn (k : Nat) : Statement (.loadDataReturn k) := of_none _ rfl
theorem atomicReturn (k : Nat) : Statement (.atomicReturn k) := of_none _ rfl
theorem parkedLaneResume (cu part slot lane : Nat) : Statement (.parkedLaneResume cu part slot lane) := of_none _ rfl
theorem mmaComplete (k : Nat) : Statement (.mmaComplete k) := of_none _ rfl
theorem lineLands (k team line : Nat) : Statement (.lineLands k team line) := of_none _ rfl
theorem copyCommandComplete (k : Nat) : Statement (.copyCommandComplete k) := of_none _ rfl
theorem hdrnComplete (k : Nat) : Statement (.hdrnComplete k) := of_none _ rfl
theorem pilotComplete (k : Nat) : Statement (.pilotComplete k) := of_none _ rfl
theorem mchkComplete (k : Nat) : Statement (.mchkComplete k) := of_none _ rfl
theorem collectiveComplete (k : Nat) : Statement (.collectiveComplete k) := of_none _ rfl
theorem convoyFlitReceive (flit : Flit) : Statement (.convoyFlitReceive flit) := of_none _ rfl
theorem berthTimerExpiry (cu berth : Nat) : Statement (.berthTimerExpiry cu berth) := of_none _ rfl
theorem berthIdleLaunch (cu berth : Nat) : Statement (.berthIdleLaunch cu berth) := of_none _ rfl
theorem berthGroupLaunch (cu berth : Nat) : Statement (.berthGroupLaunch cu berth) := of_none _ rfl
theorem ringDrain (cu launch : Nat) : Statement (.ringDrain cu launch) := of_none _ rfl
theorem groupAged (cu part slot : Nat) : Statement (.groupAged cu part slot) := of_none _ rfl
theorem groupRelease (cu part slot : Nat) : Statement (.groupRelease cu part slot) := of_none _ rfl
theorem teamRelease (team : Nat) : Statement (.teamRelease team) := of_none _ rfl
theorem compaction (move : Move) : Statement (.compaction move) := of_none _ rfl
theorem faultReport (ctx fid : Nat) : Statement (.faultReport ctx fid) := of_none _ rfl
theorem teamPlace (launch : Nat) : Statement (.teamPlace launch) := of_none _ rfl
theorem reservationClaim (launch : Nat) : Statement (.reservationClaim launch) := of_none _ rfl
theorem preemptSave (launch : Nat) : Statement (.preemptSave launch) := of_none _ rfl
theorem teamRestore (team : Nat) : Statement (.teamRestore team) := of_none _ rfl
theorem launchComplete (launch : Nat) : Statement (.launchComplete launch) := of_none _ rfl
theorem launchReplay (launch : Nat) : Statement (.launchReplay launch) := of_none _ rfl
theorem queueSubmit (ctx queue : Nat) : Statement (.queueSubmit ctx queue) := of_none _ rfl
theorem launchNode (ctx queue : Nat) : Statement (.launchNode ctx queue) := of_none _ rfl
theorem copyNode (ctx queue : Nat) : Statement (.copyNode ctx queue) := of_none _ rfl
theorem cvoyNode (ctx queue : Nat) : Statement (.cvoyNode ctx queue) := of_none _ rfl
theorem condNode (ctx queue : Nat) : Statement (.condNode ctx queue) := of_none _ rfl
theorem whileNode (ctx queue : Nat) : Statement (.whileNode ctx queue) := of_none _ rfl
theorem signalSubtract (ctx queue : Nat) : Statement (.signalSubtract ctx queue) := of_none _ rfl
theorem signalSet (ctx queue : Nat) : Statement (.signalSet ctx queue) := of_none _ rfl
theorem waitNode (ctx queue : Nat) : Statement (.waitNode ctx queue) := of_none _ rfl
theorem snapshotTake (ctx queue : Nat) : Statement (.snapshotTake ctx queue) := of_none _ rfl
theorem snapshotRestore (ctx queue : Nat) : Statement (.snapshotRestore ctx queue) := of_none _ rfl
theorem snapshotDiscard (ctx queue : Nat) : Statement (.snapshotDiscard ctx queue) := of_none _ rfl
theorem invpt (ctx : Nat) : Statement (.invpt ctx) := of_none _ rfl
theorem fresumeRetry (ctx : Nat) : Statement (.fresumeRetry ctx) := of_none _ rfl
theorem fresumeAbandon (ctx : Nat) : Statement (.fresumeAbandon ctx) := of_none _ rfl
theorem qresume (ctx : Nat) : Statement (.qresume ctx) := of_none _ rfl
theorem qabort (ctx : Nat) : Statement (.qabort ctx) := of_none _ rfl
theorem gresumeRetry (ctx : Nat) : Statement (.gresumeRetry ctx) := of_none _ rfl
theorem gresumeSkip (ctx : Nat) : Statement (.gresumeSkip ctx) := of_none _ rfl
theorem gresumeAbort (ctx : Nat) : Statement (.gresumeAbort ctx) := of_none _ rfl
theorem vinvall (ctx : Nat) : Statement (.vinvall ctx) := of_none _ rfl
theorem contextCreate (ctx : Nat) : Statement (.contextCreate ctx) := of_none _ rfl
theorem contextDestroy (ctx : Nat) : Statement (.contextDestroy ctx) := of_none _ rfl
theorem ctxerrClear (mask : BitVec 64) : Statement (.ctxerrClear mask) := of_none _ rfl
theorem nodeidWrite (value : BitVec 64) : Statement (.nodeidWrite value) := of_none _ rfl
theorem portstatRead (port : Nat) : Statement (.portstatRead port) := of_none _ rfl
theorem go2 (mask : BitVec 4) : Statement (.go2 mask) := of_none _ rfl
theorem registerWrite (offset : Nat) (value : BitVec 64) : Statement (.registerWrite offset value) := of_none _ rfl
theorem telem : Statement .telem := of_none _ rfl
theorem ppr : Statement .ppr := of_none _ rfl
theorem retire : Statement .retire := of_none _ rfl
theorem fwstore : Statement .fwstore := of_none _ rfl
theorem powerGood : Statement .powerGood := of_none _ rfl
theorem powerOff : Statement .powerOff := of_none _ rfl
theorem stage1TrainingDone (u : Stage1Unit) (ok : Bool) : Statement (.stage1TrainingDone u ok) := of_none _ rfl
theorem cuSelfTestDone (cu : Nat) (ok : Bool) : Statement (.cuSelfTestDone cu ok) := of_none _ rfl
theorem portTrainingDone (port : Nat) (ok : Bool) : Statement (.portTrainingDone port ok) := of_none _ rfl
theorem groupWatchdogExpiry (cu part slot : Nat) : Statement (.groupWatchdogExpiry cu part slot) := of_none _ rfl
theorem cuWatchdogExpiry (cu : Nat) : Statement (.cuWatchdogExpiry cu) := of_none _ rfl
theorem harbourmasterWatchdogExpiry (who : HmWait) : Statement (.harbourmasterWatchdogExpiry who) := of_none _ rfl
theorem eccCorrected (site : ErrSite) : Statement (.eccCorrected site) := of_none _ rfl
theorem eccUncorrectableDetected (site : ErrSite) : Statement (.eccUncorrectableDetected site) := of_none _ rfl
theorem flitCheckFail (port : Nat) (victim : Option Nat) : Statement (.flitCheckFail port victim) := of_none _ rfl
theorem refetch (k : Nat) (linkOk : Bool) : Statement (.refetch k linkOk) := of_none _ rfl
theorem errorWindowClose (source unit : Nat) : Statement (.errorWindowClose source unit) := of_none _ rfl
theorem errorRecordWrite (ctx : Option Nat) : Statement (.errorRecordWrite ctx) := of_none _ rfl
theorem powerLimitChange (thermal enter : Bool) : Statement (.powerLimitChange thermal enter) := of_none _ rfl
theorem thermalShutdown : Statement .thermalShutdown := of_none _ rfl
theorem hostMemRead (addr len : Nat) : Statement (.hostMemRead addr len) := of_none _ rfl
theorem hostMemWrite (addr : Nat) (bytes : List (BitVec 8)) : Statement (.hostMemWrite addr bytes) := of_none _ rfl
theorem hostSnoop (addr : Nat) : Statement (.hostSnoop addr) := of_none _ rfl
theorem remoteRequest (r : RemoteReq) : Statement (.remoteRequest r) := of_none _ rfl
theorem packetForward (node hops : Nat) : Statement (.packetForward node hops) := of_none _ rfl
theorem undefinedEncoding (w : BitVec 32) : Statement (.undefinedEncoding w) := of_none _ rfl
theorem instructionFetchFault : Statement .instructionFetchFault := of_none _ rfl
theorem viewCommandComplete (k : Nat) : Statement (.viewCommandComplete k) := of_none _ rfl
theorem lastSourceRead (k : Nat) : Statement (.lastSourceRead k) := of_none _ rfl
theorem malformedNode (ctx queue : Nat) : Statement (.malformedNode ctx queue) := of_none _ rfl
theorem malformedCommand (ctx : Nat) : Statement (.malformedCommand ctx) := of_none _ rfl
theorem malformedMailboxCommand : Statement .malformedMailboxCommand := of_none _ rfl

end Sys2Proof.Laws.WordOrEvent
end

