-- ==== Sys2Proof/Tests/Slice0.lean ====
section
/-!
SUPPORT. The author's own tests: ill-formed words are refused, words written out from the encoding tables decode,
single steps give values worked out by hand from the manual, and every statement with hypotheses has a state and
operands that meet them.
-/
namespace Sys2Proof.Tests
open Sys2Proof Sys2Proof.Machine Sys2Proof.Safety Sys2Proof.Claims

/-! ### Well-formedness: each check refuses an ill-formed word -/

theorem test_ill_destination : (Instr.iadd 96 2 7 false 0).illFormed = some .destCode := by decide
theorem test_ill_alignment : (Instr.ldQ 6 0 0 0 .thread false).illFormed = some .misaligned := by decide
theorem test_ill_carry : (Instr.iadc 1 2 3 false 0).illFormed = some .carryPredicate := by decide
theorem test_ill_payload : (Instr.spawn 88 1 100 0).illFormed = some .layoutRange := by decide
theorem test_ill_barrier : (Instr.bar 16 1).illFormed = some .barrierNumber := by decide
theorem test_ill_register : (Instr.wrsr 1 0x10).illFormed = some .specialRegister := by decide
theorem test_ill_hint : (Instr.modArith 0 3 0 0).illFormed = some .hintPayload := by decide
theorem test_well_formed : (Instr.spawn 80 1 97 0).illFormed = none ∧ (Instr.bar 15 1).illFormed = none ∧
    (Instr.iadd 95 127 7 false 0).illFormed = none ∧ (Instr.wrsr 1 0x22).illFormed = none := by decide

/-! ### Decoding: words written out field by field from R86 and R89 to R96 -/

theorem test_decode_vector_integer :
    decode 0b0000011_0000001_0000010_0000011_1_101#32 = .ok (.iadc 1 2 3 true 5) ∧
    decode 0b0010100_0000001_0000010_0000011_0_111#32 = .ok (.sel 1 2 3 false 7) ∧
    decode 0b0011100_0001000_0000000_10000000001#32 = .ok (.movi 8 0x401) ∧
    decode 0b0011011_0000001_0000010_0000_10_00101#32 = .ok (.sarImm 1 2 5) ∧
    decode 0b0011101_0000_0_11_0001001_00000000000#32 = .ok (.seta 3 9) ∧
    decode 0b0011110_0000001_0000010_0000_101_0_000#32 = .ok (.brev 1 2 false 0) := ⟨rfl, rfl, rfl, rfl, rfl, rfl⟩

theorem test_decode_vector_float :
    decode 0b0011111_0000001_0000010_1111_000_0_000#32 = .ok (.fdiv 1 2 15 false 0) ∧
    decode 0b0100110_0111_010_0000001_0000010_0_000#32 = .ok (.fcmp .ord 2 1 2 false 0) ∧
    decode 0b0101001_0000001_0000010_01111111000#32 = .ok (.ffmaImm 1 2 0x3F8) ∧
    decode 0b0101011_0000001_0000010_0010_111_1_000#32 = .ok (.ftanh 1 2 2 true 0) ∧
    decode 0b0101111_0000001_0000010_0000_100_0_000#32 = .ok (.pksubB 1 2 false 0) ∧
    decode 0b0110100_0000001_0010_011_101_0110_0_000#32 = .ok (.ql8 1 2 3 5 6 false 0) ∧
    decode 0b0110110_0000001_0000010_101_110_0_0_000#32 = .ok (.xl8 1 2 5 6 false 0) := ⟨rfl, rfl, rfl, rfl, rfl, rfl, rfl⟩

theorem test_decode_lanes_and_predicates :
    decode 0b0111001_0000001_0000010_0000011_0_000#32 = .ok (.lxr 1 2 3 false 0) ∧
    decode 0b0111011_0000001_0000010_0000_010_0_000#32 = .ok (.compact 1 2 false 0) ∧
    decode 0b0111101_1000_101_0000_110_0000_000_0_001#32 = .ok (.lodd 5 6 1) ∧
    decode 0b0111110_0000000_0000010_0000_001_0_011#32 = .ok (.wrfx 2 3) := ⟨rfl, rfl, rfl, rfl⟩

theorem test_decode_uniform :
    decode 0b1000000_000001_000010_000011_0100000#32 = .ok (.ssel 1 2 3) ∧
    decode 0b1000101_000001_000010_00000_10_111111#32 = .ok (.ssarImm 1 2 63) ∧
    decode 0b1000111_000001_000000_0000000000111#32 = .ok (.sldc 1 7) ∧
    decode 0b1001001_000001_000010_1000000000000#32 = .ok (.sst 1 2 0x1000) := ⟨rfl, rfl, rfl, rfl⟩

theorem test_decode_memory :
    decode 0b1011001_0000100_0000010_111_0001_111_1#32 = .ok (.stQ 4 2 7 1 .system true) ∧
    decode 0b1011010_0000100_0000010_000_0000_101_0#32 = .ok (.ldt 4 2 0 0) ∧
    decode 0b1011101_0000100_1010_011_001_0000_000_0#32 = .ok (.fxadd 4 3 1 0 .thread false) ∧
    decode 0b1011110_0000100_0000010_001_0000_1010#32 = .ok (.atoml 4 2 1 0 .fadd) ∧
    decode 0b1011111_0000001_0000010_001_0000_101_1#32 = .ok (.zfill 2 1 0 .module true) := ⟨rfl, rfl, rfl, rfl, rfl⟩

theorem test_decode_matrix_and_engines :
    decode 0b1100001_00_10011_0001000_010_110_1000_1#32 = .ok (.mmah 19 8 2 6 8 true) ∧
    decode 0b1100011_00_00101_0000100_000_001_0010_0#32 = .ok (.hstReg 5 4 2) ∧
    decode 0b1100101_000010_000100_000110_0000_001#32 = .ok (.pilotTop 2 4 6 0) ∧
    decode 0b1101001_0000001_0000010_001_0000_100_0#32 = .ok (.cpy 1 2 1 0 .sixteen) ∧
    decode 0b1101010_000001_000010_000000_0000_011#32 = .ok (.csig 1 2 0) ∧
    decode 0b1101100_0010000_0000001_1111111_0_010#32 = .ok (.park 16 1 127 2) := ⟨rfl, rfl, rfl, rfl, rfl, rfl⟩

theorem test_decode_control :
    decode 0b1110001_101_0_000000000000000000001#32 = .ok (.call 5 false 1) ∧
    decode 0b1110010_000101_0000000000000000000#32 = .ok (.jmp 5) ∧
    decode 0b1110100_000000_100000000001_0000100#32 = .ok (.bkpt 0x801) ∧
    decode 0b1110100_000000_000010_000110_0000110#32 = .ok (.meld 2 6) ∧
    decode 0b1110100_000011_000110_000000_0000111#32 = .ok (.mset 3 6) ∧
    decode 0b1110101_001111_000001_000000_0000010#32 = .ok (.barw 15 1) ∧
    decode 0b1110110_0000001_0000010_0000010_0_100#32 = .ok (.shp 1 2 4) ∧
    decode 0b1111000_000101_000000100010_0000001#32 = .ok (.wrsr 5 0x22) := ⟨rfl, rfl, rfl, rfl, rfl, rfl, rfl, rfl⟩

theorem test_decode_hints :
    decode 0b1111101_0000000000000000000000001#32 = .ok (.immh 1) ∧
    decode 0b1111111_00000000000000000000_1_0011#32 = .ok (.sched true 3) := ⟨rfl, rfl⟩

/-! ### Helpers of the witnesses -/

/-- The machine in which an instruction is the next to issue, and the same with its issue current. -/
def placed (i : Instr) : State := State.reset.withFetchWord 32 ((i.encode.getD 0).toNat)
def issued (i : Instr) : State := match (placed i).choose 0 0 with
  | some t => t.1
  | none => placed i

/-- The placed machine with a part of it changed. -/
def sreg (n : Nat) (v : Word64) (s : State) : State := s.updGroup 0 0 0 fun g => { g with sregs := g.sregs.set n v }
def thread0 (f : Thread → Thread) (s : State) : State := s.updGroup 0 0 0 fun g => { g with threads := g.threads.map (Option.map f) }
def vreg (n : Nat) (v : Word) : State → State := thread0 fun t => { t with regs := t.regs.set n v }
def slots (f : FSlot) (s : State) : State := s.updLaunch 0 fun l => { l with slots := List.replicate 8 f }
def header (f : Header → Header) (s : State) : State := s.updLaunch 0 fun l => { l with hdr := f l.hdr }
def team0 (f : Team → Team) (s : State) : State := s.updTeam 0 f
def cu0 (f : Cu → Cu) (s : State) : State := { s with cus := s.cus.map f }
def poke (a : Nat) (bs : List Byte) (s : State) : State := { s with dram := s.dram.write a bs }

/-- The machine in which a memory word is current whose base register holds an address of the mapped GiB. -/
def based (a : Word64) (i : Instr) : State := sreg 1 a (issued i)

/-- `Clear` as a check that evaluates. -/
def clearAt (e : Env) (i : Instr) (more : List Cond) : Bool :=
  (worst (e.conds i (e.shape i) ++ more)).isNone && !e.mismatch && !e.poisoned (e.shape i)

theorem clear_and {s : State} {i : Instr} {more : Env → List Cond} {p : Env → Prop} [∀ e, Decidable (p e)]
    (h : (s.env?.any fun e => clearAt e i (more e) && decide (p e)) = true) : ∃ e, Clear s i e (more e) ∧ p e := by
  rw [Option.any_eq_true] at h
  obtain ⟨e, he, hb⟩ := h
  simp only [clearAt, Bool.and_eq_true, Option.isNone_iff_eq_none, Bool.not_eq_true', decide_eq_true_eq] at hb
  exact ⟨e, ⟨he, hb.1.1.1, hb.1.1.2, hb.1.2⟩, hb.2⟩

theorem clears {is : List Instr} {f : Instr → State} (h : (is.all fun i => (f i).env?.any fun e => clearAt e i [] && decide True) = true) :
    ∀ i ∈ is, ∃ e, Clear (f i) i e [] := fun i m =>
  let ⟨e, c, _⟩ := clear_and (more := fun _ => []) (p := fun _ => True) (List.all_eq_true.mp h i m)
  ⟨e, c⟩

/-- A result that is good and satisfies a check. -/
def okAnd {ε α : Type} (x : Except ε α) (q : α → Bool) : Bool :=
  match x with
  | .error _ => false
  | .ok a => q a

theorem okAnd_true {ε α : Type} {x : Except ε α} {q : α → Bool} (h : okAnd x q = true) : ∃ a, x = .ok a ∧ q a = true := by
  cases x with
  | error _ => cases h
  | ok a => exact ⟨a, rfl, h⟩

theorem clear_map {ε α : Type} {s : State} {i : Instr} {more : Env → List Cond} {x : Env → Except ε α} {p : Env → α → Prop}
    [∀ e a, Decidable (p e a)] (h : (s.env?.any fun e => clearAt e i (more e) && okAnd (x e) fun a => decide (p e a)) = true) :
    ∃ e a, Clear s i e (more e) ∧ x e = .ok a ∧ p e a := by
  rw [Option.any_eq_true] at h
  obtain ⟨e, he, hb⟩ := h
  simp only [clearAt, Bool.and_eq_true, Option.isNone_iff_eq_none, Bool.not_eq_true'] at hb
  obtain ⟨a, ha, hp⟩ := okAnd_true hb.2
  exact ⟨e, a, ⟨he, hb.1.1.1, hb.1.1.2, hb.1.2⟩, ha, of_decide_eq_true hp⟩

set_option maxRecDepth 100000

/-- An operation in flight that the placed group issued, and the placed machine with it. -/
def flight (op : FlightOp) : Flight :=
  { id := 7, ctx := 0, launch := 0, team := 0, cu := 0, part := 0, slot := 0, order := 0, lanes := 1, op := op, fault := none, refetch := none, va := 0, fenced := false }
def flying (op : FlightOp) : State := { placed .nop with flights := [flight op] }

/-- A lane whose guard is false, in a matrix word. -/
def unguarded (s : State) : State := thread0 (fun t => { t with hints := [.modLane 1 false 0], hintPc := 0xFFFC }) s

/-- Data that an engine reads, without a mark. -/
def readsClean (r : EngRead) : Bool :=
  match r with
  | .ok bs => !bs.any (·.2)
  | _ => false

/-- Two stores of one lane held back, to places that share no byte; a thread that has them, with a word current. -/
def heldBack : FlightOp :=
  .lateStore false [⟨0, 0, .mem ⟨.dram, 0x20000⟩, [(1, false), (2, false), (3, false), (4, false)]⟩, ⟨1, 0, .mem ⟨.dram, 0x20004⟩, [(5, false), (6, false), (7, false), (8, false)]⟩]
def holding (i : Instr) : State := { issued i with flights := [flight heldBack] }

/-- A walk that stands at a node, a queue with a ring at 0x160000 that walks, and the bytes of a node. -/
def walk0 (node : Nat) (stack : List Nat) : Walk :=
  { run := 0, node := node, phase := .fresh, next := 0, stack := stack, asyncs := [], waiting := none, released := false }
def queue0 (w : Option Walk) : Queue := { entry := ⟨0x160000, 4, 0, true⟩, nextRun := 1, walk := w, parked := false, owed := [], fault := none }
def nodeBytes (kind isAsync next : Nat) (body : List Byte) : List Byte :=
  leBytes 1 kind ++ leBytes 1 isAsync ++ leBytes 6 0 ++ leBytes 8 next ++ body

/-- The placed machine with a part of context 0 changed; with its queue 0 at a node at 0x40000. -/
def ctx0 (f : Ctx → Ctx) (s : State) : State := s.updCtx 0 f
def queued (q : Queue) (s : State) : State := ctx0 (fun c => { c with queues := [q] }) s
def atNode (stack : List Nat) (bs : List Byte) : State := poke 0x40000 bs (queued (queue0 (some (walk0 0x40000 stack))) (placed .nop))

/-- `NodeAt` as a check that evaluates. -/
def nodeHere (s : State) (kind : Nat) (p : Ctx → Walk → List Byte → Bool) : Bool :=
  match s.standing 0 0 with
  | none => false
  | some (c, _, w) => nodeAddrOk w.node && okAnd (s.hmRead 0 w.node 64) fun r => numAt r 0 1 == kind && nodeOk r && p c w r

theorem node_at {s : State} {kind : Nat} {p : Ctx → Walk → List Byte → Bool} (h : nodeHere s kind p = true) :
    ∃ c w r, NodeAt s 0 0 kind w r ∧ p c w r = true := by
  unfold nodeHere at h
  split at h
  · cases h
  · rename_i c x w e
    simp only [Bool.and_eq_true] at h
    obtain ⟨r, hr, hp⟩ := okAnd_true h.2
    simp only [Bool.and_eq_true, beq_iff_eq] at hp
    exact ⟨c, w, r, ⟨⟨c, x, e⟩, h.1, hr, hp.1.1, hp.1.2⟩, hp.2⟩

/-- A convoy group 0 of this module and node 9 in the table of R413. -/
def convoyed (s : State) : State := poke 0x150000 (leBytes 2 0x8001 ++ leBytes 2 0 ++ leBytes 4 0 ++ leBytes 8 0x151000) (poke 0x151000 (leBytes 2 0 ++ leBytes 2 9) s)

/-- Device memory that can be written, as a check that evaluates. -/
theorem writable {s : State} {a n : Nat} (h : (s.ctxs.all (·.preserves.isEmpty) && s.dram.wf && !s.isRetired ⟨.dram, a⟩ && !s.isRetired ⟨.dram, a + n - 1⟩) = true) :
    Writable s ⟨.dram, a⟩ n := by
  simp only [Bool.and_eq_true, Bool.not_eq_true', List.all_eq_true, List.isEmpty_iff] at h
  refine ⟨fun k h => h.elim nofun nofun, h.1.1.2, h.1.2, h.2, ?_⟩
  intro c hc v hv
  rw [h.1.1.1 c hc] at hv
  cases hv

theorem writable_host {s : State} {a n : Nat} (h : (s.ctxs.all (·.preserves.isEmpty) && s.hostMem.wf && !s.isRetired ⟨.host, a⟩ && !s.isRetired ⟨.host, a + n - 1⟩) = true) :
    Writable s ⟨.host, a⟩ n := by
  simp only [Bool.and_eq_true, Bool.not_eq_true', List.all_eq_true, List.isEmpty_iff] at h
  refine ⟨fun k h => h.elim nofun nofun, h.1.1.2, h.1.2, h.2, ?_⟩
  intro c hc v hv
  rw [h.1.1.1 c hc] at hv
  cases hv

/-- A launch record at 0x50000: one team of one group with 8 registers, 128 KiB of scratchpad and all hold tiles. -/
def record0 : List Byte :=
  leBytes 8 0x10000 ++ leBytes 4 1 ++ leBytes 4 1 ++ leBytes 4 1 ++ leBytes 4 0 ++ leBytes 8 0x0100 ++ leBytes 4 131072 ++ leBytes 1 1 ++ leBytes 1 32
def recorded (s : State) : State :=
  (List.range 8).foldl (fun s n => poke (0x50088 + 48 * n) (leBytes 4 0x3F800000 ++ leBytes 4 0x3F800000) s) (poke 0x50000 record0 s)

/-- A preservation of one page by the list at 0x50000. -/
def kept0 (copied : Bool) : Preserve := ⟨0x50000, none, [⟨0x60000, 1, 0, 0x70000, 0, List.replicate 32 0⟩], [⟨⟨.dram, 0x60000⟩, ⟨.dram, 0x70000⟩, copied⟩]⟩

/-- A descriptor of sixteen 4-byte elements at 0x20000, version 5 (R307 to R309). -/
def image : List Byte :=
  leBytes 8 0x20000 ++ leBytes 4 5 ++ leBytes 4 0x815C0 ++ leBytes 8 0 ++ leBytes 4 16 ++ List.replicate 20 0 ++ leBytes 4 16 ++ List.replicate 20 0 ++
  leBytes 8 1 ++ List.replicate 48 0

/-! ### Witnesses: words that need nothing but an issue without conditions -/

theorem witness_integer : ∀ i ∈ ([
    .iadd 8 10 12 false 0, .isub 8 10 12 false 0, .iadc 8 10 12 false 1, .isbb 8 10 12 false 1, .imul 8 10 12 false 0, .imulhS 8 10 12 false 0,
    .imulhU 8 10 12 false 0, .imad 8 10 12 false 0, .and 8 10 12 false 0, .or 8 10 12 false 0, .xor 8 10 12 false 0, .shl 8 10 12 false 0,
    .shr 8 10 12 false 0, .sar 8 10 12 false 0, .rotl 8 10 12 false 0, .bfeS 8 10 12 false 0, .bfeU 8 10 12 false 0, .bfi 8 10 12 false 0,
    .icmp .ltS 2 10 12 false 0, .sel 8 10 12 false 2, .bysel 8 10 12 false 0, .iaddImm 8 10 1, .imulImm 8 10 1, .andImm 8 10 1, .orImm 8 10 1,
    .xorImm 8 10 1, .shlImm 8 10 1, .shrImm 8 10 1, .sarImm 8 10 1, .rotlImm 8 10 1, .movi 8 1, .seta 1 10, .aadd 1 1, .mov 8 10 false 0,
    .not 8 10 false 0, .iabs 8 10 false 0, .popc 8 10 false 0, .clz 8 10 false 0, .brev 8 10 false 0, .fdiv 8 10 1 false 0, .idivS 8 10 1 false 0,
    .idivU 8 10 1 false 0, .iremS 8 10 1 false 0, .iremU 8 10 1 false 0, .iminS 8 10 false 0, .iminU 8 10 false 0, .imaxS 8 10 false 0,
    .imaxU 8 10 false 0] : List Instr),
    ∃ e, Clear (issued i) i e [] := clears (by decide)

theorem witness_float : ∀ i ∈ ([
    .fadd 8 10 12 false 0, .fsub 8 10 12 false 0, .fmul 8 10 12 false 0, .ffma 8 10 12 false 0, .ffms 8 10 12 false 0, .fcmp .lt 2 10 12 false 0,
    .faddImm 8 10 1, .fmulImm 8 10 1, .ffmaImm 8 10 1, .fabs 8 10 false 0, .fneg 8 10 false 0, .fclass 8 10 false 0, .fmin 8 10 false 0,
    .fmax 8 10 false 0, .fsqrt 8 10 1 false 0, .frcp 8 10 1 false 0, .frsq 8 10 1 false 0, .fexp2 8 10 1 false 0, .flog2 8 10 1 false 0,
    .fsin 8 10 1 false 0, .fcos 8 10 1 false 0, .ftanh 8 10 1 false 0, .pkfmaH 8 10 12 false 0, .pkfmaB 8 10 12 false 0, .pkaddH 8 10 false 0,
    .pkmulH 8 10 false 0, .pkminH 8 10 false 0, .pkmaxH 8 10 false 0, .pksubH 8 10 false 0, .pkaddB 8 10 false 0, .pkmulB 8 10 false 0,
    .pkminB 8 10 false 0, .pkmaxB 8 10 false 0, .pksubB 8 10 false 0, .cvtS32F32 8 10 false 0, .cvtU32F32 8 10 false 0, .cvtF32S32 8 10 false 0,
    .cvtF32U32 8 10 false 0, .cvtF16F32 8 10 false 0, .cvtF32F16 8 10 false 0, .cvtBf16F32 8 10 false 0, .cvtF32Bf16 8 10 false 0,
    .cvtF32F64 8 10 false 0, .cvtF64F32 8 10 false 0, .unpk 8 10 false 0] : List Instr),
    ∃ e, Clear (issued i) i e [] := clears (by decide)

/-- A slot of lattice kind for B and of 8-bit kind for A. -/
def latticeSlot : FSlot := ⟨5, 0x209, 0x3F800000, 0x3F800000, []⟩

theorem witness_slots : ∀ i ∈ ([
    .cvtw 8 10 1 1 false 0, .ql8 8 1 0 1 1 false 0, .dl8 8 10 1 1 false 0, .xl8 8 10 1 3 false 0] : List Instr),
    ∃ e, Clear (slots latticeSlot (issued i)) i e [] := clears (f := fun i => slots latticeSlot (issued i)) (by decide)

theorem witness_cvtn : ∀ i ∈ ([
    .cvtn 8 12 1 1 false 0] : List Instr),
    ∃ e, Clear (slots ⟨5, 5, 0x3F800000, 0x3F800000, []⟩ (issued i)) i e [] := clears (f := fun i => slots ⟨5, 5, 0x3F800000, 0x3F800000, []⟩ (issued i)) (by decide)

theorem witness_lanes : ∀ i ∈ ([
    .lxi 8 10 12 false 0, .lxm 8 10 12 false 0, .lxr 8 10 12 false 0, .lxs 8 10 12 false 0, .lmask 8 10 false 0, .lpeer 8 10 false 0,
    .compact 8 10 false 0, .lfirst 8 10 false 0, .lfoldIadd 8 10 false 0, .lfoldIminS 8 10 false 0, .lfoldImaxS 8 10 false 0, .lfoldAnd 8 10 false 0,
    .lfoldOr 8 10 false 0, .lfoldXor 8 10 false 0, .lfoldFadd 8 10 false 0, .lfoldFmax 8 10 false 0, .pand 2 3 4 0, .por 2 3 4 0, .pxor 2 3 4 0,
    .pnot 2 3 0, .pmov 2 3 0, .lany 2 3 0, .lall 2 3 0, .lagree 2 3 0, .lodd 2 3 0, .rdfx 8 false 0, .wrfx 10 0, .clrfx 10 0] : List Instr),
    ∃ e, Clear (issued i) i e [] := clears (by decide)

theorem witness_uniform : ∀ i ∈ ([
    .sadd 4 6 10, .ssub 4 6 10, .smul 4 6 10, .sand 4 6 10, .sor 4 6 10, .sxor 4 6 10, .sshl 4 6 10, .sshr 4 6 10, .ssar 4 6 10, .smov 4 6,
    .scmp 4 6 10 .ltS, .ssel 4 6 10, .saddImm 4 6 1, .sandImm 4 6 1, .sorImm 4 6 1, .sxorImm 4 6 1, .sshlImm 4 6 3, .sshrImm 4 6 3, .ssarImm 4 6 3,
    .smovi 4 1] : List Instr),
    ∃ e, Clear (issued i) i e [] := clears (by decide)

theorem witness_system : ∀ i ∈ ([
    .bra 3 true 0x1FFFFC, .nop, .yield, .bkpt 5, .trap 5, .fence .acqRel .die, .fence .release .team, .cinv .die, .cinv .unit, .rdsr 4 0x22,
    .rdsr 4 0, .rdclk 4, .wrsr 4 0x20, .wrsr 4 0x21, .wrsr 4 0x22, .errq 4, .bflush 4 0, .cvqry 4 6 0] : List Instr),
    ∃ e, Clear (issued i) i e [] := clears (by decide)

/-! ### Witnesses: memory -/

/-- What the statements about loads, stores and atomics ask, for an access that some lane makes. -/
def LoadMeets (size : Nat) (o : BitVec 7) (b : BitVec 3) (sc : Scope) (i : Instr) (s : State) : Prop :=
  let sp : AccSpec := { acc := .read, size := size, scope := sc }
  ∃ e y, Clear s i e (e.accConds sp (e.eas .lane b (.code o 1))) ∧ e.mapAll (e.advance (e.shape i)) sp (e.eas .lane b (.code o 1)) = .ok y ∧
    ((y.2.loadAll e.iss.cu sc y.1).2.1 = none ∧ y.1 ≠ [])

def StoreMeets (size : Nat) (o : BitVec 7) (b : BitVec 3) (sc : Scope) (noView : Bool) (i : Instr) (s : State) : Prop :=
  let sp : AccSpec := { acc := .write, size := size, scope := sc, noView := noView }
  ∃ e y, Clear s i e (e.accConds sp (e.eas .lane b (.code o 1))) ∧ e.mapAll (e.advance (e.shape i)) sp (e.eas .lane b (.code o 1)) = .ok y ∧ y.1 ≠ []

def AtomicMeets (n : Nat) (d : BitVec 7) (v b : BitVec 3) (sc : Scope) (new : Env → BitVec 7 → Thread → Nat → Nat) (i : Instr) (s : State) : Prop :=
  let sp : AccSpec := { acc := .atomic, size := n, scope := sc, atomic := true }
  ∃ e y, Clear s i e (e.accConds sp (e.eas .lane b (.block v.toNat 1))) ∧ e.mapAll (e.advance (e.shape i)) sp (e.eas .lane b (.block v.toNat 1)) = .ok y ∧
    ((e.rmwAll n (new e d) y.1 y.2).2.1 = none ∧ y.1.length = 1)

theorem witness_loads :
    LoadMeets 1 14 1 .die (.ldB 8 14 1 0 .die true) (based 0x20001 (.ldB 8 14 1 0 .die true)) ∧
    LoadMeets 2 14 1 .die (.ldH 8 14 1 0 .die true) (based 0x20002 (.ldH 8 14 1 0 .die true)) ∧
    LoadMeets 4 14 1 .thread (.ldW 8 14 1 0 .thread false) (based 0x20004 (.ldW 8 14 1 0 .thread false)) ∧
    LoadMeets 8 14 1 .die (.ldD 8 14 1 0 .die true) (based 0x20008 (.ldD 8 14 1 0 .die true)) ∧
    LoadMeets 16 14 1 .system (.ldQ 8 14 1 0 .system true) (based 0x3FFFFFF0 (.ldQ 8 14 1 0 .system true)) :=
  ⟨clear_map (by decide), clear_map (by decide), clear_map (by decide), clear_map (by decide), clear_map (by decide)⟩

/-- Late accesses (R328): relaxed loads and stores that are held back. -/
def lateIssue (s : State) : State := { s with cur := s.cur.map fun i => { i with late := true } }

def LateMeets (acc : Access) (size : Nat) (o : BitVec 7) (b : BitVec 3) (noView : Bool) (i : Instr) (s : State) : Prop :=
  let sp : AccSpec := { acc := acc, size := size, scope := .die, noView := noView }
  ∃ e y, Clear s i e (e.accConds sp (e.eas .lane b (.code o 1))) ∧ e.mapAll (e.advance (e.shape i)) sp (e.eas .lane b (.code o 1)) = .ok y ∧
    (e.iss.late = true ∧ y.1.length = 1)

theorem witness_late :
    LateMeets .read 4 14 1 false (.ldW 8 14 1 0 .die false) (lateIssue (based 0x20004 (.ldW 8 14 1 0 .die false))) ∧
    LateMeets .write 8 14 1 false (.stD 8 14 1 0 .die false) (lateIssue (based 0x20008 (.stD 8 14 1 0 .die false))) ∧
    LateMeets .write 128 14 1 true (.zfill 14 1 0 .die false) (lateIssue (based 0x20000 (.zfill 14 1 0 .die false))) :=
  ⟨clear_map (by decide), clear_map (by decide), clear_map (by decide)⟩

/-- A CU that has no copy of a sector, and one that has. -/
theorem witness_load_served :
    (∃ c, (placed .nop).cu? 0 = some c ∧ c.l1.find? (·.at_ == (⟨.dram, 0x20000⟩ : PAddr).sector) = none) ∧
    ∃ c h, (cu0 (fun c => { c with l1 := [⟨⟨.dram, 0x20000⟩, List.replicate 32 7, false⟩] }) (placed .nop)).cu? 0 = some c ∧
      c.l1.find? (·.at_ == (⟨.dram, 0x2001C⟩ : PAddr).sector) = some h ∧ servedByL1 .unit = true ∧ (0x2001C + 0) % 32 + 4 ≤ 32 :=
  ⟨⟨_, rfl, by decide⟩, ⟨_, _, rfl, rfl, rfl, by decide⟩⟩

theorem witness_stores :
    StoreMeets 1 14 1 .thread false (.stB 8 14 1 0 .thread false) (based 0x20001 (.stB 8 14 1 0 .thread false)) ∧
    StoreMeets 2 14 1 .die false (.stH 8 14 1 0 .die true) (based 0x20002 (.stH 8 14 1 0 .die true)) ∧
    StoreMeets 4 14 1 .thread false (.stW 8 14 1 0 .thread false) (based 0x20004 (.stW 8 14 1 0 .thread false)) ∧
    StoreMeets 8 14 1 .thread false (.stD 8 14 1 0 .thread false) (based 0x20008 (.stD 8 14 1 0 .thread false)) ∧
    StoreMeets 16 14 1 .system false (.stQ 8 14 1 0 .system true) (based 0x3FFFFFF0 (.stQ 8 14 1 0 .system true)) :=
  ⟨clear_map (by decide), clear_map (by decide), clear_map (by decide), clear_map (by decide), clear_map (by decide)⟩

/-- Memory that no shadow covers and no page of which is retired can be written. -/
theorem witness_writable : Writable (placed .nop) ⟨.dram, 0x20000⟩ 128 := by
  refine ⟨(fun k h => h.elim nofun nofun), by decide, by decide, by decide, ?_⟩
  intro c hc v hv
  have : (placed .nop).ctxs.flatMap (·.preserves) = [] := by decide
  simp only [List.flatMap_eq_nil_iff] at this
  rw [this c hc] at hv
  cases hv

theorem witness_lines :
    StoreMeets 128 14 1 .thread true (.zfill 14 1 0 .thread false) (based 0x20000 (.zfill 14 1 0 .thread false)) ∧
    ∀ i ∈ ([.pref 14 1 0] : List Instr), ∃ e, Clear (based 0x20000 i) i e [] :=
  ⟨clear_map (by decide), clears (f := based 0x20000) (by decide)⟩

theorem witness_atomics :
    AtomicMeets 4 8 2 1 .module (fun e d t old =>
      let ws := e.words (.code d (atomRegs .add false)) t
      atomNew .add 32 old (regsNat (ws.take 1)) (regsNat (ws.drop 1))) (.atom 8 .add 2 1 0 .module true) (based 0x20004 (.atom 8 .add 2 1 0 .module true)) ∧
    AtomicMeets 4 8 2 1 .module (fun e d t old =>
      let ws := e.words (.code d (atomRegs .cas false)) t
      atomNew .cas 32 old (regsNat (ws.take 1)) (regsNat (ws.drop 1))) (.atom 8 .cas 2 1 0 .module true) (based 0x20004 (.atom 8 .cas 2 1 0 .module true)) ∧
    AtomicMeets 8 8 2 1 .thread (fun e d t old =>
      let ws := e.words (.code d (atomRegs .cas true)) t
      atomNew .cas 64 old (regsNat (ws.take 2)) (regsNat (ws.drop 2))) (.atomD 8 .cas 2 1 0 .thread true) (based 0x20008 (.atomD 8 .cas 2 1 0 .thread true)) ∧
    AtomicMeets 4 8 2 1 .die (fun e d t old => (fAdd32 .rne old (word e d t).toNat).pat) (.atomFadd 8 2 1 0 .die false)
      (based 0x20004 (.atomFadd 8 2 1 0 .die false)) ∧
    AtomicMeets 8 8 2 1 .pod (fun e d t old => (old + (fxaddTerm (word e d t).toNat e.h.f).1) % 2 ^ 64) (.fxadd 8 2 1 0 .pod false)
      (based 0x20008 (.fxadd 8 2 1 0 .pod false)) :=
  ⟨clear_map (by decide), clear_map (by decide), clear_map (by decide), clear_map (by decide), clear_map (by decide)⟩

/-- Scratchpad words with all lines present, and with a line absent. -/
theorem witness_scratchpad :
    (∃ e, Clear (issued (.ldl 8 14 1 0 .q)) (.ldl 8 14 1 0 .q) e (e.scrConds 16 16 false (e.sas .lane 1 (.code 14 1))) ∧
      ((issued (.ldl 8 14 1 0 .q)).present e.team.id 0 16 = true ∧ ((issued (.ldl 8 14 1 0 .q)).scrRead e.team.id 0 16).2 = false ∧
        Taking e (.ldl 8 14 1 0 .q) = [0])) ∧
    (∃ e, Clear (team0 (fun m => { m with absent := [0] }) (issued (.ldl 8 14 1 0 .b))) (.ldl 8 14 1 0 .b) e (e.scrConds 1 1 false (e.sas .lane 1 (.code 14 1))) ∧
      (team0 (fun m => { m with absent := [0] }) (issued (.ldl 8 14 1 0 .b))).present e.team.id 0 1 = false) ∧
    (∃ e, Clear (issued (.ldt 8 14 1 0)) (.ldt 8 14 1 0) e (e.scrConds 16 16 false (e.sas .lane 1 (.code 14 1))) ∧
      ∀ a ∈ e.sas .lane 1 (.code 14 1), a = (0, 0) ∧ ((issued (.ldt 8 14 1 0)).scrRead e.team.id 0 16).2 = false) ∧
    (∃ e, Clear (based 0x1FFF8 (.stl 8 14 1 0 .d)) (.stl 8 14 1 0 .d) e (e.scrConds 8 8 true (e.sas .lane 1 (.code 14 1))) ∧
      e.sas .lane 1 (.code 14 1) = [(0, 0x1FFF8)]) ∧
    ∃ e, Clear (issued (.atoml 8 14 1 0 .fadd)) (.atoml 8 14 1 0 .fadd) e (e.scrConds 4 4 true (e.sas .lane 1 (.code 14 1))) ∧
      (e.latomAll (fun t old =>
          let ws := e.words (.code 8 (LAtomOp.fadd).regs) t
          latomNew .fadd old (regsNat (ws.take 1)) (regsNat (ws.drop 1)))
        ((e.sas .lane 1 (.code 14 1)).map fun a => (a.1, a.2.toNat)) (e.advance (e.shape (.atoml 8 14 1 0 .fadd)))).2.1 = none :=
  ⟨clear_and (by decide), clear_and (by decide), clear_and (by decide), clear_and (by decide), clear_and (by decide)⟩

/-- SLD, SST and SLDC on the mapped GiB, with a launch that has eight constants. -/
def withConstants (s : State) : State := header (fun h => { h with consta := 0x30000, nconst := 8 }) s

theorem witness_uniform_memory :
    (∃ e y, Clear (based 0x20008 (.sld 4 1 0)) (.sld 4 1 0) e (e.accConds { acc := .read, size := 8, scope := .thread } (uniAt e 1 0)) ∧
      e.mapAll (e.advance (e.shape (.sld 4 1 0))) { acc := .read, size := 8, scope := .thread } (uniAt e 1 0) = .ok y ∧
      (y.1.length = 1 ∧ ∀ v ∈ y.1, (y.2.loadElems e.iss.cu .thread v.2).2.1 = none)) ∧
    (∃ e y, Clear (based 0x20008 (.sst 4 1 0x1FF8)) (.sst 4 1 0x1FF8) e (e.accConds { acc := .write, size := 8, scope := .thread } (uniAt e 1 0x1FF8)) ∧
      e.mapAll (e.advance (e.shape (.sst 4 1 0x1FF8))) { acc := .write, size := 8, scope := .thread } (uniAt e 1 0x1FF8) = .ok y ∧
      y.1 = [(0, [.at_ ⟨.dram, 0x20000⟩ 0x20000 8])]) ∧
    ∃ e, Clear (withConstants (issued (.sldc 4 7))) (.sldc 4 7) e (e.when (e.l.hdr.nconst ≤ 7) 0x18 ++ e.when (!usableVA (e.l.hdr.consta + 8 * 7)) 0x10) ∧
      ((withConstants (issued (.sldc 4 7))).translate e.iss.cu e.l.ctx (e.l.hdr.consta + 8 * 7) .read = .ok ⟨.dram, 0x30038⟩ ∧
        ((withConstants (issued (.sldc 4 7))).loadPhys ⟨.dram, 0x30038⟩ 8).2 = false) :=
  ⟨clear_map (by decide), clear_map (by decide), clear_and (by decide)⟩

/-! ### Witnesses: control, traps and hints -/

theorem witness_jump : ∃ e, Clear (sreg 4 0x20004 (issued (.jmp 4))) (.jmp 4) e (e.when (!goodTarget (sword e 4).toNat) 9 ++ e.meldConds true) :=
  let ⟨e, c, _⟩ := clear_and (p := fun _ => True) (s := sreg 4 0x20004 (issued (.jmp 4))) (by decide)
  ⟨e, c⟩

/-- A launch whose return stacks lie in the scratchpad, and one whose lie in memory. -/
def stackAtop (mem : Bool) (s : State) : State := header (fun h => { h with rsbase := if mem then 0x40000 else 0x1000, flags := if mem then 128 else 0 }) s

/-- A thread one call deep, with its return entry in the scratchpad and in memory. -/
def called (mem : Bool) (i : Instr) : State :=
  poke 0x40000 (leBytes 8 0x20008) (team0 (fun m => { m with mem := m.mem.write 0x1000 (leBytes 8 0x20008) }) (thread0 (fun t => { t with depth := 1 }) (stackAtop mem (issued i))))

theorem witness_calls :
    (∃ e, Clear (stackAtop false (issued (.call 0 false 2))) (.call 0 false 2) e (e.callConds (e.chosen 0 false)) ∧ (e.stackMem = false ∧ e.chosen 0 false = [0])) ∧
    (∃ e y, Clear (stackAtop true (issued (.call 0 false 2))) (.call 0 false 2) e (e.callConds (e.chosen 0 false)) ∧
      e.mapAll (e.advance (e.shape (.call 0 false 2))) (stackSpec .write) (e.callSlots (e.chosen 0 false)) = .ok y ∧ (e.stackMem = true ∧ y.1.length = 1)) ∧
    (∃ e, Clear (sreg 4 0x20004 (stackAtop false (issued (.callr 4)))) (.callr 4) e (e.when (!goodTarget (sword e 4).toNat) 9 ++ e.callConds e.lanes) ∧
      e.stackMem = false) ∧
    ∃ e y, Clear (sreg 4 0x20004 (stackAtop true (issued (.callr 4)))) (.callr 4) e (e.when (!goodTarget (sword e 4).toNat) 9 ++ e.callConds e.lanes) ∧
      e.mapAll (e.advance (e.shape (.callr 4))) (stackSpec .write) (e.callSlots e.lanes) = .ok y ∧ e.stackMem = true :=
  ⟨clear_and (by decide), clear_map (by decide), clear_and (by decide), clear_map (by decide)⟩

theorem witness_returns :
    (∃ e, Clear (called false .ret) .ret e e.retConds ∧ (e.stackMem = false ∧ ∀ k ∈ e.lanes, e.retReady (k, retAt e k) = true ∧
      ((called false .ret).scrRead e.team.id (retAt e k).toNat 8).2 = false)) ∧
    (∃ e, Clear (team0 (fun m => { m with absent := [32] }) (called false .ret)) .ret e e.retConds ∧
      (e.stackMem = false ∧ ∀ k ∈ e.lanes, e.retReady (k, retAt e k) = false)) ∧
    ∃ e y, Clear (called true .ret) .ret e e.retConds ∧ e.mapAll (e.advance (e.shape .ret)) (stackSpec .read) e.retSlots = .ok y ∧
      (e.stackMem = true ∧ (y.2.loadAll e.iss.cu .thread y.1).2.1 = none ∧ ∀ v ∈ (y.2.loadAll e.iss.cu .thread y.1).1, goodTarget (leNat v.2) = true) :=
  ⟨clear_and (by decide), clear_and (by decide), clear_map (by decide)⟩

theorem witness_exit_and_melding :
    (∃ e, Clear (issued .exit) .exit e (e.meldConds true) ∧ e.lanes = [0]) ∧
    (∃ e, Clear (thread0 (fun t => { t with melded := true }) (issued .mend)) .mend e (e.meldConds false) ∧ e.lanes = [0]) ∧
    (∃ e, Clear (issued (.meld 3 5)) (.meld 3 5) e (e.meldConds true) ∧ e.lanes = [0]) ∧
    ∃ e, Clear (sreg 4 0xFF00FF00FF00FF00 (issued (.mset 3 4))) (.mset 3 4) e (e.msetConds 4) ∧ e.g.rename.length = 32 :=
  ⟨clear_and (by decide), clear_and (by decide), clear_and (by decide), clear_and (by decide)⟩

/-- An issue with a group and a launch as taking a trap needs them, the condition at the ends of its ranges. -/
theorem witness_trap_entry : ∃ g l, (issued .nop).group? 0 0 0 = some g ∧ g.halt = none ∧ (issued .nop).launch? l.id = some l ∧ l.stop = none ∧
    ((⟨255, 31, 4294967295, 4095⟩ : Cond).cause < 256 ∧ (⟨255, 31, 4294967295, 4095⟩ : Cond).lane < 32 ∧
      (⟨255, 31, 4294967295, 4095⟩ : Cond).code < 4096 ∧ (⟨255, 31, 4294967295, 4095⟩ : Cond).detail < 2 ^ 32) :=
  ⟨placedGroup, placedLaunch, by decide, by decide, by decide, by decide, by decide⟩

theorem witness_worst : worst [⟨3, 0, 0, 0⟩, ⟨1, 2, 0, 0⟩, ⟨1, 1, 0, 0⟩] = some ⟨1, 1, 0, 0⟩ ∧ worst [] = none := by decide

/-- An issue that raises a condition. -/
def TrapMeets (s : State) (i : Instr) (more : Env → List Cond) : Prop := ∃ e, s.env? = some e ∧ (worst (e.conds i (e.shape i) ++ more e)).isSome = true

theorem trapMeets {s : State} {i : Instr} {more : Env → List Cond}
    (h : (s.env?.any fun e => (worst (e.conds i (e.shape i) ++ more e)).isSome) = true) : TrapMeets s i more := Option.any_eq_true _ _ |>.mp h

/-- A thread with a pending hint that the words of no family but M take. -/
def guardHint (s : State) : State := thread0 (fun t => { t with hints := [.modLane 1 false 0], hintPc := 0xFFFC }) s

theorem witness_conditions :
    TrapMeets (issued .nop) (.iadd 96 1 2 false 0) (fun _ => []) ∧ TrapMeets (issued .nop) (.ffma 96 1 2 false 0) (fun _ => []) ∧
    TrapMeets (guardHint (issued .nop)) (.sadd 4 6 10) (fun _ => []) ∧ TrapMeets (guardHint (issued .nop)) (.pand 1 2 3 0) (fun _ => []) ∧
    TrapMeets (issued .nop) (.lfoldIadd 96 1 false 0) (fun _ => []) ∧
    TrapMeets (based 0x20001 (.ldW 8 14 1 0 .die false)) (.ldW 8 14 1 0 .die false)
      (fun e => e.accConds { acc := .read, size := 4, scope := .die } (e.eas .lane 1 (.code 14 1))) ∧
    TrapMeets (based 0x100000000000000 (.stW 8 14 1 0 .die false)) (.stW 8 14 1 0 .die false)
      (fun e => e.accConds { acc := .write, size := 4, scope := .die } (e.eas .lane 1 (.code 14 1))) ∧
    TrapMeets (based 0x20000 (.stl 8 14 1 0 .b)) (.stl 8 14 1 0 .b) (fun e => e.scrConds 1 1 true (e.sas .lane 1 (.code 14 1))) ∧
    TrapMeets (sreg 4 2 (issued .nop)) (.jmp 4) (fun e => e.when (!goodTarget (sword e 4).toNat) 9 ++ e.meldConds true) ∧
    TrapMeets (issued .nop) .ret (fun e => e.retConds) ∧
    TrapMeets (sreg 4 16 (issued .nop)) (.bar 15 4) (fun e => e.barConds 15 4 true) :=
  ⟨trapMeets (by decide), trapMeets (by decide), trapMeets (by decide), trapMeets (by decide), trapMeets (by decide), trapMeets (by decide),
    trapMeets (by decide), trapMeets (by decide), trapMeets (by decide), trapMeets (by decide), trapMeets (by decide)⟩

/-- A thread with pending hints of four kinds, one of which every word misuses. -/
def allHints (s : State) : State := thread0 (fun t =>
  { t with hints := [.modArith 1 0 5 2, .modOffset 7, .modCounter .die 7, .modLane 1 false 63], hintPc := 0xFFFC }) s

theorem trapAny {s : State} {i : Instr} (h : (s.env?.any fun e => (e.conds i (e.shape i)).length != 0) = true) (more : Env → List Cond) : TrapMeets s i more := by
  rw [Option.any_eq_true] at h
  obtain ⟨e, he, hc⟩ := h
  refine ⟨e, he, ?_⟩
  cases hl : e.conds i (e.shape i) with
  | nil => simp [hl] at hc
  | cons c cs =>
    simp only [List.cons_append, worst]
    split
    · rfl
    · split <;> rfl

/-- A word of every family that the statement about conditions names. -/
def families : List Instr := [
    .isub 8 10 12 false 0, .icmp .ltS 2 10 12 false 0, .fcmp .lt 2 10 12 false 0, .faddImm 8 10 1, .shlImm 8 10 1, .movi 8 1, .seta 1 10, .aadd 1 1,
    .mov 8 10 false 0, .cvtF32F16 8 10 false 0, .lmask 8 10 false 0, .fsqrt 8 10 1 false 0, .cvtn 8 12 1 1 false 0, .ql8 8 1 0 1 1 false 0,
    .xl8 8 10 1 3 false 0, .pnot 2 3 0, .rdfx 8 false 0, .wrfx 10 0, .ssel 4 6 10, .smov 4 6, .scmp 4 6 10 .ltS, .saddImm 4 6 1, .smovi 4 1, .rdclk 4,
    .rdsr 4 0x22, .fence .acqRel .die, .cinv .die, .nop, .yield, .bkpt 5, .bra 3 true 0x1FFFFC, .pref 14 1 0, .cvqry 4 6 0, .bflush 4 0,
    .ldQ 8 14 1 0 .die true, .stH 8 14 1 0 .die true, .atom 8 .add 2 1 0 .module true, .fxadd 8 2 1 0 .pod false, .zfill 14 1 0 .thread false, .sld 4 1 0,
    .sst 4 1 0, .sldc 4 7, .ldl 8 14 1 0 .q, .stl 8 14 1 0 .d, .ldt 8 14 1 0, .atoml 8 14 1 0 .fadd, .shw 16 10 0, .shrWindow 8 23 0, .call 0 false 2,
    .callr 4, .jmp 4, .ret, .exit, .meld 3 5, .mset 3 4, .mend, .bara 0 4, .barw 3 4, .gbar, .waitc 4, .mma 0 64 1 1 0 false, .mmas 0 64 1 1 0 false,
    .mmah 0 64 1 1 0 false, .hldReg 0 64 0, .hstReg 0 64 0, .hldScratch 0 1 0, .hstScratch 0 1 0, .hzero 0 0, .hdrn 2 4 6 0, .pilotGt 2 4 6 0,
    .mchk 2 16 18 0, .cpy 10 14 1 0 .sixteen, .cpym 8 10 12 0, .cpyo 8 10 0, .cpyrw 8 10 12 0, .csig 8 10 0, .vset 8 10 12 0, .vbase 8 10 12 0, .vinv 8 0,
    .vqry 8 10 12 0, .spawn 8 3 100 0, .park 16 1 127 0]

/-- Each meets a condition, whatever else its family checks. -/
theorem witness_condition_families : ∀ i ∈ families, ∀ more, TrapMeets (allHints (issued .nop)) i more := fun i m =>
  trapAny (List.all_eq_true.mp (by decide : (families.all fun i => (allHints (issued .nop)).env?.any fun e => (e.conds i (e.shape i)).length != 0) = true) i m)

/-- An issue at an address that is not canonical, and one at a view address. -/
theorem witness_fetch_fault :
    ((({ issued .nop with cur := some ⟨0, 0, 0, 1, 0x0100000000000000, false, false⟩ } : State).env?.any fun e => canonical e.iss.pc.toNat == false) = true) ∧
    ((({ issued .nop with cur := some ⟨0, 0, 0, 1, 0xFFF0000000000000, false, false⟩ } : State).env?.any fun e => isView e.iss.pc.toNat) = true) := by decide

/-- An issue at an address that no entry maps, and the same after a hint. -/
def unmapped (s : State) : State := { s with cur := some ⟨0, 0, 0, 1, 0x80000000, false, false⟩ }

theorem witness_fetch_unmapped : ∀ s ∈ [unmapped (issued .nop), unmapped (guardHint (issued .nop))],
    (s.env?.any fun e => canonical e.iss.pc.toNat && !isView e.iss.pc.toNat && e.hs.length == (if s == unmapped (issued .nop) then 0 else 1) &&
      (match s.translate e.iss.cu e.l.ctx e.iss.pc.toNat .fetch with | .fault _ => true | _ => false)) = true := by decide

/-- The fetch after a hint stalls where its address has no mapping (R397), and takes no trap. -/
theorem test_fetch_after_hint_stalls :
    (match exec .instructionFetchFault (unmapped (guardHint (issued .nop))) with
     | .next t => (t.group? 0 0 0).any fun g => g.halt.isNone && (g.thread? 0).any fun x => x.wait == .fault 0 && x.hints.length == 1
     | _ => false) = true := by decide

/-- Each hint after one of its own kind. -/
theorem witness_illegal_hints : ∀ i ∈ ([.imml 7, .immh 7, .modArith 1 0 5 2, .modOffset 7, .modCounter .die 7, .modLane 3 true 63, .sched true 3] : List Instr),
    ((thread0 (fun t => { t with hints := [i], hintPc := 0xFFFC }) (issued i)).env?.any fun e => e.hintBad i) = true := by decide

theorem witness_hints : ∀ i ∈ ([.imml 7, .immh 7, .modArith 1 0 5 2, .modOffset 7, .modCounter .die 7, .modLane 3 true 63, .sched true 3, .sched false 3] : List Instr),
    ((issued i).env?.any fun e => e.hintBad i == false) = true := by decide

/-- Late scratchpad words, atomics, SLD and SST. -/
theorem witness_late_others :
    (∃ e, Clear (lateIssue (issued (.ldl 8 14 1 0 .q))) (.ldl 8 14 1 0 .q) e (e.scrConds 16 16 false (e.sas .lane 1 (.code 14 1))) ∧
      (e.iss.late = true ∧ (((e.sas .lane 1 (.code 14 1)).map fun a => (a.1, a.2.toNat)).filter fun a =>
        (lateIssue (issued (.ldl 8 14 1 0 .q))).present e.team.id a.2 16) = [(0, 0)])) ∧
    (∃ e, Clear (lateIssue (issued (.ldt 8 14 1 0))) (.ldt 8 14 1 0) e (e.scrConds 16 16 false (e.sas .lane 1 (.code 14 1))) ∧
      (e.iss.late = true ∧ (((e.sas .lane 1 (.code 14 1)).map fun a => (a.1, a.2.toNat)).filter fun a =>
        (quadRows ((e.sas .lane 1 (.code 14 1)).map fun a => (a.1, a.2.toNat)) a.1).all fun r => r.all fun x =>
          (lateIssue (issued (.ldt 8 14 1 0))).present e.team.id x 16) = [(0, 0)])) ∧
    (∃ e, Clear (lateIssue (based 0x1FFF0 (.stl 8 14 1 0 .q))) (.stl 8 14 1 0 .q) e (e.scrConds 16 16 true (e.sas .lane 1 (.code 14 1))) ∧
      (e.iss.late = true ∧ e.sas .lane 1 (.code 14 1) = [(0, 0x1FFF0)])) ∧
    (∃ e, Clear (lateIssue (issued (.atoml 8 14 1 0 .fadd))) (.atoml 8 14 1 0 .fadd) e (e.scrConds 4 4 true (e.sas .lane 1 (.code 14 1))) ∧
      (e.iss.late = true ∧ e.sas .lane 1 (.code 14 1) = [(0, 0)])) ∧
    (∃ e y, Clear (lateIssue (based 0x20008 (.atomD 8 .cas 2 1 0 .die false))) (.atomD 8 .cas 2 1 0 .die false) e
        (e.accConds { acc := .atomic, size := 8, scope := .die, atomic := true } (e.eas .lane 1 (.block 2 1))) ∧
      e.mapAll (e.advance (e.shape (.atomD 8 .cas 2 1 0 .die false))) { acc := .atomic, size := 8, scope := .die, atomic := true } (e.eas .lane 1 (.block 2 1)) = .ok y ∧
      (e.iss.late = true ∧ y.1.length = 1)) ∧
    (∃ e y, Clear (lateIssue (based 0x20008 (.sld 4 1 0))) (.sld 4 1 0) e (e.accConds { acc := .read, size := 8, scope := .thread } (uniAt e 1 0)) ∧
      e.mapAll (e.advance (e.shape (.sld 4 1 0))) { acc := .read, size := 8, scope := .thread } (uniAt e 1 0) = .ok y ∧ (e.iss.late = true ∧ y.1.length = 1)) ∧
    ∃ e y, Clear (lateIssue (based 0x20008 (.sst 4 1 0))) (.sst 4 1 0) e (e.accConds { acc := .write, size := 8, scope := .thread } (uniAt e 1 0)) ∧
      e.mapAll (e.advance (e.shape (.sst 4 1 0))) { acc := .write, size := 8, scope := .thread } (uniAt e 1 0) = .ok y ∧ (e.iss.late = true ∧ y.1.length = 1) :=
  ⟨clear_and (by decide), clear_and (by decide), clear_and (by decide), clear_and (by decide), clear_map (by decide), clear_map (by decide), clear_map (by decide)⟩

/-! ### Witnesses: synchronisation, special registers and data that returns -/

/-- A second group of the team, in partition 1 and of role 1, whose thread is as `f` makes it; the launch declares both roles. -/
def secondGroup (f : Thread → Thread) : Group :=
  { placedGroup with part := 1, role := some 1, linear := 1, order := 1, threads := [some (f placedThread)] }
def twoGroups (f : Thread → Thread) (s : State) : State :=
  header (fun h => { h with roles := [(1, 31), (1, 31), (0, 0), (0, 0)] }) { s with groups := s.groups ++ [secondGroup f] }

/-- A barrier of the team changed; the machine in which the other group waits at barrier 15, having arrived. -/
def bar (n : Nat) (b : Bar) : State → State := team0 fun m => { m with bars := m.bars.set n b }
def oneWaits (i : Instr) : State :=
  bar 15 ⟨0, some 3, [(1, 1)], [1]⟩ (twoGroups (fun t => { t with wait := .barrier 15 0 }) (issued i))

/-- What the statement about BAR and BARA asks, with the phase completed or not. -/
def ArriveMeets (completes : Bool) (n r : BitVec 6) (i : Instr) (s : State) : Prop :=
  ∃ e, Clear s i e (e.barConds n r true) ∧ (e.again n = [] ∧ n.toNat < e.team.bars.length ∧ (∀ k ∈ e.lanes, (e.thread k).map (·.wait) = some .ready) ∧
    (∀ g ∈ s.groups, g.wrongWaiters n.toNat (e.bar n).phase (e.roles r) = []) ∧
    reached s e.team.id { e.bar n with roles := some (e.roles r), arrived := insertKey (e.bar n).arrived e.g.linear ((e.bar n).lanes e.g.linear ||| maskOf 32 e.lanes) } = completes)

theorem witness_barriers :
    ArriveMeets true 15 4 (.bar 15 4) (issued (.bar 15 4)) ∧ ArriveMeets true 15 4 (.bar 15 4) (oneWaits (.bar 15 4)) ∧
    ArriveMeets false 15 4 (.bar 15 4) (twoGroups id (issued (.bar 15 4))) ∧ ArriveMeets true 15 4 (.bara 15 4) (oneWaits (.bara 15 4)) ∧
    ArriveMeets false 0 4 (.bara 0 4) (twoGroups id (issued (.bara 0 4))) ∧
    (∀ i ∈ ([.bar 3 4, .bara 3 4] : List Instr), ∃ e, Clear (bar 3 ⟨0, some 3, [(0, 1)], [0]⟩ (twoGroups id (issued i))) i e (e.barConds 3 4 true) ∧ e.again 3 = e.lanes) ∧
    (∃ e, Clear (twoGroups id (issued (.barw 3 4))) (.barw 3 4) e (e.barConds 3 4 false) ∧ (3 < e.team.bars.length ∧ reached (twoGroups id (issued (.barw 3 4))) e.team.id (e.bar 3) = false)) ∧
    (∃ e, Clear (bar 3 ⟨0, some 3, [(1, 1)], [0, 1]⟩ (twoGroups id (issued (.barw 3 4)))) (.barw 3 4) e (e.barConds 3 4 false) ∧
      (3 < e.team.bars.length ∧ reached (twoGroups id (issued (.barw 3 4))) e.team.id (e.bar 3) = true)) := by
  refine ⟨clear_and (by decide), clear_and (by decide), clear_and (by decide), clear_and (by decide), clear_and (by decide), ?_, clear_and (by decide), clear_and (by decide)⟩
  intro i m
  rcases List.mem_cons.mp m with rfl | m
  · exact clear_and (by decide)
  · rcases List.mem_cons.mp m with rfl | m
    · exact clear_and (by decide)
    · cases m

/-- A resident launch of one group, all of which arrive, and of two, one of which waits at the grid barrier; and of two with none there. -/
def resident (s : State) : State := header (fun h => { h with flags := 1 }) s
theorem witness_grid_barrier :
    let others := fun (e : Env) => e.l.gbarArrived.filter fun a => !(a.1 == e.team.id && a.2.1 == e.g.linear)
    let ask := fun (all : Bool) (s : State) => ∃ e, Clear s .gbar e (e.when e.g.role.isNone 0x21 ++ e.when (!bitOf e.l.hdr.flags 0) 0x22) ∧
      (e.lanes = [0] ∧ ((s.gridGroups e.l.id).all fun g => g.arrivedIn (({ e.l with gbarArrived := (e.team.id, e.g.linear, e.l.gridLanes e.g ||| maskOf 32 e.lanes) :: others e } : Launch).gridLanes g)) = all)
    ask true (resident (issued .gbar)) ∧ ask false (resident (twoGroups id (issued .gbar))) ∧
    ask true ((resident (twoGroups (fun t => { t with wait := .gbar 0 }) (issued .gbar))).updLaunch 0 fun l => { l with gbarArrived := [(0, 1, 1)] }) :=
  ⟨clear_and (by decide), clear_and (by decide), clear_and (by decide)⟩

/-- A counter at zero, and one above it. -/
theorem witness_counter_wait :
    (∃ e, Clear (issued (.waitc 4)) (.waitc 4) e (e.when (4096 ≤ e.sv (4 : BitVec 6).toNat) 0x17) ∧
      ((issued (.waitc 4)).ctx? e.l.ctx).map (fun c => decide ((c.counter (e.sv 4)).toInt ≤ 0)) = some true) ∧
    ∃ e, Clear (sreg 4 4095 ((issued (.waitc 4)).updCtx 0 fun c => { c with counters := [(4095, 1)] })) (.waitc 4) e
        (e.when (4096 ≤ e.sv (4 : BitVec 6).toNat) 0x17) ∧
      ((sreg 4 4095 ((issued (.waitc 4)).updCtx 0 fun c => { c with counters := [(4095, 1)] })).ctx? e.l.ctx).map
        (fun c => decide (0 < (c.counter (e.sv 4)).toInt)) = some true :=
  ⟨clear_and (by decide), clear_and (by decide)⟩

/-- A launch that declares a window of v16 to v23 for role 0. -/
def windowed (s : State) : State := header (fun h => { h with wins := [⟨true, 0, 1, 16, 24, 8⟩] }) s

theorem unwaited {s : State} {e : Env} {c : BitVec 7} {ls : List Nat} (h : ∀ g ∈ s.groups, ∀ t ∈ g.threads, ∀ x ∈ t, x.wait = .ready) : Unwaited s e c ls := by
  intro _ _ w _ g hg _ t ht o hw
  have hm : some t ∈ g.threads := by
    unfold Group.thread? at ht
    cases hk : g.threads[w.lane]? with
    | none => simp [hk] at ht
    | some y => rw [hk] at ht; cases y with
      | none => simp at ht
      | some z => simp at ht; subst ht; exact List.mem_of_getElem? hk
  rw [h g hg _ hm t rfl] at hw
  cases hw

/-- A window register that is empty, and one that is full. -/
theorem witness_windows :
    (∃ e, Clear (windowed (issued (.shw 16 10 0))) (.shw 16 10 0) e (e.winConds 16 (e.take (.pred 0))) ∧ e.team.wins = []) ∧
    (∃ e, Clear (windowed (issued (.shrWindow 8 23 0))) (.shrWindow 8 23 0) e (e.winConds 23 (e.take (.pred 0))) ∧ e.team.wins = []) ∧
    (∃ e, Clear (team0 (fun m => { m with wins := [⟨⟨0, 0, 7, 0⟩, 5⟩] }) (windowed (issued (.shp 8 23 0)))) (.shp 8 23 0) e (e.winConds 23 (e.take (.pred 0))) ∧
      (e.winKey 23 0).bind e.team.cell? = some 5) ∧
    ∀ e ls, Unwaited (windowed (issued (.shw 16 10 0))) e 16 ls ∧ Unwaited (windowed (issued (.shrWindow 8 23 0))) e 23 ls ∧
      Unwaited (team0 (fun m => { m with wins := [⟨⟨0, 0, 7, 0⟩, 5⟩] }) (windowed (issued (.shp 8 23 0)))) e 23 ls :=
  ⟨clear_and (by decide), clear_and (by decide), clear_and (by decide), fun _ _ => ⟨unwaited (by decide), unwaited (by decide), unwaited (by decide)⟩⟩

/-- A thread of the other group is parked on the window register with an operation, and the register holds `cell`. -/
def besideParked (o : WindowOp) (cell : List WinCell) (i : Instr) : State :=
  team0 (fun m => { m with wins := cell }) (windowed (twoGroups (fun t => { t with wait := .window ⟨0, 0, 7, 0⟩ o }) (issued i)))

/-- The premises about the parked thread, as a check that evaluates. -/
def oneParked (s : State) (e : Env) (w : WinKey) (h : Group) (x : Thread) (o : WindowOp) : Bool :=
  decide (s.groups.map fun g => (g.cu, g.part, g.slot)).Nodup && s.groups.contains h && h.team == e.team.id &&
  (h.cu, h.part, h.slot) != (e.iss.cu, e.iss.part, e.iss.slot) && h.thread? w.lane == some x && x.wait == .window w o &&
  s.groups.all fun g => g == h || (g.thread? w.lane).all fun y => match y.wait with | .window v _ => v != w | _ => true

theorem one_waiter {s : State} {e : Env} {w : WinKey} {h : Group} {x : Thread} {o : WindowOp} (b : oneParked s e w h x o = true) : OneWaiter s e w h x o := by
  simp only [oneParked, Bool.and_eq_true, decide_eq_true_eq, List.contains_iff_mem, beq_iff_eq, bne_iff_ne, ne_eq, List.all_eq_true, Bool.or_eq_true] at b
  obtain ⟨⟨⟨⟨⟨⟨b1, b2⟩, b3⟩, b4⟩, b5⟩, b6⟩, b7⟩ := b
  refine ⟨b1, b2, b3, b4, b5, b6, ?_⟩
  intro g hg _ y hy u hu
  rcases b7 g hg with h0 | h1
  · exact h0
  · simp [hy, hu] at h1

def BesideMeets (c : BitVec 7) (o : WindowOp) (cell : Option Word) (i : Instr) (s : State) : Prop :=
  ∃ e, Clear s i e (e.winConds c (e.take (.pred 0))) ∧ ((oneParked s e ⟨0, 0, 7, 0⟩ (secondGroup fun t => { t with wait := .window ⟨0, 0, 7, 0⟩ o })
    { placedThread with wait := .window ⟨0, 0, 7, 0⟩ o } o = true ∧ e.take (.pred 0) = [0] ∧ e.winKey c 0 = some ⟨0, 0, 7, 0⟩) ∧ e.team.cell? ⟨0, 0, 7, 0⟩ = cell)

/-- SHW, SHR and SHP beside a parked SHR, SHP or SHW, on an empty and on a full register. -/
theorem witness_parked_windows :
    BesideMeets 23 (.get 5 true) none (.shw 23 10 0) (besideParked (.get 5 true) [] (.shw 23 10 0)) ∧
    BesideMeets 23 (.get 5 false) none (.shw 23 10 0) (besideParked (.get 5 false) [] (.shw 23 10 0)) ∧
    BesideMeets 23 (.put 9) (some 6) (.shw 23 10 0) (besideParked (.put 9) [⟨⟨0, 0, 7, 0⟩, 6⟩] (.shw 23 10 0)) ∧
    BesideMeets 23 (.put 9) (some 6) (.shrWindow 8 23 0) (besideParked (.put 9) [⟨⟨0, 0, 7, 0⟩, 6⟩] (.shrWindow 8 23 0)) ∧
    BesideMeets 23 (.get 5 true) none (.shrWindow 8 23 0) (besideParked (.get 5 true) [] (.shrWindow 8 23 0)) ∧
    BesideMeets 23 (.put 9) (some 6) (.shp 8 23 0) (besideParked (.put 9) [⟨⟨0, 0, 7, 0⟩, 6⟩] (.shp 8 23 0)) ∧
    BesideMeets 23 (.get 5 false) none (.shp 8 23 0) (besideParked (.get 5 false) [] (.shp 8 23 0)) :=
  ⟨clear_and (by decide), clear_and (by decide), clear_and (by decide), clear_and (by decide), clear_and (by decide), clear_and (by decide), clear_and (by decide)⟩

/-- A register that holds 3, which a parked SHR waits for: SHW runs, the reader takes its value. -/
theorem test_shw_wakes_reader :
    (match exec (.shw 23 10 0) (vreg 10 77 (besideParked (.get 5 true) [] (.shw 23 10 0))) with
     | .next t => ((t.group? 0 1 0).bind (·.thread? 0)).map (fun x => (x.regs.getD 5 0, x.wait == .ready)) == some (77, true) && (t.team? 0).map (·.wins) == some []
     | _ => false) = true := by decide

/-- A load and an atomic that return, read or performed at issue and late, an SLD, one of s0 and one that is late, and a late HLD. -/
def lateParts : List LatePart := [⟨some (.mem ⟨.dram, 0x20000⟩), 0x20000, 4, 0, none⟩]
def lateOld : LateRmw := ⟨0, [8], ⟨some (.mem ⟨.dram, 0x20000⟩), 0x20000, 4, 0, none⟩, .atom .add 32 5 0, 0, none⟩

theorem witness_data_returns :
    (∃ y, (flying (.lateLoad .die [⟨0, [8], lateParts, true⟩])).flight? 7 = some y ∧ y.fault = none ∧ y.refetch = none ∧
      ((flying (.lateLoad .die [⟨0, [8], lateParts, true⟩])).readLate y.cu .die [⟨0, [8], lateParts, true⟩]).2.1 = none) ∧
    (flying (.load [⟨0, [8], [5], 0⟩])).flight? 7 = some (flight (.load [⟨0, [8], [5], 0⟩])) ∧
    (flying (.atomic [⟨0, [8, 9], [5, 6], 2⟩])).flight? 7 = some (flight (.atomic [⟨0, [8, 9], [5, 6], 2⟩])) ∧
    ((flying (.lateAtomic [lateOld])).flight? 7 = some (flight (.lateAtomic [lateOld])) ∧ ((flying (.lateAtomic [lateOld])).rmwRest 0 [lateOld]).2.1 = none ∧
      ((flying (.lateAtomic [lateOld])).loadPhys ⟨.dram, 0x20000⟩ 4).2 = false) ∧
    ((flying (.lateSload 4 lateParts)).flight? 7 = some (flight (.lateSload 4 lateParts)) ∧ ((flying (.lateSload 4 lateParts)).readParts 0 .thread lateParts).2.1 = none) ∧
    ((flying (.lateHold 0 0x2000)).flight? 7 = some (flight (.lateHold 0 0x2000)) ∧ (flying (.lateHold 0 0x2000)).team? 0 = some placedTeam ∧
      placedTeam.hold.find? (·.part == 0) = some ⟨0, [], []⟩ ∧ MemOk (flying (.lateHold 0 0x2000))) ∧
    (flying (.sload 4 9)).flight? 7 = some (flight (.sload 4 9)) ∧ (flying (.sload 0 9)).flight? 7 = some (flight (.sload 0 9)) :=
  ⟨⟨_, rfl, rfl, rfl, by decide⟩, by decide, by decide, ⟨by decide, by decide, by decide⟩, ⟨by decide, by decide⟩, ⟨by decide, by decide, by decide, ⟨by decide, by decide, by decide, by simp only [TeamMemOk]; decide, by simp only [TeamMemOk]; decide⟩⟩, by decide, by decide⟩

/-- A lane parked on an access whose line is present now. -/
def parked (op : ParkedOp) : State :=
  team0 (fun m => { m with mem := m.mem.write 64 (leBytes 8 0x20008) }) (thread0 (fun t => { t with wait := .line op, depth := 1 }) (placed .nop))

theorem witness_parked : ∀ op ∈ ([.ldl 64 16 [8, 9, 10, 11], .ldt [some 64, none, none, some 80] 0 [8, 9, 10, 11], .ret 64 0x10000] : List ParkedOp),
    ((parked op).group? 0 0 0).any (fun g => (g.thread? 0).any (·.wait == .line op) && ((parked op).launch? g.launch).any (·.stop.isNone) &&
      op.ranges.all (fun r => (parked op).present g.team r.1 r.2 && !((parked op).scrRead g.team r.1 r.2).2) &&
      (op.badReturn fun off n => ((parked op).scrRead g.team off n).1).isNone) = true := by decide

/-- A parked lane whose line is absent, and one whose launch has stopped: each stays. -/
theorem witness_parked_stays :
    (let s := team0 (fun m => { m with absent := [0] }) (parked (.ldl 64 16 [8, 9, 10, 11]))
     (s.group? 0 0 0).any (fun g => (g.thread? 0).any (·.wait == .line (.ldl 64 16 [8, 9, 10, 11])) && s.present g.team 64 16 == false)) = true ∧
    (let s := (parked (.ldl 64 16 [8, 9, 10, 11])).updLaunch 0 fun l => { l with stop := some ⟨8, false, 0⟩ }
     (s.group? 0 0 0).any (fun g => (s.launch? g.launch).any (·.stop.isSome))) = true := by decide

/-- EXIT beside a group that waits for a barrier which the end completes, and beside one that waits for the grid barrier. -/
theorem witness_exit_completes :
    (∃ e, Clear (bar 15 ⟨0, some 3, [(1, 1)], [1]⟩ (twoGroups (fun t => { t with wait := .barrier 15 0 }) (issued .exit))) .exit e (e.meldConds true) ∧
      (e.team.bars.length = 16 ∧ e.lanes = [0])) ∧
    ∃ e, Clear ((resident (twoGroups (fun t => { t with wait := .gbar 0 }) (issued .exit))).updLaunch 0 fun l => { l with gbarArrived := [(0, 1, 1)] }) .exit e
      (e.meldConds true) ∧ e.l.gbarArrived ≠ [] :=
  ⟨clear_and (by decide), clear_and (by decide)⟩

/-- A current issue whose lanes have all gone on, in a group that counts its issues (R249), and a CU of sixteen berths. -/
theorem witness_counted :
    ((thread0 (fun t => { t with pc := 0x10004 }) (issued .nop)).cur.any fun iss => (thread0 (fun t => { t with pc := 0x10004 }) (issued .nop)).group? iss.cu iss.part iss.slot |>.any
      fun g => iss.took g) = true ∧ (issued .nop).cu? 0 = some placedCu ∧ placedCu.berths.length = 16 := by decide

/-! ### Witnesses: matrix operations, the hold, HDRN, PILOT and MCHK -/

/-- A machine with a slot of 8-bit kinds, or with a sparse one, and a matrix word current. -/
def arrayed (sparse : Bool) (i : Instr) : State := slots ⟨5, if sparse then 12 else 5, 0x3F800000, 0x3F800000, []⟩ (issued i)

/-- What the statements about MMA, MMAH and MMAS ask. -/
def MmaMeets (i : Instr) (sparse : Bool) (tile : Option (BitVec 5)) (s : State) (q : Env → Nat → Nat → Prop) : Prop :=
  ∃ e, Clear s i e ((tile.elim [] fun t => e.tileConds (Taking e i) t true) ++
      e.spanConds (Taking e i) ((sword e 1).toNat % 2 ^ 32) (mmaTB sparse (slotAt e.l.slots 1)) false) ∧
    q e ((sword e 1).toNat % 2 ^ 32) (mmaTB sparse (slotAt e.l.slots 1))

theorem read_nil (a n : Nat) : Mem.read [] a n = List.replicate n 0 := by
  rw [Mem.read_eq]
  show (List.range n).map (fun _ => (0 : Byte)) = _
  simp

theorem scrRead_empty {s : State} {k : Nat} (off n : Nat) (h : (s.team? k).map (·.mem) = some []) : (s.scrRead k off n).1 = List.replicate n 0 := by
  unfold State.scrRead
  cases ht : s.team? k with
  | none => simp [ht] at h
  | some t => simp only [ht, Option.map_some, Option.some.injEq] at h; simp only [h, read_nil]

/-- An empty tile has no malformed line. -/
theorem firstMalformed_zeros : firstMalformed (List.replicate 8192 0) = none := by
  have line : sparseMalformed (List.replicate 128 0) = false := by decide
  unfold firstMalformed
  rw [Option.map_eq_none_iff, List.find?_eq_none]
  intro n hn
  rw [List.mem_range] at hn
  rw [List.drop_replicate, List.take_replicate, Nat.min_eq_left (by omega), line]
  decide

theorem witness_matrix_starts :
    MmaMeets (.mma 0 64 1 1 0 false) false none (unguarded (arrayed false (.mma 0 64 1 1 0 false))) (fun e _ _ => Taking e (.mma 0 64 1 1 0 false) = []) ∧
    MmaMeets (.mma 0 64 1 1 0 false) false none (team0 (fun m => { m with absent := [0] }) (arrayed false (.mma 0 64 1 1 0 false)))
      (fun e base n => Taking e (.mma 0 64 1 1 0 false) ≠ [] ∧ e.s.present e.team.id base n = false) ∧
    MmaMeets (.mma 0 64 1 1 0 false) false none (arrayed false (.mma 0 64 1 1 0 false))
      (fun e base n => Taking e (.mma 0 64 1 1 0 false) ≠ [] ∧ e.s.present e.team.id base n = true ∧ (e.s.scrRead e.team.id base n).2 = false) ∧
    MmaMeets (.mmah 0 64 1 1 0 false) false (some 0) (arrayed false (.mmah 0 64 1 1 0 false))
      (fun e base n => Taking e (.mmah 0 64 1 1 0 false) = [0] ∧ e.s.present e.team.id base n = true ∧ (e.s.scrRead e.team.id base n).2 = false ∧
        (e.s.holdPart e.team.id e.iss.part).badCols 0 0 = []) ∧
    MmaMeets (.mmas 0 64 1 1 0 false) true none (arrayed true (.mmas 0 64 1 1 0 false))
      (fun e base n => Taking e (.mmas 0 64 1 1 0 false) ≠ [] ∧ e.s.present e.team.id base n = true ∧ (e.s.scrRead e.team.id base n).2 = false ∧
        n = 8192 ∧ (e.s.team? e.team.id).map (·.mem) = some [] ∧ e.s.upset ≠ some .line) :=
  ⟨clear_and (by decide), clear_and (by decide), clear_and (by decide), clear_and (by decide), clear_and (by decide)⟩

/-- A matrix operation of two rows, into registers and into a tile. -/
def sums (tile : Option Nat) : MmaOp :=
  { sparse := false, slot := ⟨5, 5, 0x3F800000, 0x3F800000, []⟩, tile := tile, dreg := 0, arows := [(0, []), (31, [])], accs := [], b := [], aregs := [],
    locked := true }

theorem witness_matrix_completes : ∀ tile ∈ [none, some 0],
    (flying (.mma (sums tile))).flight? 7 = some (flight (.mma (sums tile))) ∧ (flying (.mma (sums tile))).upset ≠ some .residue ∧
    ((sums tile).arows.map (·.1)).Nodup ∧ (∀ r ∈ (sums tile).arows, r.1 < 32) ∧ (sums tile).locked = true ∧
    (((flying (.mma (sums tile))).team? 0).bind fun t => t.hold.find? (·.part == 0)).isSome = true := by decide

theorem witness_hold_moves :
    (∃ e, Clear (issued (.hldReg 0 64 0)) (.hldReg 0 64 0) e (e.tileConds (Taking e (.hldReg 0 64 0)) 0 true) ∧
      (e.team.hold.find? (·.part == e.iss.part) = some ⟨0, [], []⟩ ∧ Taking e (.hldReg 0 64 0) = [0])) ∧
    (∃ e, Clear (issued (.hstReg 0 64 0)) (.hstReg 0 64 0) e (e.tileConds (Taking e (.hstReg 0 64 0)) 0 false) ∧
      ∀ n ∈ Taking e (.hstReg 0 64 0), ((issued (.hstReg 0 64 0)).holdPart e.team.id e.iss.part).badCols 0 n = []) ∧
    (∃ e, Clear (sreg 1 0x1E000 (issued (.hldScratch 0 1 0))) (.hldScratch 0 1 0) e (e.tileConds (Taking e (.hldScratch 0 1 0)) 0 true ++
        e.spanConds (Taking e (.hldScratch 0 1 0)) ((sword e 1).toNat % 2 ^ 32) 8192 false) ∧
      (e.team.hold.find? (·.part == e.iss.part) = some ⟨0, [], []⟩ ∧ Taking e (.hldScratch 0 1 0) = [0] ∧ e.s.present e.team.id 0x1E000 8192 = true)) ∧
    (∃ e, Clear (team0 (fun m => { m with absent := [0] }) (issued (.hldScratch 0 1 0))) (.hldScratch 0 1 0) e (e.tileConds (Taking e (.hldScratch 0 1 0)) 0 true ++
        e.spanConds (Taking e (.hldScratch 0 1 0)) ((sword e 1).toNat % 2 ^ 32) 8192 false) ∧
      (Taking e (.hldScratch 0 1 0) = [0] ∧ e.s.present e.team.id 0 8192 = false)) ∧
    (∃ e, Clear (unguarded (issued (.hldScratch 0 1 0))) (.hldScratch 0 1 0) e (e.tileConds (Taking e (.hldScratch 0 1 0)) 0 true ++
        e.spanConds (Taking e (.hldScratch 0 1 0)) ((sword e 1).toNat % 2 ^ 32) 8192 false) ∧ Taking e (.hldScratch 0 1 0) = []) ∧
    (∃ e, Clear (sreg 1 0x1E000 (issued (.hstScratch 0 1 0))) (.hstScratch 0 1 0) e (e.tileConds (Taking e (.hstScratch 0 1 0)) 0 false ++
        e.spanConds (Taking e (.hstScratch 0 1 0)) ((sword e 1).toNat % 2 ^ 32) 8192 true) ∧ Taking e (.hstScratch 0 1 0) = [0]) ∧
    ∃ e, Clear (issued (.hzero 0 0)) (.hzero 0 0) e (e.tileConds (Taking e (.hzero 0 0)) 0 true) ∧
      (e.team.hold.find? (·.part == e.iss.part) = some ⟨0, [], []⟩ ∧ Taking e (.hzero 0 0) = [0]) :=
  ⟨clear_and (by decide), clear_and (by decide), clear_and (by decide), clear_and (by decide), clear_and (by decide), clear_and (by decide),
    clear_and (by decide)⟩

/-- HDRN with gradients in tile 0, its state in tile 1, its weights at scratchpad 0x1E000. -/
def weighing (fn : Nat) (i : Instr) : State :=
  header (fun h => { h with ht := 2 }) (sreg 4 (if fn = 0 then 0x1E000 else 0x201E000) (issued i))

theorem witness_hdrn_starts :
    (∃ e, Clear (weighing 0 (.hdrn 4 6 10 0)) (.hdrn 4 6 10 0) e
      (e.hdrnConds (hdrnFields 0 (sword e 4) (sword e 6) (sword e 10)) (sword e 4).toNat (Taking e (.hdrn 4 6 10 0))) ∧ Taking e (.hdrn 4 6 10 0) = [0]) ∧
    (∃ e, Clear (weighing 1 (.hdrnMom 4 6 10 0)) (.hdrnMom 4 6 10 0) e
      (e.hdrnConds (hdrnFields 1 (sword e 4) (sword e 6) (sword e 10)) (sword e 4).toNat (Taking e (.hdrnMom 4 6 10 0))) ∧ Taking e (.hdrnMom 4 6 10 0) = [0]) ∧
    ∃ e, Clear (weighing 2 (.hdrnSq 4 6 10 0)) (.hdrnSq 4 6 10 0) e
      (e.hdrnConds (hdrnFields 2 (sword e 4) (sword e 6) (sword e 10)) (sword e 4).toNat (Taking e (.hdrnSq 4 6 10 0))) ∧ Taking e (.hdrnSq 4 6 10 0) = [0] :=
  ⟨clear_and (by decide), clear_and (by decide), clear_and (by decide)⟩

/-- An HDRN whose completion is due, with nothing marked and nothing in its way. -/
def updating (fn : Nat) : HdrnOp := hdrnFields fn (if fn = 0 then 0x1E000 else 0x201E000) 0 0

theorem witness_hdrn_completes : ∀ fn ∈ [0, 1, 2],
    let s := flying (.hdrn (updating fn))
    s.flight? 7 = some (flight (.hdrn (updating fn))) ∧ s.team? 0 = some placedTeam ∧ s.cu? placedTeam.cu = some placedCu ∧
    placedTeam.hold.find? (·.part == 0) = some ⟨0, [], []⟩ ∧ s.linesReady 7 0 (updating fn).waddr 8192 .dest = true ∧
    s.landingHeld 7 0 (updating fn).waddr 8192 = false ∧ s.tileBefore (flight (.hdrn (updating fn))) (updating fn).tiles = false ∧
    (∀ c ∈ s.cus, ∀ k ∈ c.locks, k.owner = 7 → k.skip = []) ∧ placedTeam.bad = [] := by decide

/-- Tiles and scratchpad without a mark. -/
theorem witness_unmarked (a b off n : Nat) :
    (((⟨0, [], []⟩ : HoldPart).tile a ++ (⟨0, [], []⟩ : HoldPart).tile b ++ (flying (.hdrn (updating 1))).scrMarked 0 off n).all fun x => !x.2) = true := by
  have ht : (flying (.hdrn (updating 1))).team? 0 = some placedTeam := by decide
  simp only [List.all_append, HoldPart.tile, State.scrMarked, ht, Bool.and_eq_true]
  refine ⟨⟨?_, ?_⟩, ?_⟩ <;> rw [List.all_map, List.all_eq_true] <;> intro x _ <;> simp [marked, placedTeam]

/-- PILOT of 64 rows with r = d = 32: x at scratchpad 0, the manifest at 0x1000, P1 and P2 in memory. -/
def piloting (i : Instr) : State :=
  sreg 4 ((31 <<< 54) ||| (31 <<< 40) ||| (0x1000 <<< 20)) (sreg 5 ((64 <<< 32) ||| (1 <<< 16) ||| 63) (sreg 6 0x20000 (sreg 10 0x30000 (arrayed false i))))

theorem witness_pilot_starts : ∀ v ∈ [(Instr.pilotGt 4 6 10 0, false), (Instr.pilotTop 4 6 10 0, true)],
    ((piloting v.1).env?.any fun e => clearAt e v.1 (e.pilotConds { pilotFields v.2 (sword e 4) (BitVec.ofNat 64 (e.sv 5)) e.l.slots (.mem 0) (.mem 0) with
      p1 := .mem 0, p2 := .mem 0 } (sword e 4).toNat (e.sv 5) (e.sv 6) (e.sv 10) (Taking e v.1)) && Taking e v.1 == [0] &&
      (e.sampled (e.advance (e.shape v.1)) [(e.sv 6 : Int), (e.sv 10 : Int)]).1.marked == []) = true := by decide

/-- MCHK of 64 rows with d = 32: x at 0, the prediction at 0x1000, the repair manifest at 0x2000, the weights in memory. -/
def checking (i : Instr) : State :=
  sreg 4 ((31 <<< 40) ||| (0x1000 <<< 20)) (sreg 5 ((1 <<< 40) ||| (0x2000 <<< 20) ||| (1 <<< 16) ||| 63) (sreg 10 0x20000 (arrayed false i)))

theorem witness_mchk_starts : ((checking (.mchk 4 10 14 0)).env?.any fun e =>
    clearAt e (.mchk 4 10 14 0) (e.mchkConds (mchkFields (sword e 4) (sword e 5) (sword e 6) (sword e 7) 14 e.l.slots (.mem 0))
      (fun k => (BitVec.ofNat 64 (e.sv (4 + k))).toNat) (e.sv 10) (Taking e (.mchk 4 10 14 0))) && Taking e (.mchk 4 10 14 0) == [0] &&
      (e.sampled (e.advance (e.shape (.mchk 4 10 14 0))) [(e.sv 10 : Int)]).1.marked == []) = true := by decide

/-- A PILOT and an MCHK in flight, before and after they have read their sources. -/
def selecting (x : Option (List Byte)) : PilotOp :=
  { pilotFields false ((31 <<< 54) ||| (31 <<< 40) ||| (0x1000 <<< 20)) ((64 <<< 32) ||| 63) (List.replicate 8 ⟨5, 5, 0x3F800000, 0x3F800000, []⟩)
    (.mem 0x20000) (.mem 0x30000) with x := x }
def repairing (x map : Option (List Byte)) : MchkOp :=
  { mchkFields ((31 <<< 40) ||| (0x1000 <<< 20)) ((1 <<< 40) ||| (0x2000 <<< 20) ||| 63) 0 0 14 (List.replicate 8 ⟨5, 5, 0x3F800000, 0x3F800000, []⟩)
    (.mem 0x20000) with x := x, map := map }

theorem witness_sources :
    (flying (.pilot (selecting none))).flight? 7 = some (flight (.pilot (selecting none))) ∧
    (flying (.pilot (selecting none))).linesReady 7 0 (selecting none).xaddr 64 .src = true ∧
    ((flying (.pilot (selecting none))).scrRead 0 (selecting none).xaddr 64).2 = false ∧
    (flying (.mchk (repairing none none))).flight? 7 = some (flight (.mchk (repairing none none))) ∧
    (flying (.mchk (repairing none none))).linesReady 7 0 (repairing none none).maddr (manMB 64) .src = true ∧
    ((flying (.mchk (repairing none none))).scrRead 0 (repairing none none).maddr (manMB 64)).2 = false := by decide

theorem witness_selections :
    (let s := flying (.pilot (selecting (some [])))
     s.flight? 7 = some (flight (.pilot (selecting (some [])))) ∧ s.launch? 0 = some placedLaunch ∧ s.team? 0 = some placedTeam ∧ s.cu? 0 = some placedCu ∧
     s.upset ≠ some .residue ∧ (∀ c ∈ s.cus, ∀ k ∈ c.locks, k.owner = 7 → k.skip = []) ∧ s.landingHeld 7 0 0x1000 (manMS 64) = false ∧
     readsClean (s.engineRead 0 placedLaunch .home (.mem 0x20000) (selecting none).p1Bytes) = true ∧
     readsClean (s.engineRead 0 placedLaunch .home (.mem 0x30000) (selecting none).p2Bytes) = true) ∧
    (let s := flying (.mchk (repairing (some []) (some [])))
     s.flight? 7 = some (flight (.mchk (repairing (some []) (some [])))) ∧ s.landingHeld 7 0 0x2000 (manMS 64) = false ∧
     readsClean (s.engineRead 0 placedLaunch .home (.mem 0x20000) (repairing none none).wBytes) = true) := by decide

/-! ### Witnesses: view commands and copies -/

theorem witness_view_starts :
    (∃ e, Clear (sreg 6 0x30000 (issued (.vset 4 6 10 0))) (.vset 4 6 10 0) e (viewOperand e (.vset 4 6 10 0) 4 ++
        condIf (!canonical (e.sv (6 : BitVec 6).toNat) || isView (e.sv (6 : BitVec 6).toNat)) 0x10 (e.low (Taking e (.vset 4 6 10 0))) ++
        condIf (e.sv (6 : BitVec 6).toNat % 128 != 0) 0x11 (e.low (Taking e (.vset 4 6 10 0)))) ∧
      (sreg 6 0x30000 (issued (.vset 4 6 10 0))).translate e.iss.cu e.l.ctx (e.sv 6) .read = .ok ⟨.dram, 0x30000⟩) ∧
    (∃ e, Clear (sreg 4 0x7FFF (issued (.vbase 4 6 10 0))) (.vbase 4 6 10 0) e (viewOperand e (.vbase 4 6 10 0) 4) ∧ Taking e (.vbase 4 6 10 0) = [0]) ∧
    (∃ e, Clear (sreg 6 0xFFFFFFFFFF (issued (.vqry 4 6 10 0))) (.vqry 4 6 10 0) e (viewOperand e (.vqry 4 6 10 0) 4 ++
      condIf ((sword e 6).extractLsb' 40 24 != 0) 0x17 (e.low (Taking e (.vqry 4 6 10 0)))) ∧
      ((sreg 6 0xFFFFFFFFFF (issued (.vqry 4 6 10 0))).sample e.iss.cu e.l.ctx ((sword e 4).extractLsb' 0 12).toNat).1 = some none) ∧
    ∃ e, Clear (issued (.vinv 4 0)) (.vinv 4 0) e (viewOperand e (.vinv 4 0) 4) ∧ Taking e (.vinv 4 0) = [0] :=
  ⟨clear_and (by decide), clear_and (by decide), clear_and (by decide), clear_and (by decide)⟩

/-- A view command in flight, with the image at 0x30000 and as view 3, and something else at 0x50000. -/
def viewing (v : ViewOp) : State := poke 0x30000 image (poke 0x50000 [1] (poke 0x200180 image (flying (.view v))))

/-- VSET: an accepted image of zeros, an accepted descriptor, and an image that is refused. -/
theorem witness_vset : ∀ x ∈ [(0x40000, true), (0x30000, true), (0x50000, false)],
    let v : ViewOp := ⟨0, 3, BitVec.ofNat 64 x.1, 0, 4, .thread, none⟩
    let s := viewing v
    let bs := (s.peek 0 .thread ⟨.dram, x.1⟩ 32).1 ++ (s.peek 0 .thread ⟨.dram, x.1 + 32⟩ 32).1 ++ (s.peek 0 .thread ⟨.dram, x.1 + 64⟩ 32).1 ++
      (s.peek 0 .thread ⟨.dram, x.1 + 96⟩ 32).1
    s.flight? 7 = some (flight (.view v)) ∧ s.translate 0 0 x.1 .read = .ok ⟨.dram, x.1⟩ ∧ (∀ n < 4, (s.peek 0 .thread ⟨.dram, x.1 + 32 * n⟩ 32).2 = false) ∧
    bs.length = 128 ∧ (if (viewOfBytes bs).valid then (viewOfBytes bs).configured s.bar0.nodeid else bs.all (· == 0)) = x.2 := by decide

/-- VBASE: a view that is not configured or of another version, a base that is refused, and one that is accepted. -/
theorem witness_vbase : ∀ x ∈ [(4, 5, 0x20000, false, true), (3, 6, 0x20000, false, true), (3, 5, 0x20001, true, false), (3, 5, 0x40000, true, true)],
    let v : ViewOp := ⟨1, x.1, BitVec.ofNat 64 x.2.2.1, BitVec.ofNat 64 x.2.1, 4, .thread, none⟩
    let s := viewing v
    let r := s.loadPhys (s.viewEntry 0 x.1) 128
    s.flight? 7 = some (flight (.view v)) ∧ r.2 = false ∧ (viewOfBytes r.1).baseOk (if x.1 = 3 then x.2.2.1 else 0) = x.2.2.2.2 ∧
    ((viewOfBytes r.1).configured s.bar0.nodeid && (viewOfBytes r.1).version == v.ec.setWidth 32) = x.2.2.2.1 := by decide

/-- VQRY: an unconfigured view, an offset beyond the extent, and elements inside. -/
theorem witness_vqry :
    (let v : ViewOp := ⟨3, 4, 0, 0, 4, .thread, none⟩; (viewing v).flight? 7 = some (flight (.view v)) ∧ v.sampled = none) ∧
    (viewOfBytes image).coords 64 = none ∧ (viewOfBytes image).coords 61 = some ([15], 1) ∧
    (viewOfBytes image).indexAddr [15] = none ∧ (viewOfBytes image).place [15] 1 0 = .at_ 0x2003D := by decide +kernel

/-- The sample that VQRY takes at its issue: of a view that is configured, of one that is not, and of one that the CU has a copy of. -/
theorem witness_samples :
    (∀ x ∈ [(3, some (viewOfBytes image)), (4, none)], (poke 0x200180 image (placed .nop)).viewCache.find? (·.view == x.1) = none ∧
      ((poke 0x200180 image (placed .nop)).loadPhys ⟨.dram, 0x200000 + 128 * x.1⟩ 128).2 = false ∧
      ((poke 0x200180 image (placed .nop)).sample 0 0 x.1).1 = some x.2) ∧
    (placed .nop).ctx? 0 ≠ none ∧ ({ placed .nop with viewCache := [⟨0, 0, 4, image⟩] } : State).viewCache.find? (fun v => v.cu == 0 && v.ctx == 0 && v.view == 4) = some ⟨0, 0, 4, image⟩ ∧
    ({ poke 0x200180 image (placed .nop) with dramBad := [0x200180] }.loadPhys ⟨.dram, 0x200180⟩ 128).2 = true := by decide +kernel

/-- A CPY with a lane and without one, a CPYM with a team and without one, CPYO, CPYRW and CSIG. -/
theorem witness_copies_start :
    (∃ e, Clear (based 0x20010 (.cpy 8 14 1 0 .sixteen)) (.cpy 8 14 1 0 .sixteen) e
        ((e.cpyLanes 8 14 1).flatMap fun x => rangeConds (e.sampled (based 0x20010 (.cpy 8 14 1 0 .sixteen)) ((e.cpyLanes 8 14 1).map (·.2.1))).1 x.1 16 16 x.2.1 ++
          e.scrConds 16 16 false [(x.1, (x.2.2 : Int))]) ∧
      ((e.sampled (e.advance (e.shape (.cpy 8 14 1 0 .sixteen))) ((e.cpyLanes 8 14 1).map (·.2.1))).1.marked = [] ∧ e.team.cu = e.iss.cu ∧
        (e.cpyLanes 8 14 1).length = 1)) ∧
    (∃ e, Clear (unguarded (based 0x20010 (.cpy 8 14 1 0 .sixteen))) (.cpy 8 14 1 0 .sixteen) e
        ((e.cpyLanes 8 14 1).flatMap fun x => rangeConds (e.sampled (unguarded (based 0x20010 (.cpy 8 14 1 0 .sixteen))) ((e.cpyLanes 8 14 1).map (·.2.1))).1 x.1 16 16 x.2.1 ++
          e.scrConds 16 16 false [(x.1, (x.2.2 : Int))]) ∧ e.cpyLanes 8 14 1 = []) ∧
    (∀ c ∈ ([(0, false), (0x0101, true)] : List (Word64 × Bool)), ∃ e, Clear (sreg 10 c.1 (sreg 6 0x1000000040 (sreg 4 0x20010 (issued (.cpym 4 6 10 0))))) (.cpym 4 6 10 0) e
        (rangeConds (e.sampled (sreg 10 c.1 (sreg 6 0x1000000040 (sreg 4 0x20010 (issued (.cpym 4 6 10 0))))) [(e.sv (4 : BitVec 6).toNat : Int)]).1
            (e.low (Taking e (.cpym 4 6 10 0))) 16 (goodLen (e.sv (6 : BitVec 6).toNat)) (e.sv (4 : BitVec 6).toNat) ++
          e.rangeIn (Taking e (.cpym 4 6 10 0)) 0x40 0x10 16 ++
          condIf (badLen (e.sv (6 : BitVec 6).toNat) || (sword e 10).extractLsb' 16 48 != 0) 0x17 (e.low (Taking e (.cpym 4 6 10 0)))) ∧
      ((e.castTeams (e.sv 10)).map (·.id) = if c.2 then [0] else [])) ∧
    (∃ e, Clear (sreg 6 0x1000000040 (sreg 4 0x20010 (issued (.cpyo 4 6 0)))) (.cpyo 4 6 0) e
        (condIf (!canonical (e.sv (4 : BitVec 6).toNat) || isView (e.sv (4 : BitVec 6).toNat) ||
            !canonical (e.sv (4 : BitVec 6).toNat + goodLen (e.sv (6 : BitVec 6).toNat) - 1) ||
            isView (e.sv (4 : BitVec 6).toNat + goodLen (e.sv (6 : BitVec 6).toNat) - 1)) 0x10 (e.low (Taking e (.cpyo 4 6 0))) ++
          condIf (e.sv (4 : BitVec 6).toNat % 16 != 0) 0x11 (e.low (Taking e (.cpyo 4 6 0))) ++ e.rangeIn (Taking e (.cpyo 4 6 0)) 0x40 0x10 16 ++
          condIf (badLen (e.sv (6 : BitVec 6).toNat)) 0x17 (e.low (Taking e (.cpyo 4 6 0)))) ∧ Taking e (.cpyo 4 6 0) = [0]) ∧
    ∃ e, Clear (sreg 4 4095 (issued (.csig 4 6 0))) (.csig 4 6 0) e (condIf ((sword e 4).extractLsb' 15 49 != 0) 0x17 (e.low (Taking e (.csig 4 6 0)))) ∧
      Taking e (.csig 4 6 0) = [0] :=
  ⟨clear_and (by decide), clear_and (by decide), by
    intro c hc
    rcases List.mem_cons.mp hc with rfl | hc
    · exact clear_and (by decide)
    · obtain rfl := List.mem_singleton.mp hc
      exact clear_and (by decide), clear_and (by decide), clear_and (by decide)⟩

/-- A CPYRW of 64 rows: the manifest at scratchpad 0x1000, up to two rows of 16 bytes to 0x100. -/
def rowed (i : Instr) : State := sreg 4 0x20000 (sreg 6 ((64 <<< 40) ||| (0x100 <<< 20) ||| 0x1000) (sreg 10 ((2 <<< 48) ||| (16 <<< 32) ||| 32) (issued i)))

theorem witness_row_copy : ∃ e, Clear (rowed (.cpyrw 4 6 10 0)) (.cpyrw 4 6 10 0) e
    (condIf (!canonical (e.sv (4 : BitVec 6).toNat)) 0x10 (e.low (Taking e (.cpyrw 4 6 10 0))) ++
      condIf (canonical (e.sv (4 : BitVec 6).toNat) && ((e.sampled (rowed (.cpyrw 4 6 10 0)) [(e.sv (4 : BitVec 6).toNat : Int)]).1.ref (e.sv (4 : BitVec 6).toNat)).isNone &&
        !(e.sampled (rowed (.cpyrw 4 6 10 0)) [(e.sv (4 : BitVec 6).toNat : Int)]).1.marked.contains (viewNum (e.sv (4 : BitVec 6).toNat))) 0x14 (e.low (Taking e (.cpyrw 4 6 10 0))) ++
      condIf (e.team.scr < 0x100 + 2 * 16 || e.team.scr < 0x1000 + manMS 64) 0x12 (e.low (Taking e (.cpyrw 4 6 10 0))) ++
      condIf ((rowCopyOf (e.sv 6) (e.sv 10) (.mem 0)).badField (e.sv (6 : BitVec 6).toNat)) 0x17 (e.low (Taking e (.cpyrw 4 6 10 0)))) ∧
    ((e.sampled (e.advance (e.shape (.cpyrw 4 6 10 0))) [(e.sv 4 : Int)]).1.marked = [] ∧ e.team.cu = e.iss.cu) := clear_and (by decide)

/-- Copies in flight: a CPYM whose line may land, a CPYO with a line to write, one that owes nothing. -/
def copying : CopyOp :=
  { kind := .cpym, pieces := [⟨.mem 0x20000, 0x40, 0x10⟩], rows := none, targets := [0], todo := [(0, 0)], counter := some (5, .die), buf := [] }
def storing : CopyOp :=
  { kind := .cpyo, pieces := [⟨.mem 0x20FF0, 0x40, 0x10⟩], rows := none, targets := [0], todo := [(0, 0)], counter := none, buf := [] }

theorem witness_lands :
    let s := flying (.copy copying)
    let f := flight (.copy copying)
    let whole := copying.pieces.filter fun p => (p.inLine 0).isSome
    s.flight? 7 = some f ∧ copying.kind ≠ .cpyo ∧ s.launch? 0 = some placedLaunch ∧ s.team? 0 = some placedTeam ∧ s.cu? placedTeam.cu = some placedCu ∧
    (0, 0) ∈ copying.todo ∧ s.behindStalled f = false ∧ s.opened f copying = some (.ok copying) ∧
    whole.filterMap (·.inLine 0) = [⟨.mem 0x20000, 0x40, 0x10⟩] ∧ s.landingHeld 7 0 0x40 0x10 = false ∧ lookupKey copying.buf 0 = none ∧
    whole.findSome? Piece.badAddr = none ∧ readsClean (s.readPieces 0 placedLaunch .home (whole.filterMap (·.inLine 0))) = true ∧
    (∀ c ∈ s.cus, ∀ k ∈ c.locks, k.owner = 7 → k.skip = []) := by decide

/-- A CPYM of two runs, the second over part of the first, into an absent line. -/
def twoRuns : CopyOp := { copying with pieces := [⟨.mem 0x20000, 0x40, 0x10⟩, ⟨.mem 0x21000, 0x44, 4⟩] }

theorem witness_runs_land :
    let s := team0 (fun m => { m with absent := [0] }) (flying (.copy twoRuns))
    let f := flight (.copy twoRuns)
    let ps := twoRuns.pieces.filterMap (·.inLine 0)
    s.flight? 7 = some f ∧ (∃ m, s.team? 0 = some m ∧ m.cu = 0) ∧ s.opened f twoRuns = some (.ok twoRuns) ∧ ps = [⟨.mem 0x20000, 0x40, 0x10⟩] ++ ⟨.mem 0x21000, 0x44, 4⟩ :: [] ∧
    (∀ p ∈ ps, s.landingHeld 7 0 p.scr p.len = false) ∧ readsClean (s.readPieces 0 placedLaunch .home ps) = true ∧
    (∀ g ∈ s.groups, ∀ k x op, g.thread? k = some x → x.wait = .line op → ∃ r ∈ op.ranges, s.present g.team r.1 r.2 = false) := by
  refine ⟨by decide, ⟨_, rfl, rfl⟩, by decide, by decide, by decide, by decide, ?_⟩
  intro g hg k x op hk hw
  have h : (∀ g ∈ (placed .nop).groups, ∀ o ∈ g.threads, ∀ x, o = some x → x.wait = .ready) := by decide
  simp only [Group.thread?, Option.join_eq_some_iff] at hk
  rw [h g hg _ (List.mem_of_getElem? hk) x rfl] at hw
  cases hw

theorem witness_stores_line :
    let s := flying (.copy storing)
    let f := flight (.copy storing)
    s.flight? 7 = some f ∧ storing.kind = .cpyo ∧ s.launch? 0 = some placedLaunch ∧ (0, 0) ∈ storing.todo ∧
    (storing.pieces.findSome? fun p => p.inLine 0) = some ⟨.mem 0x20FF0, 0x40, 0x10⟩ ∧ lookupKey storing.buf 0 = none ∧
    s.linesReady 7 0 (128 * 0) 128 .src = true ∧ s.translate f.cu f.ctx 0x20FF0 .write = .ok ⟨.dram, 0x20FF0⟩ ∧ 0x20FF0 % 4096 + 0x10 ≤ 4096 ∧
    storing.unread ≠ [] ∧ (∀ x ∈ storing.unread, s.linesReady 7 x.1 (128 * x.2) 128 .src = true) := by decide

theorem witness_copy_ends : ∀ c ∈ [{ copying with todo := [] }, { copying with pieces := [] }],
    (flying (.copy c)).flight? 7 = some (flight (.copy c)) ∧ (flying (.copy c)).opened (flight (.copy c)) c = some (.ok c) ∧
    ∀ x ∈ c.todo, c.owes x.1 = false := by decide

/-! ### Witnesses: late accesses -/

/-- One of them lands; a store to the scratchpad lands. -/
def landing (k : Nat) : State := { flying heldBack with port2 := none, agenda := [.landStore 7 k] }
def heldLocal : FlightOp := .lateStore false [⟨0, 0, .scr 0 64, [(1, false), (2, false)]⟩]

theorem witness_late_stores :
    (∀ k ∈ [0, 1], (landing k).port2 = none ∧ (landing k).upset ≠ some .write ∧ (landing k).agenda = .landStore 7 k :: [] ∧
      ((landing k).flight? 7 == some (flight heldBack)) = true ∧ LateStore.meets ⟨0, 0, .mem ⟨.dram, 0x20000⟩, List.replicate 4 (0, false)⟩ (.mem ⟨.dram, 0x20004⟩) 4 = false) ∧
    (let s : State := { flying heldLocal with port2 := none, agenda := [.landStore 7 0] }
     s.port2 = none ∧ s.upset ≠ some .write ∧ s.agenda = .landStore 7 0 :: [] ∧ (s.flight? 7 == some (flight heldLocal)) = true ∧ s.team? 0 = some placedTeam) := by decide

/-- Words that each order lets pass or not, with only stores to memory held back. -/
theorem witness_orders :
    (∀ i ∈ ([.bar 15 4, .fence .acqRel .die, .fence .acquire .die, .fence .release .die, .nop, .stl 8 14 1 0 .d] : List Instr),
      ((holding i).env?.any fun e => ((e.settleIndex i).env?).isSome) = true ∧ ((holding i).flights.map (·.id)).Nodup) ∧
    (∀ f ∈ (holding .nop).flights, f.op.isLate = true → ∃ z ls, f.op = .lateStore z ls ∧ ∀ l ∈ ls, ∃ p, l.place = .mem p) ∧
    ((sreg 1 0x20000 (holding (.ldW 8 14 1 0 .thread false))).env?.any fun e =>
      (e.names (.ldW 8 14 1 0 .thread false)).flatMap e.places == [(.mem ⟨.dram, 0x20000⟩, 4)]) = true := by
  refine ⟨by decide, ?_, by decide⟩
  intro f hf _
  obtain rfl := List.mem_singleton.mp hf
  refine ⟨_, _, rfl, ?_⟩
  intro l hl
  simp only [List.mem_cons, List.not_mem_nil, or_false] at hl
  rcases hl with rfl | rfl <;> exact ⟨_, rfl⟩

/-- A store that is held back becomes visible before a load of its bytes, and after an earlier load of others: the order of R328. -/
theorem test_late_store_waits_for_its_bytes :
    (((sreg 1 0x20000 (holding (.ldW 8 14 1 0 .thread false))).orderFor (.ldW 8 14 1 0 .thread false)).flights.isEmpty,
     ((sreg 1 0x21000 (holding (.ldW 8 14 1 0 .thread false))).orderFor (.ldW 8 14 1 0 .thread false)).flights.length) = (true, 1) := by decide

/-- What a release fence has met lands before a later store to the scratchpad, and stays held back before a load of other bytes (R335). -/
theorem test_fenced_store_lands_before_later_writes :
    (let s := { holding (.stl 8 14 1 0 .d) with flights := [{ flight heldBack with fenced := true }] }
     (s.orderFor (.stl 8 14 1 0 .d)).flights.isEmpty) = true ∧
    (let s := { holding .nop with flights := [{ flight heldBack with fenced := true }] }
     (s.orderFor .nop).flights.length) = 1 := by decide

/-! ### Witnesses: berths and the convoy -/

def deposit0 : Deposit := { key := 7, team := 0, thread := 0, owner := 0, arrival := 0, payload := List.replicate 8 1 }
def berth0 : Berth := { launch := 0, entry := 0x20000, entries := [deposit0], timer := true, due := [] }

/-- A launch that forms berths, with the entry address in s4; and one whose berths are all bound to another entry, with a ring. -/
def berthing (s : State) : State := sreg 4 0x20000 (header (fun h => { h with bregm := 1, btimer := 9 }) s)
def ringing (s : State) : State :=
  cu0 (fun c => { c with berths := List.replicate 16 (some { berth0 with entry := 0x30000 }) })
    (header (fun h => { h with ring := 0x60000, ringlog := 4 }) (berthing s))

theorem witness_deposits :
    (∃ e, Clear ((berthing (issued (.spawn 8 10 100 0))).updLaunch 0 fun l => { l with stop := some ⟨8, false, 0⟩ }) (.spawn 8 10 100 0) e
        (e.depositConds 100 (Taking e (.spawn 8 10 100 0))) ∧ e.l.stop ≠ none) ∧
    (∃ e, Clear (berthing (issued (.spawn 8 10 100 0))) (.spawn 8 10 100 0) e (e.depositConds 100 (Taking e (.spawn 8 10 100 0))) ∧
      (e.l.stop = none ∧ Taking e (.spawn 8 10 100 0) = [0] ∧ (made e 8 10 0).length ≤ (((berthing (issued (.spawn 8 10 100 0))).cu? e.iss.cu).map fun c => c.berthRoom e.l.id 0x20000).getD 0)) ∧
    (∃ e y, Clear (ringing (issued (.spawn 8 10 100 0))) (.spawn 8 10 100 0) e (e.depositConds 100 (Taking e (.spawn 8 10 100 0))) ∧
      (e.advance (e.shape (.spawn 8 10 100 0))).ringPtrs e.iss.cu e.l = .ok y ∧
      (y.isSome = true ∧ ((ringing (issued (.spawn 8 10 100 0))).cu? e.iss.cu).map (fun c => c.berthRoom e.l.id 0x20000) = some 0 ∧ (made e 8 10 0).length = 1 ∧
        okAnd ((e.advance (e.shape (.spawn 8 10 100 0))).ringPut e.iss.cu e.l 0x20000 (y.getD (0, 0)).2 (made e 8 10 0)) (fun _ => true) = true)) ∧
    ∃ e, Clear (berthing (issued (.park 80 10 100 0))) (.park 80 10 100 0) e (e.depositConds 100 (Taking e (.park 80 10 100 0)) ++
        (Taking e (.park 80 10 100 0)).filterMap fun k => if (e.thread k).any (·.melded) then some (laneCond 0x0A k) else none) ∧
      (e.l.stop = none ∧ Taking e (.park 80 10 100 0) = [0] ∧ (made e 80 10 0).length ≤ (((berthing (issued (.park 80 10 100 0))).cu? e.iss.cu).map fun c => c.berthRoom e.l.id 0x20000).getD 0) :=
  ⟨clear_and (by decide), clear_and (by decide), clear_map (by decide), clear_and (by decide)⟩

/-- A CU whose first berth holds an entry, while the launch's only thread runs and while it waits. -/
def berthed : State := cu0 (fun c => { c with berths := some berth0 :: List.replicate 15 none }) (placed .nop)

theorem witness_berth_launches :
    (berthed.berthLaunch 0 0).map (·.1) = some berth0 ∧ berth0.timer = true ∧ berth0.entries ≠ [] ∧
    (thread0 (fun t => { t with wait := .counter 5 }) berthed).runningOn 0 0 = false ∧
    ((thread0 (fun t => { t with wait := .counter 5 }) berthed).berthLaunch 0 0).map (·.1) = some berth0 := by decide

/-- A sub-ring with an entry at HEAD that a berth takes. -/
def ringed : State :=
  poke 0x60000 (leBytes 8 0 ++ leBytes 8 1) (poke 0x60040 (deposit0.ringBytes 0x20000) (header (fun h => { h with ring := 0x60000, ringlog := 4, bregm := 1 }) (placed .nop)))

theorem witness_ring_drain : (ringed.launch? 0).any (fun l => l.hdr.ring == 0x60000 && l.stop.isNone && !ringed.ringStalled 0 l &&
    okAnd (ringed.ringPtrs 0 l) (fun p => p == some (0, 1)) && numAt (ringed.loadPhys ⟨.dram, 0x60040⟩ 64).1 18 6 == 0 && ringed.translate 0 l.ctx (l.hdr.ring + 0 * (64 + 64 * 2 ^ l.hdr.ringlog) + 64 + 64 * (0 % 2 ^ l.hdr.ringlog)) .read == .ok ⟨.dram, 0x60040⟩ &&
    (ringed.cu? 0).any (fun c => 0 < c.berthRoom l.id (BitVec.ofNat 64 (numAt (ringed.loadPhys ⟨.dram, 0x60040⟩ 64).1 0 8))) &&
    okAnd (ringed.cuWrite 0 l.ctx (l.hdr.ring + 0 * (64 + 64 * 2 ^ l.hdr.ringlog)) (leBytes 8 1)) (fun _ => true)) = true := by decide

/-- A group that a berth has launched and that finds room. -/
def launched : State :=
  header (fun h => { h with bregm := 1 }) (cu0 (fun c => { c with berths := some { berth0 with entries := [], due := [[deposit0]] } :: List.replicate 15 none }) (placed .nop))

theorem witness_berth_group : (launched.berthLaunch 0 0).any (fun x => x.1.due == [[deposit0]] && deposit0.payload.length == 8 &&
    launched.team? deposit0.owner == some placedTeam &&
    (launched.berthPart 0 x.2 placedTeam (blockFor (8 * (x.2.hdr.bregm + 1)))).any fun r => (r.take (blockFor (8 * (x.2.hdr.bregm + 1)))).isSome) = true := by
  decide

/-- An all-reduce of 16 bytes of unsigned 32-bit numbers, from 0x20000 to 0x30000, with counter 5. -/
def reducing (i : Instr) : State := sreg 4 0x20000 (sreg 5 0x30000 (sreg 7 0x0200000000000010 (sreg 10 0x8005 (convoyed (issued i)))))

theorem witness_cvoy :
    (((reducing (.cvoy 4 10 14 0)).ctx? 0).map fun x => (reducing (.cvoy 4 10 14 0)).convoyGroup x 0) = some (.good ⟨2, 0, [0, 9]⟩) ∧
    ∃ e, Clear (reducing (.cvoy 4 10 14 0)) (.cvoy 4 10 14 0) e
      (condIf ((⟨e.sv 4, e.sv 5, e.sv 6, e.sv 7⟩ : ConvoyArgs).badAddr (some ⟨2, 0, [0, 9]⟩)) 0x10 (e.low (Taking e (.cvoy 4 10 14 0))) ++
        condIf (⟨e.sv 4, e.sv 5, e.sv 6, e.sv 7⟩ : ConvoyArgs).misaligned 0x11 (e.low (Taking e (.cvoy 4 10 14 0))) ++
        condIf ((⟨e.sv 4, e.sv 5, e.sv 6, e.sv 7⟩ : ConvoyArgs).badField (some ⟨2, 0, [0, 9]⟩) || (sword e 10).extractLsb' 16 48 != 0) 0x17
          (e.low (Taking e (.cvoy 4 10 14 0)))) ∧ (⟨e.sv 4, e.sv 5, e.sv 6, e.sv 7⟩ : ConvoyArgs).group = 0 :=
  ⟨by decide, clear_and (by decide)⟩

/-- The conditions of CVOY, with a good group, where its operand group has a bit that is reserved. -/
theorem witness_cvoy_traps :
    let s := sreg 10 0x18005 (reducing (.cvoy 4 10 14 0))
    ((s.env?.bind fun e => (s.ctx? e.l.ctx).map fun x => s.convoyGroup x (e.convoyArgs 4).group == .good ⟨2, 0, [0, 9]⟩ &&
      (worst (e.conds (.cvoy 4 10 14 0) (e.shape (.cvoy 4 10 14 0)) ++
        (condIf ((e.convoyArgs 4).badAddr (some ⟨2, 0, [0, 9]⟩)) 0x10 (e.low (Taking e (.cvoy 4 10 14 0))) ++
          condIf (e.convoyArgs 4).misaligned 0x11 (e.low (Taking e (.cvoy 4 10 14 0))) ++
          condIf ((e.convoyArgs 4).badField (some ⟨2, 0, [0, 9]⟩) || (sword e 10).extractLsb' 16 48 != 0) 0x17 (e.low (Taking e (.cvoy 4 10 14 0))))))
        == some ⟨0x17, 0, 0, 0⟩)) = some true := by decide

/-- The collective in flight, before node 9's data has come, when it has come, and after a failure. -/
def collective (got : List (Nat × Nat × List Byte × Bool)) (fail : Nat) : ConvoyOp :=
  { group := 0, seq := 3, op := 0, type := 1, norm := false, len := 16, src := 0x20000, dst := 0x30000, norma := 0, members := 2, rank := 0, nodes := [0, 9],
    got := got, wrote := [], fail := fail, counter := some (5, .system), node := none }
def linked (s : State) : State := { s with linkReady := 16, bar0 := { s.bar0 with route := [(9, 0x80000010)] }, peers := [⟨9, [], [], [], [], []⟩] }
def convoying (o : ConvoyOp) : State :=
  (linked (convoyed (flying (.convoy o)))).updCtx 0 fun c => { c with desc := { c.desc with fabtag := 0x8006 }, seqs := [(0, 4)], tickets := [(0, 3, 0, 0)] }

/-- Flits of group 0: from node 9, from another node, and one that carries a failure. -/
def flit (node fail : Nat) : Flit :=
  { ctx := 6, group := 0, seq := 3, node := node, op := 0, type := 1, norm := false, len := 16, rank := 1, offset := 0, data := List.replicate 16 2, marked := false, fail := fail }

theorem witness_flits : ∀ x ∈ [flit 9 0, flit 8 0, flit 9 4],
    let s := convoying (collective [] 0)
    let f := flight (.convoy (collective [] 0))
    ((s.ctxs.find? fun c => bitOf c.desc.fabtag 15 && field c.desc.fabtag 0 12 == x.ctx).map (·.id)) = some 0 ∧
    s.flights.find? (·.takesFlit 0 x) = some f ∧ s.flight? f.id = some f ∧ x.rank < 2 ∧ x.rank ≠ 0 ∧ x.offset + x.data.length ≤ 16 := by decide

/-- A collective whose data has all come: plain, with a norm, of a node of queue 0, and one that has failed. -/
def arrivedData : List (Nat × Nat × List Byte × Bool) := [(1, 0, List.replicate 16 2, false)]
def gathered (type : Nat) (norm : Bool) (node : Option (Nat × Nat × Nat × Bool)) : ConvoyOp :=
  { collective arrivedData 0 with type := type, norm := norm, norma := 0x32000, node := node }

/-- The data of the two members. -/
def memberData (r : Nat) : MarkedBytes := List.replicate 16 (if r = 0 then 0 else 2, false)

/-- `Gathered` as a check that evaluates. -/
theorem gathers {s : State} {f : Flight} {o : ConvoyOp} {data : Nat → MarkedBytes} (hf : s.flight? f.id = some f) (h1 : f.fault = none) (h2 : f.refetch = none)
    (h3 : f.op = .convoy o) (h4 : o.fail = 0) (h5 : s.ringOpen o = true)
    (h : (match s.convoySource f o with | .ok own => (List.range o.members).all fun r => o.data own r == some (data r) | _ => false) = true) :
    Gathered s f.id f o data := by
  refine ⟨hf, h1, h2, h3, h4, h5, ?_⟩
  split at h
  · rename_i own e
    refine ⟨own, e, fun r hr => ?_⟩
    simpa using List.all_eq_true.mp h r (List.mem_range.mpr hr)
  · cases h

theorem witness_gathered :
    Gathered (convoying (gathered 1 false none)) 7 (flight (.convoy (gathered 1 false none))) (gathered 1 false none) memberData ∧
    Gathered (convoying (gathered 0 true none)) 7 (flight (.convoy (gathered 0 true none))) (gathered 0 true none) memberData ∧
    Gathered (convoying (gathered 1 false (some (0, 0, 0x40000, false)))) 7 (flight (.convoy (gathered 1 false (some (0, 0, 0x40000, false)))))
      (gathered 1 false (some (0, 0, 0x40000, false))) memberData :=
  ⟨gathers (f := flight (.convoy (gathered 1 false none))) (by decide) rfl rfl rfl rfl (by decide) (by decide),
    gathers (f := flight (.convoy (gathered 0 true none))) (by decide) rfl rfl rfl rfl (by decide) (by decide),
    gathers (f := flight (.convoy (gathered 1 false (some (0, 0, 0x40000, false))))) (by decide) rfl rfl rfl rfl (by decide) (by decide)⟩

/-- The destination and NORMA translate, an element can be written, and the queue stands at the node of a collective. -/
theorem witness_collective_places :
    (∀ t ∈ [0, 1], let s := convoying (gathered t (t == 0) none)
      s.translate 256 0 0x30000 .write = .ok ⟨.dram, 0x30000⟩ ∧ s.translate 256 0 0x32000 .write = .ok ⟨.dram, 0x32000⟩ ∧
      s.translate 256 0 0x3000C .write = .ok ⟨.dram, 0x3000C⟩) ∧
    ((gathered 1 false none).destLen = 16 ∧ 3 < (gathered 1 false none).destLen / 4) ∧
    ({ convoying (gathered 1 false none) with port2 := none, agenda := [.landElement 7 3] } : State).port2 = none ∧
    ∀ isAsync ∈ [false, true], ∀ s ∈ [queued (queue0 (some { walk0 0x40000 [] with phase := .running, asyncs := if isAsync then [0x40000] else [] }))
        (convoying (gathered 1 false (some (0, 0, 0x40000, isAsync))))],
      s.translate 256 0 0x40004 .write = .ok ⟨.dram, 0x40004⟩ ∧
      ((s.queue? 0 0).any fun p => !p.1.frozen && !p.2.parked && p.2.owed.isEmpty && p.2.walk.isSome) = true := by decide

/-- Failed collectives, of a group and of a node. -/
theorem witness_collective_fails :
    (let o := collective [] 4
     (convoying o).flight? 7 = some (flight (.convoy o)) ∧ o.fail ≠ 0 ∧ o.node = none) ∧
    (let o : ConvoyOp := { collective [] 4 with node := some (0, 0, 0x40000, false) }
     let s := queued (queue0 (some { walk0 0x40000 [] with phase := .running })) (convoying o)
     s.flight? 7 = some (flight (.convoy o)) ∧ o.fail ≠ 0 ∧ o.node = some (0, 0, 0x40000, false) ∧ (s.ctx? 0).map (·.frozen) = some false ∧ (s.queue? 0 0).isSome = true ∧
       s.translate 256 0 0x40004 .write = .ok ⟨.dram, 0x40004⟩) := by
  decide

/-- Data of two members as the combination needs them, for an all-reduce, a reduce-scatter and an all-gather. -/
theorem witness_combination : ∀ op ∈ [0, 1, 2],
    let o : ConvoyOp := { collective [] 0 with op := op }
    let data : List MarkedBytes := [List.replicate 16 (1, false), List.replicate 16 (2, true)]
    data.length = o.members ∧ (∀ d ∈ data, d.length = o.len) ∧ o.members ≠ 0 ∧ o.type ≤ 3 ∧ 0 < (if o.op = 1 then o.len / o.members else o.len) / 4 ∧
      (if o.op = 1 then o.rank * (o.len / o.members) + o.len / o.members else o.len) ≤ o.len := by decide

/-- A norm worked out by hand (R245): two members' FP32 ones give the element 2, whose square is 4; one element a part and two parts: 8. -/
theorem test_convoy_norm : normSum 2 8 [leBytes 4 0x3F800000 ++ leBytes 4 0x3F800000, leBytes 4 0x3F800000 ++ leBytes 4 0x3F800000] = 0x4020000000000000 := by decide +kernel

/-! ### Witnesses: the encoding and the step -/

theorem witness_encoding : (Instr.iadd 3 2 7 false 2).encode = some 0b0000001_0000011_0000010_0000111_0_010#32 ∧
    decode 0b0000001_0000011_0000010_0000111_0_010#32 = .ok (.iadd 3 2 7 false 2) := ⟨rfl, rfl⟩

/-- A step that issues finds a turn and the word of it: an instruction, and a word that is none. -/
def stepping (bs : List Byte) : State := State.reset.place bs
def later (s : State) : State := { s with clock := s.clock + 1, agenda := [] }

theorem witness_step_issues : (stepping (leBytes 4 0x020C1072)).port2 = none ∧ (stepping []).agenda = [.issue 0 0] ∧
    ((later (stepping (leBytes 4 0x020C1072))).turns 0 0).any (fun x =>
      (later (stepping (leBytes 4 0x020C1072))).fetch x.g.cu x.l.ctx x.iss.pc == .word 0x020C1072#32) = true ∧
    decode 0x020C1072#32 = .ok (.iadd 3 2 7 false 2) ∧
    ((later (stepping [])).turns 0 0).any (fun x => (later (stepping [])).fetch x.g.cu x.l.ctx x.iss.pc == .word 0#32) = true ∧
    decode 0#32 ≠ .ok (.iadd 3 2 7 false 2) ∧ (decode 0#32).toOption = none := by decide

/-- A secondary that waits for its step: the thread of the placed group, at its own word. -/
def second : State := { placed (.iadd 3 2 7 false 2) with port2 := some ⟨0, 0, 0, 1, 0x10000, true, false⟩ }

theorem witness_step_secondary : let s1 := { second with clock := second.clock + 1, port2 := none, cur := some ⟨0, 0, 0, 1, 0x10000, true, false⟩ }
    (s1.env?.any fun e => e.lanes.all fun n => (e.thread n).any fun t => t.wait == .ready && t.pc == 0x10000#64) = true ∧
    (s1.env?.any fun e => e.lanes == [0] && s1.fetch 0 e.l.ctx 0x10000 == .word 0x020C1072#32) = true := by decide

theorem witness_step_event : { placed .nop with agenda := [.event .thermalShutdown] }.port2 = none ∧ (placed .nop).upset ≠ some .write ∧ isEvent .thermalShutdown = true := by decide

/-- Two ready threads at one depth, of which neither has aged: the one at the lower address issues. -/
def parted : Group := { placedGroup with threads := [some { placedThread with pc := 0x10010 }, some { placedThread with pc := 0x10004 }] }

theorem witness_vote : parted.primary = some ⟨2, 0x10004, []⟩ ∧ ∀ r ∈ parted.ready, r.2.age < 256 := by decide

/-- An entry of a level-0 table: a page of 4 KiB, a page of 64 KiB whose line agrees, and one whose line does not. -/
def entryAt (e other : Nat) (a : Nat) : Option Nat := if a = 0x102000 then some e else some other

theorem witness_pages :
    (entryAt 0x40119 0 (0x102000 + 8 * (0 / 2 ^ 12 % 2 ^ 9)) = some 0x40119 ∧ 0x40119 % 2 = 1 ∧ pteMalformed 0 0 0x40119 = false ∧ 0x40119 / 2 ^ 9 % 2 = 0) ∧
    (pteMalformed 0 0 0x40319 = false ∧ 0x40319 / 2 ^ 9 % 2 = 1 ∧ (∀ i < 16, entryAt 0x40319 0x40319 (0x102000 / 128 * 128 + 8 * i) = some 0x40319) ∧
      (∀ i < 16, entryAt 0x40319 0 (0x102000 / 128 * 128 + 8 * i) ≠ none) ∧ entryAt 0x40319 0 (0x102000 / 128 * 128 + 8 * 1) ≠ some 0x40319) ∧
    (placed .nop).leafAddr .read 0x45678 0x40319 65536 = .ok ⟨.dram, 0x45678⟩ := by decide

theorem witness_memory : MemOk (placed .nop) :=
  ⟨by decide, by decide, by decide, by simp only [TeamMemOk]; decide, by simp only [TeamMemOk]; decide⟩
theorem witness_next : ∃ t, step (placed .nop) = .next t := ⟨_, rfl⟩

/-! ### Witnesses: values -/

theorem witness_rounding : (∀ f ∈ [fp32, fp16, bf16, e4m3, e5m2, e2m1, fp64], (f.decode 1).isNan = false) ∧ (fp32.decode 0x3F800000).isNan = false := by decide
theorem witness_nan : (fp32.decode 0x7F800001).isNan = true ∧ 0x7F800001 < 2 ^ 32 ∧ (fp32.decode 0x3F800000).isNan = false := by decide
theorem witness_reserved : (0b0111101_1001_010_0000_011_0000_000_0_001#32).extractLsb' 25 7 = 0x3D#7 ∧
    9 ≤ ((0b0111101_1001_010_0000_011_0000_000_0_001#32).extractLsb' 21 4).toNat := by decide

theorem witness_nothing_late : ∃ e, (issued .nop).env? = some e ∧ ∀ f ∈ (issued .nop).flights, f.op.isLate = true → e.mine f = false := by
  have h : (issued .nop).env?.isSome = true ∧ (issued .nop).flights = [] := by decide
  obtain ⟨e, he⟩ := Option.isSome_iff_exists.mp h.1
  exact ⟨e, he, fun f hf => by rw [h.2] at hf; cases hf⟩

/-- Operands of the statements about values: a NaN, exact powers and squares, a value between representable ones, a small and a large one. -/
theorem witness_function_values :
    (sameValue (fp32.decode 0x40400000) (intFV 3) ∧ sameValue (fp32.decode 0x00000001) (twoPow (-149)) ∧ sameValue (fp32.decode 0xC3150000) (intFV (-149)) ∧
      sameValue (fp32.decode 0x7F000000) (twoPow 127) ∧ sameValue (fp32.decode 0x42FE0000) (intFV 127)) ∧
    (FV.mul (fp32.decode 0x40000000) (fp32.decode 0x40000000)).any (fun v => !(fp32.decode 0x40800000).isNan && !v.isNan && FV.cmp (fp32.decode 0x40800000) v == .eq) = true ∧
    ((FV.add .rne (fp32.decode 0x3FB504F3) (fp32.decode 0x3FB504F4)).bind fun p => FV.mul p (twoPow (-1))).isSome = true :=
  ⟨by simp only [sameValue]; decide, by decide, by decide⟩

/-- A quotient that each floating format holds, with and without a block scale; coordinates of a lattice and their common denominator. -/
theorem witness_slot_values :
    (∀ kt ∈ [(1, bf16), (2, fp16), (3, e4m3), (4, e5m2)], (kt.2.decode 1).isNan = false ∧ (kt.2.decode 1).isInf = false ∧ (kt.2.decode 1).isZero = false) ∧
    descKind 0x00000003 = 3 ∧ descScf 0x00000003 = 0 ∧ descKind 0x00001303 = 3 ∧ descScf 0x00001303 ≠ 0 ∧ tscOk 0x3F800000 = true ∧
    (fp32.decode 0x3F800000).isInf = false ∧ (fp32.decode 0x3F800000).isZero = false ∧
    (FV.mul (fp32.decode 0x3B000000) (fp32.decode 0x3F800000)).any (fun u => (FV.mul (e4m3.decode 1) (fp32.decode 0x3F800000)).any fun v =>
      !u.isNan && !v.isNan && !u.isInf && FV.cmp u v == .eq) = true ∧
    (((FV.mul (e4m3.decode 1) (fp32.decode 0x3F800000)).bind (FV.mul · (fp32.decode 0x3F800000))).any fun v =>
      !v.isNan && FV.cmp (fp32.decode 0x3B000000) v == .eq) = true ∧
    (([1, -7, 10, 3, -1, 6, -10, 0] : List Int).length = 8 ∧ Coord.nan ∈ [Coord.nan, .frac 0]) ∧
    (FV.mul (fp32.decode 0x3F800000) (fp32.decode 0x3F800000)).any (fun v => !v.isInf && !v.isZero &&
      (FV.mul (fp32.decode 0x3E800000) (intFV 4)).any fun l => (FV.mul (intFV 1) v).any fun r => FV.cmp l r == .eq) = true := by decide

/-- Factors of terms, chunks of zeros, of finite terms, with an infinity and with NaNs; rates and states of a weight update. -/
theorem witness_matrix_values :
    (∃ fs : List FV, (∀ v ∈ fs, v.isNan = false) ∧ (∃ v ∈ fs, v.isInf = true) ∧ ∃ v ∈ fs, v.isZero = true) ∧
    (∀ v ∈ [FV.fin true 0 0, fp32.decode 0x80000000], v.isZero = true) ∧ ((Nat.log2 1 : Nat) : Int) + 24 = -24 + 48 ∧ fp32.decode 0x4B800000 = .fin false 8388608 1 ∧
    (fp32.decode 0x7F800001).isNan = true ∧ ([((FV.nan (canonNan false)), (1 : Nat))].find? fun p => p.1.isNan) = some (.nan (canonNan false), 1) :=
  ⟨⟨[.inf false, .fin false 0 0], by decide⟩, by decide, by decide, by decide, by decide, by decide⟩

theorem witness_drain_values :
    (fp32.decode 0x3F000000).isNan = false ∧
    ((FV.mul (fp32.decode 0x3F000000) oneFV).bind fun x => (FV.add .rne oneFV ((fp32.decode 0x3F000000).flip true)).bind fun o =>
      (FV.mul oneFV oneFV).bind fun u => (FV.mul o u).bind fun y => FV.add .rne x y).isSome = true ∧
    ((FV.mul (fp32.decode 0x40000000) (fp32.decode 0x40000000)).any fun u => !u.isNan && FV.cmp (fp32.decode 0x40800000) u == .eq) = true ∧
    ((FV.mul (fp32.decode 0x40000000) (fp32.decode 0x3F800000)).any fun x => (FV.mul (fp32.decode 0x3F800000) (fp32.decode 0x40000000)).any fun y =>
      !x.isInf && !x.isNan && !y.isNan && FV.cmp x y == .eq) = true := by decide

/-- Gates above θ whose sum is above εH and whose is not; the two operations of the worked example of R223. -/
theorem witness_gate_values : above (fp32.decode 0x40000000) (fp32.decode 0x3F800000) ∧ ¬above (gateSum (fun _ => oneFV) []) (fp32.decode 0x3F800000) ∧
    above (gateSum (fun _ => oneFV) [0, 1]) (fp32.decode 0x3F800000) := by
  refine ⟨⟨by decide, by decide, by decide⟩, ?_, ⟨by decide, by decide, by decide⟩⟩
  rintro ⟨_, _, h⟩
  revert h
  decide

/-! ### Witnesses: graphs -/

/-- A COPY of 32 bytes with counter 5; COND and WHILE of the word at 0x50000 against 3 under LT_S; SIGNAL of counter 5; WAIT for it. -/
def nodeCopies : State := poke 0x50000 (leBytes 8 77) (atNode [] (nodeBytes 2 0 0x40040 (leBytes 8 0x50000 ++ leBytes 8 0x51000 ++ leBytes 8 32 ++ leBytes 2 0x8005)))
def asking (kind word : Nat) (stack : List Nat) : State :=
  poke 0x50000 (leBytes 4 word) (atNode stack (nodeBytes kind 0 0x40040 (leBytes 8 0x50000 ++ leBytes 4 3 ++ leBytes 4 2 ++ leBytes 8 0x40080)))
def signalling (key op : Nat) : State := atNode [] (nodeBytes 6 0 0x40040 (leBytes 2 key ++ leBytes 2 op ++ leBytes 4 2))
def waiting (v : Word) : State := ctx0 (fun c => { c with counters := [(5, v)] }) (atNode [] (nodeBytes 7 0 0x40040 (leBytes 2 5)))

theorem witness_copy_node : ∃ (c : Ctx) (w : Walk) (r : List Byte), NodeAt nodeCopies 0 0 2 w r ∧ (okAnd (nodeCopies.copyBytes 0 (numAt r 16 8) (numAt r 24 8) (numAt r 32 8)) (fun _ => true) &&
    decide (c.id = 0)) = true := node_at (by decide)

theorem witness_copy_bytes : nodeCopies.translate 256 0 0x50000 .read = .ok ⟨.dram, 0x50000⟩ ∧ nodeCopies.translate 256 0 0x51000 .write = .ok ⟨.dram, 0x51000⟩ ∧
    0x50000 % 4096 + 32 ≤ 4096 ∧ 0x51000 % 4096 + 32 ≤ 4096 := by decide

/-- The condition of a COND or WHILE node with what its word is. -/
def nodeAsks (s : State) (holds : Bool) (r : List Byte) : Bool :=
  okAnd (s.hmRead 0 (numAt r 16 8) 4) fun bs => (ICmp.ofCode (numAt r 28 1)).any fun c => compares c (BitVec.ofNat 32 (leNat bs)) (BitVec.ofNat 32 (numAt r 24 4)) == holds

theorem witness_cond_node : (∃ (c : Ctx) (w : Walk) (r : List Byte), NodeAt (asking 4 2 []) 0 0 4 w r ∧ (nodeAsks (asking 4 2 []) true r && decide (c.id = 0)) = true) ∧
    ∃ (c : Ctx) (w : Walk) (r : List Byte), NodeAt (asking 4 3 []) 0 0 4 w r ∧ (nodeAsks (asking 4 3 []) false r && decide (c.id = 0)) = true := ⟨node_at (by decide), node_at (by decide)⟩

theorem witness_while_node :
    (∃ (c : Ctx) (w : Walk) (r : List Byte), NodeAt (asking 5 2 [0x40000]) 0 0 5 w r ∧ (nodeAsks (asking 5 2 [0x40000]) true r && w.stack.head? == some w.node && decide (c.id = 0)) = true) ∧
    (∃ (c : Ctx) (w : Walk) (r : List Byte), NodeAt (asking 5 2 (List.replicate 7 0x40080)) 0 0 5 w r ∧
      (nodeAsks (asking 5 2 (List.replicate 7 0x40080)) true r && w.stack.head? != some w.node && decide (w.stack.length < 8 ∧ c.id = 0)) = true) ∧
    ∃ (c : Ctx) (w : Walk) (r : List Byte), NodeAt (asking 5 3 [0x40000]) 0 0 5 w r ∧ (nodeAsks (asking 5 3 [0x40000]) false r && w.stack.head? == some w.node && decide (c.id = 0)) = true :=
  ⟨node_at (by decide), node_at (by decide), node_at (by decide)⟩

theorem witness_signal_nodes : ∀ x ∈ [(5, 0), (0x8005, 0), (5, 1), (0x8005, 1)],
    ∃ (c : Ctx) (w : Walk) (r : List Byte), NodeAt (signalling x.1 x.2) 0 0 6 w r ∧ (numAt r 18 1 == x.2 && (BitVec.ofNat 16 (numAt r 16 2)).getLsbD 15 == decide (32768 ≤ x.1) &&
      (w.node == 0x40000 && c.id == 0)) = true := fun x m => node_at ((by decide : ∀ x ∈ [(5, 0), (0x8005, 0), (5, 1), (0x8005, 1)],
    nodeHere (signalling x.1 x.2) 6 (fun c w r => numAt r 18 1 == x.2 && (BitVec.ofNat 16 (numAt r 16 2)).getLsbD 15 == decide (32768 ≤ x.1) &&
      (w.node == 0x40000 && c.id == 0)) = true) x m)

theorem witness_wait_node : (∃ (c : Ctx) (w : Walk) (r : List Byte), NodeAt (waiting 0) 0 0 7 w r ∧ (w.waiting.isNone && decide ((c.counter (numAt r 16 2)).toInt ≤ 0)) = true) ∧
    ∃ (c : Ctx) (w : Walk) (r : List Byte), NodeAt (waiting 1) 0 0 7 w r ∧ (w.waiting.isNone && decide (0 < (c.counter (numAt r 16 2)).toInt)) = true :=
  ⟨node_at (by decide), node_at (by decide)⟩

/-- A WAIT that has been released. -/
def releasedWait : State := queued (queue0 (some { walk0 0x40000 [] with phase := .running, next := 0x40040, waiting := some 5, released := true })) (placed .nop)

theorem witness_wait_release : (releasedWait.queue? 0 0).any (fun x => !x.1.frozen && x.2.fault.isNone && x.2.owed.isEmpty && (x.2.walk.any fun w =>
    w.waiting.isSome && w.released && w.phase == .running)) = true ∧ releasedWait.translate 256 0 (0x40000 + 4) .write = .ok ⟨.dram, 0x40004⟩ ∧
    Writable releasedWait ⟨.dram, 0x40004⟩ 4 ∧ Writable releasedWait ⟨.dram, 0x160000⟩ 8 := ⟨by decide, by decide, writable (by decide), writable (by decide)⟩

/-- A graph whose last node completes, and one that goes on. -/
theorem witness_node_ends : (gone (walk0 0x40000 []) 0).node = 0 ∧ (gone (walk0 0x40000 []) 0).asyncs = [] ∧
    (gone (walk0 0x40000 [0x40080]) 0).node = 0x40080 ∧ (gone (walk0 0x40000 []) 0x40040).node = 0x40040 := by decide

/-- A queue-table entry, its ring with one graph or none, and the queue idle. -/
def submitted (used enabled : Nat) : State :=
  poke 0x160000 (leBytes 8 0 ++ leBytes 8 used) (poke 0x160040 (leBytes 8 0x40000)
    (poke 0x110000 (leBytes 8 0x160000 ++ leBytes 4 4 ++ leBytes 1 0 ++ leBytes 1 enabled) (queued (queue0 none) (placed .nop))))

theorem witness_submit : ∀ x ∈ [((0 : Nat), (1 : Nat)), (1, 1), (16, 1), (0, 0)], let s := submitted x.1 x.2
    ((s.queue? 0 0).any fun y => !y.1.frozen && !y.2.parked && y.2.fault.isNone && y.2.owed.isEmpty && y.2.walk.isNone &&
      !(s.readQueueEntry y.1.desc.qtbase 0).2 && queueEntryOf (s.readQueueEntry y.1.desc.qtbase 0).1 == some ⟨0x160000, 4, 0, x.2 == 1⟩) = true ∧
    (s.dram.num (0x160000 + 8) 8 + 2 ^ 64 - s.dram.num 0x160000 8) % 2 ^ 64 = x.1 ∧ x.1 ≤ 16 ∧ (s.loadPhys ⟨.dram, 0x160000⟩ 64).1.drop 16 = List.replicate 48 0 ∧ (s.loadPhys ⟨.dram, 0x160040⟩ 8).2 = false ∧
    leNat (s.loadPhys ⟨.dram, 0x160040⟩ 8).1 ≠ 0 := by decide

/-- A LAUNCH node of that record. -/
def launching : State := recorded (atNode [] (nodeBytes 1 0 0x40040 (leBytes 8 0x50000)))

theorem witness_launch_node : ∃ (c : Ctx) (w : Walk) (r : List Byte), NodeAt launching 0 0 1 w r ∧
    (okAnd (launching.readRecord c.id (numAt r 16 8)) (fun x => x.ranges.isEmpty) && w.node == 0x40000 &&
      okAnd (launching.beginLaunch 0 0 w.run w.node (numAt r 16 8) (numAt r 1 1 == 1) 0) (fun _ => true)) = true := node_at (by decide +kernel)

def collecting : State := convoyed (atNode [] (nodeBytes 3 0 0x40040 (leBytes 8 0x20000 ++ leBytes 8 0x30000 ++ leBytes 8 0 ++ leBytes 8 0x0200000000000010 ++ leBytes 2 0x8005)))

theorem witness_cvoy_node : ∃ (c : Ctx) (w : Walk) (r : List Byte), NodeAt collecting 0 0 3 w r ∧ (let o : ConvoyArgs := ⟨numAt r 16 8, numAt r 24 8, numAt r 32 8, numAt r 40 8⟩
    (collecting.convoyGroup c o.group == .good ⟨2, 0, [0, 9]⟩) && !o.badField (some ⟨2, 0, [0, 9]⟩) && !o.badAddr (some ⟨2, 0, [0, 9]⟩) && !o.misaligned &&
      decide (w.node = 0x40000)) = true := node_at (by decide)

/-- SNAPSHOT nodes of the list at 0x50000, which holds one page with a shadow; a preservation that the list has begun. -/
def snapping (op : Nat) (vs : List Preserve) : State :=
  ctx0 (fun c => { c with preserves := vs }) (poke 0x50000 (leBytes 8 0x60000 ++ leBytes 4 1 ++ leBytes 4 0 ++ leBytes 8 0x70000)
    (atNode [] (nodeBytes 8 0 0x40040 (leBytes 8 0x50000 ++ leBytes 4 1 ++ leBytes 1 op))))

theorem witness_snapshots :
    (∃ (c : Ctx) (w : Walk) (r : List Byte), NodeAt (snapping 0 []) 0 0 8 w r ∧ (numAt r 28 1 == 0 && okAnd ((snapping 0 []).readRanges 0 (numAt r 16 8) (numAt r 24 4) 13) (fun rs =>
      (rs.all fun x => x.kind == 0) && !c.preserved rs && okAnd ((snapping 0 []).preservePages 0 rs) (fun ps => ps.length == 1)) &&
      decide (c.preserves.length < 16 ∧ w.node ≠ 0)) = true) ∧
    (∃ (c : Ctx) (w : Walk) (r : List Byte), NodeAt (snapping 1 [kept0 true]) 0 0 8 w r ∧ (numAt r 28 1 == 1 && (c.preserves.find? fun x => x.list == numAt r 16 8 && x.launch.isNone) == some (kept0 true) &&
      decide (w.node ≠ 0)) = true) ∧
    ∃ (c : Ctx) (w : Walk) (r : List Byte), NodeAt (snapping 2 [kept0 true]) 0 0 8 w r ∧ (numAt r 28 1 == 2 && (c.preserves.any fun x => x.list == numAt r 16 8 && x.launch.isNone) &&
      decide (w.node ≠ 0)) = true := ⟨node_at (by decide), node_at (by decide), node_at (by decide)⟩

theorem witness_malformed_node : let s := atNode [] (nodeBytes 9 0 0x40040 [])
    (s.standing 0 0).any (fun x => nodeAddrOk x.2.2.node && okAnd (s.hmRead 0 x.2.2.node 64) (fun r => !nodeOk r)) = true ∧
    s.translate 256 0 (0x40000 + 4) .write = .ok ⟨.dram, 0x40004⟩ ∧ Writable s ⟨.dram, 0x40004⟩ 4 := ⟨by decide, by decide, writable (by decide)⟩

/-- A ring with more graphs than it holds, one whose header has a reserved byte set, and an address of a node that is not aligned. -/
theorem witness_queue_parks :
    (∀ s ∈ [submitted 17 1, poke 0x160010 [1] (submitted 1 1)],
      ((s.queue? 0 0).any fun y => !y.1.frozen && !y.2.parked && y.2.fault.isNone && y.2.owed.isEmpty && !(s.readQueueEntry y.1.desc.qtbase 0).2 &&
        (queueEntryOf (s.readQueueEntry y.1.desc.qtbase 0).1).any fun e => e.enabled && (decide (e.size < (s.dram.num (0x160000 + 8) 8 + 2 ^ 64 - s.dram.num 0x160000 8) % 2 ^ 64) ||
          !((s.loadPhys ⟨.dram, e.addr⟩ 64).1.drop 16).all (· == 0))) = true) ∧
    let s := queued (queue0 (some (walk0 0x40010 []))) (placed .nop)
    (s.standing 0 0).any (fun x => plainVA x.2.2.node && plainVA (x.2.2.node + 7) && !nodeAddrOk x.2.2.node) = true ∧
      s.translate 256 0 (0x40010 + 4) .write = .ok ⟨.dram, 0x40014⟩ := by decide

/-! ### Witnesses: groups, teams and launches -/

/-- The placed machine with its group's threads ended, and with a load in flight. -/
def finished : State := { placed .nop with groups := [{ placedGroup with threads := [none] }] }
def loading : State := flying (.load [])

theorem witness_group_ends :
    (finished.group? 0 0 0).any (fun g => (g.threads.all (·.isNone)) && !finished.flights.any fun f => f.order == g.order && f.op.writesThreads) = true ∧
    loading.group? 0 0 0 = some placedGroup ∧ (loading.flights.any fun f => f.order == placedGroup.order && f.op.writesThreads) = true ∧
    { placed .nop with groups := [] }.team? 0 = some placedTeam ∧ State.teamOwed { placed .nop with groups := [] } placedTeam = false := by decide

/-- A group of role 0 whose threads have ended and whose partner over a window, of role 1, still runs (R40, R135). -/
def halfEnded : State :=
  header (fun h => { h with roles := [(1, 31), (1, 31), (0, 0), (0, 0)], wins := [⟨true, 0, 1, 16, 24, 8⟩] })
    { placed .nop with groups := [{ placedGroup with threads := [none] }, { placedGroup with slot := 1, role := some 1, linear := 1, order := 1 }] }

theorem witness_window_partner : halfEnded.group? 0 0 0 = some { placedGroup with threads := [none] } ∧
    (halfEnded.launch? 0).any (fun l => l.stop.isNone && l.hdr.bound 0 1) = true ∧
    (halfEnded.groups.any fun h => h.team == 0 && h.index == 0 && h.role == some 1 && (h.thread? 0).isSome) = true := by decide

/-- A launch whose only team waits; a module where nothing is placed and CU 0 is ready. -/
def launch1 : Launch :=
  { placedLaunch with id := 1, hdr := { placedLaunch.hdr with ht := 32, roles := [(1, 0), (0, 0), (0, 0), (0, 0)] }, state := .waiting, nextTeam := 0, order := none }
def vacant (l : Launch) : State := { placed .nop with cuReady := [0], teams := [], groups := [], launches := [l] }

theorem witness_placement : (vacant launch1).launch? 1 = some launch1 ∧ (vacant launch1).placeable launch1 = true ∧
    (vacant launch1).firstWith launch1 (vacant launch1).placeable = true ∧ launch1.resident = false ∧ (vacant launch1).targetCu launch1 = some 0 ∧
    ((vacant launch1).placeTeam launch1 0 launch1.nextTeam).isSome = true := by decide

/-- The worked example of R280: a block of 256 among blocks of 256 and 128; B moves, or E where B is pinned, and nothing where both are. -/
theorem test_compaction_plan :
    planBlock [] [(0, 256), (256, 128), (512, 256), (768, 256), (1024, 128), (1280, 256), (1536, 256), (1792, 256)] 256 = some (256, 1152) := by decide +kernel
theorem test_compaction_plan_pinned :
    planBlock [(256, 128)] [(0, 256), (512, 256), (768, 256), (1024, 128), (1280, 256), (1536, 256), (1792, 256)] 256 = some (1024, 384) := by decide +kernel
theorem test_compaction_plan_none :
    planBlock [(0, 256), (256, 128), (512, 256), (768, 256), (1024, 128), (1280, 256)] [(1536, 256), (1792, 256)] 256 = none := by decide +kernel

/-- A saved team whose group needs a block of 256 in partition 0, where others lie as in that example; and one whose scratchpad range needs a move. -/
def saved0 : Saved := { team := placedTeam, groups := [{ placedGroup with slot := 15 }], locks := [], flights := [], deposits := [], pool := 0 }
def lying (k base n : Nat) : Group := { placedGroup with slot := k, order := 10 + k, base := base, size := n, team := 5, threads := [] }
def team5 : Team := { placedTeam with id := 5, base := 65536 }
def crowded : State :=
  { vacant placedLaunch with saved := [saved0], nextOrder := 30, groups := [lying 0 0 256, lying 1 256 128, lying 2 512 256, lying 3 768 256, lying 4 1024 128, lying 5 1280 256, lying 6 1536 256, lying 7 1792 256] }
def stacked : State := cu0 (fun c => { c with split := 2 }) { vacant placedLaunch with saved := [saved0], nextOrder := 30, teams := [team5] }

theorem witness_compaction :
    crowded.group? 0 0 1 = some (lying 1 256 128) ∧ crowded.pinnedRegs (lying 1 256 128) = false ∧ crowded.moves.contains (.regs 0 0 1 1152) = true ∧
    1152 % (lying 1 256 128).size = 0 ∧ 1152 + (lying 1 256 128).size ≤ 2048 ∧
    (∀ h ∈ crowded.groups, h.order ≠ 11 → overlap h.base h.size 1152 128 = false) ∧ crowded.moves.contains (.regs 0 0 1 384) = false ∧
    loading.pinnedRegs placedGroup = true ∧
    stacked.team? 5 = some team5 ∧ (stacked.cu? team5.cu).isSome = true ∧ stacked.pinnedScratch team5 = false ∧
    (stacked.moves.contains (.scratch 5 0) || stacked.moves.contains (.scratch 5 131072)) = true ∧ stacked.moves.contains (.scratch 5 4096) = false ∧
    (∀ u ∈ stacked.teams, u.id = 5) ∧
    (team0 (fun t => { t with absent := [0] }) (placed .nop)).pinnedScratch { placedTeam with absent := [0] } = true := by decide +kernel

theorem witness_apart : LieApart (placed .nop) ∧ ((placed .nop).groups.map (·.order)).Nodup ∧ ((placed .nop).teams.map (·.id)).Nodup := by
  refine ⟨⟨?_, ?_⟩, by decide, by decide⟩ <;> decide

/-- A resident launch that claims, and one of a single team that waits for the reservation of another. -/
def resident1 : Launch := { launch1 with hdr := { launch1.hdr with flags := 1 } }
def reserved : State := { vacant launch1 with reservation := some ⟨9, [0]⟩ }

/-- The same as holder, and a module without a reservation in which one launch claims and comes first. -/
def holding1 : State := { vacant resident1 with reservation := some ⟨1, []⟩ }
def claiming : State := { vacant { launch1 with claims := true } with cuReady := [0] }

theorem witness_claims :
    ((vacant launch1).launch? 1 = some launch1 ∧ launch1.waits = true ∧ launch1.resident = false ∧ (vacant launch1).placeable launch1 = true) ∧
    ((vacant resident1).launch? 1 = some resident1 ∧ resident1.waits = true ∧ resident1.resident = true ∧ (vacant resident1).reservation = none) ∧
    (holding1.reservation.any fun r => r.launch == 1) = true ∧
    (reserved.launch? 1 = some launch1 ∧ reserved.placeable launch1 = false ∧ (reserved.reservation.any fun r => r.launch != 1) = true) ∧
    (claiming.reservation = none ∧ (claiming.launches.map (·.id)).Nodup ∧ (claiming.launches.all fun l => claiming.claimant l && claiming.launches.all fun m =>
      rankLe (claiming.queueRank l) (claiming.queueRank m)) = true) ∧
    ((vacant launch1).launches.all fun l => !(vacant launch1).claimant l) = true ∧
    { claiming with reservation := some ⟨9, []⟩ }.launches.length = 1 := by decide

/-- A launch of a higher priority that finds no room, and the placed team, which may be saved. -/
def launch2 : Launch := { launch1 with queue := 1 }
def starving : State :=
  ctx0 (fun c => { c with desc := { c.desc with savepool := 0x400000, saveslots := 2 }, queues := [queue0 none, { queue0 none with entry := ⟨0x168000, 4, 3, true⟩ }] })
    { placed .nop with cuReady := [0], launches := [{ placedLaunch with hdr := { placedLaunch.hdr with flags := 64, ht := 32 } }, launch2] }

theorem witness_preemption : starving.launch? 1 = some launch2 ∧ starving.starved launch2 = true ∧ starving.victims launch2 = [placedTeam] ∧ starving.quiet placedTeam = true ∧
    starving.cu? placedTeam.cu = some placedCu ∧ ((starving.ctx? placedTeam.ctx).map (·.freeSlots)) = some [0, 1] := by decide

/-- The placed team saved, and its CU free. -/
def parkedTeam : State := { vacant placedLaunch with saved := [saved0] }

theorem witness_restore : (parkedTeam.saved.find? (·.team.id == 0)) = some saved0 ∧ parkedTeam.launch? saved0.team.launch = some placedLaunch ∧ placedLaunch.resident = false ∧
    placedLaunch.stop = none ∧ parkedTeam.mayRestore placedLaunch saved0 = true ∧ (parkedTeam.restoreTeam placedLaunch saved0).isSome = true ∧
    ((parkedTeam.ctx? 0).any fun x => !parkedTeam.slotMarked x.desc 0) = true ∧
    (let s : State := { parkedTeam with dramBad := [0x400000] }; ((ctx0 (fun c => { c with desc := { c.desc with savepool := 0x400000, saveslots := 1 } }) s).ctx? 0).any
      fun x => s.slotMarked x.desc 0) = true ∧
    (∀ v ∈ parkedTeam.saved, (∀ g ∈ v.groups, g.cu = v.team.cu) ∧ (v.groups.map fun g => (g.part, g.slot)).Nodup) := by decide

/-- A launch of node 0x40000 all of whose teams have gone, as it stands then. -/
def gone0 (stop : Option Stop) (f : Launch → Launch) : State :=
  queued (queue0 (some { walk0 0x40000 [] with phase := .running, next := 0x40040 }))
    { placed .nop with teams := [], groups := [], launches := [f { placedLaunch with node := 0x40000, stop := stop }] }

/-- `AllGone` as a check that evaluates. -/
theorem all_gone {s : State} {l : Launch} (h : ((s.teams.all (·.launch != l.id)) && (s.groups.all (·.launch != l.id)) && (s.flights.all (·.launch != l.id)) &&
    (s.saved.all (·.team.launch != l.id)) && l.ringTeams.isEmpty && s.cus.all fun c => c.berths.all fun b => b.all (·.launch != l.id)) = true) : AllGone s l := by
  simp only [Bool.and_eq_true, List.all_eq_true, bne_iff_ne, ne_eq, List.isEmpty_iff] at h
  obtain ⟨⟨⟨⟨⟨a, b⟩, c⟩, d⟩, e⟩, f⟩ := h
  refine ⟨a, b, c, d, e, fun u hu x hx => ?_⟩
  have := f u hu _ hx
  simpa using this

theorem witness_completion : ((gone0 none id).launch? 0).any (fun l => l.stop.isNone && l.hdr.total ≤ l.nextTeam && l.node == 0x40000) = true ∧
    AllGone (gone0 none id) { placedLaunch with node := 0x40000 } ∧
    (((gone0 none id).queue? 0 0).bind fun x => x.2.walk.map fun w => (w.node, w.phase == .running)) = some (0x40000, true) :=
  ⟨by decide, all_gone (by decide), by decide⟩

/-- A launch that a trap has stopped. -/
def stopped0 : Stop := ⟨8, false, 0⟩

theorem witness_stop : ((gone0 (some stopped0) id).launch? 0) = some { placedLaunch with node := 0x40000, stop := some stopped0 } ∧
    AllGone (gone0 (some stopped0) id) { placedLaunch with node := 0x40000, stop := some stopped0 } ∧
    ((gone0 (some stopped0) id).queue? 0 0).any (fun x => !x.1.frozen && x.2.owed.isEmpty) = true ∧
    (gone0 (some stopped0) id).translate 256 0 (0x40000 + 4) .write = .ok ⟨.dram, 0x40004⟩ ∧ Writable (gone0 (some stopped0) id) ⟨.dram, 0x40004⟩ 4 :=
  ⟨by decide, all_gone (by decide), by decide, by decide, writable (by decide)⟩

/-- A launch that a consumed error has stopped: one replay permitted, the replay under way, and none permitted. -/
def consumed (replaying : Bool) (replay : Nat) (s : State → State) : State :=
  s (gone0 (some ⟨9, true, 1⟩) fun l => { l with replaying := replaying, record := 0x50000, hdr := { l.hdr with flags := 16 * replay } })
def preserving : State → State := ctx0 fun c => { c with preserves := [{ kept0 true with launch := some 0 }] }

theorem witness_replays :
    ((consumed false 1 preserving).launch? 0).any (fun l => l.stop == some ⟨9, true, 1⟩ && !l.replaying && decide (l.replays < l.hdr.flags / 16 % 4)) = true ∧
    ((consumed false 1 preserving).queue? 0 0).any (fun x => !x.1.frozen && x.1.faults.isEmpty && x.2.owed.isEmpty &&
      x.1.preserves == [{ kept0 true with launch := some 0 }]) = true ∧
    (let s := consumed false 1 preserving
     s.ctxs.flatMap (·.preserves) = [{ kept0 true with launch := some 0 }] ∧ s.isRetired ⟨.dram, 0x60000⟩ = false ∧ s.isRetired ⟨.dram, 0x70000⟩ = false ∧
      overlap 0x60000 4096 0x70000 4096 = false ∧ (s.errQueue (some 0)).any (fun x => overlap 0x60000 4096 x.1 (64 + 64 * x.2.1)) = false) ∧
    ((consumed true 1 recorded).launch? 0).any (fun l => l.stop == some ⟨9, true, 1⟩ && l.replaying && l.record == 0x50000) = true ∧
    ((consumed true 1 recorded).ctx? 0).any (fun c => c.errq.isEmpty && !c.frozen) = true ∧ (consumed true 1 recorded).nextLaunch ≠ 0 ∧
    okAnd ((consumed true 1 recorded).readRecord 0 0x50000) (fun r => r.ranges.isEmpty) = true ∧
    ((consumed false 0 id).launch? 0).any (fun l => !l.replaying && decide (l.hdr.flags / 16 % 4 ≤ l.replays)) = true ∧
    ((consumed false 0 id).ctx? 0).any (fun c => c.preserves.all (·.launch != some 0)) = true ∧
    (consumed false 0 id).translate 256 0 (0x40000 + 4) .write = .ok ⟨.dram, 0x40004⟩ ∧
    (let s := consumed false 0 id
     s.ctxs.all (·.preserves.isEmpty) ∧ s.isRetired ⟨.dram, 0x40004⟩ = false ∧ (s.errQueue (some 0)).any (fun x => !overlap 0x40004 4 x.1 (64 + 64 * x.2.1)) = true) := by
  decide +kernel

/-! ### Witnesses: the host -/

/-- A command at HEAD of the placed context's command queue. -/
def commanded (bs : List Byte) (s : State) : State := poke 0x130000 (leBytes 8 0 ++ leBytes 8 1) (poke 0x130040 bs s)
def cmd (op : Nat) (body : List Byte) : List Byte := leBytes 1 op ++ leBytes 7 0 ++ body

/-- `CommandAt` as a check that evaluates. -/
def commandHere (s : State) (op : Nat) (p : Ctx → List Byte → Bool) : Bool :=
  match s.ctx? 0 with
  | none => false
  | some c => match s.command? c with
    | none => false
    | some r => commandOk r && numAt r 0 1 == op && p c r

theorem command_at {s : State} {op : Nat} {p : Ctx → List Byte → Bool} (h : commandHere s op p = true) :
    ∃ c r, CommandAt s 0 op c r ∧ p c r = true := by
  unfold commandHere at h
  split at h
  · cases h
  · rename_i c hc
    split at h
    · cases h
    · rename_i r hr
      simp only [Bool.and_eq_true, beq_iff_eq] at h
      exact ⟨c, r, ⟨hc, hr, h.1.1, h.1.2⟩, h.2⟩

/-- A pending fault of a requester; the placed machine with it, and with the command that answers it. -/
def fault0 (who : Requester) : XFault :=
  { fid := 3, va := 0x60000, cause := 1, access := 0, agent := 0, slot := 0, cu := 0, node := 0, who := who, launch := some 0, reported := true }
def resuming (who : Requester) (action : Nat) (s : State) : State :=
  commanded (cmd 2 (leBytes 4 3 ++ leBytes 1 action)) (ctx0 (fun c => { c with faults := [fault0 who] }) s)

/-- The placed machine with queue 0 stalled, or parked, at a node that it reads. -/
def stalledQueue : State := queued { queue0 (some (walk0 0x40000 [])) with fault := some 3 } (placed .nop)
def parkedQueue : State := queued { queue0 (some (walk0 0x40000 [])) with parked := true } (placed .nop)

theorem witness_simple_commands :
    (∃ (c : Ctx) (r : List Byte), CommandAt (commanded (cmd 1 (leBytes 8 0x40000 ++ leBytes 8 4096)) (placed .nop)) 0 1 c r ∧ decide (numAt r 8 8 = 0x40000) = true) ∧
    (∃ (c : Ctx) (r : List Byte), CommandAt (commanded (cmd 6 []) (placed .nop)) 0 6 c r ∧ decide (c.id = 0) = true) ∧
    ((commanded (cmd 7 []) (placed .nop)).ctx? 0).any (fun c => ((commanded (cmd 7 []) (placed .nop)).command? c).any fun r => !commandOk r) = true ∧
    Writable (commanded (cmd 6 []) (placed .nop)) ⟨.dram, 0x130044⟩ 4 ∧ Writable (commanded (cmd 6 []) (placed .nop)) ⟨.dram, 0x130000⟩ 8 :=
  ⟨command_at (by decide), command_at (by decide), by decide, writable (by decide), writable (by decide)⟩

theorem witness_fault_commands :
    (∀ a ∈ [0, 1], ∃ (c : Ctx) (r : List Byte), CommandAt (commanded (cmd 2 (leBytes 4 3 ++ leBytes 1 a)) (placed .nop)) 0 2 c r ∧
      ((c.faults.find? (·.fid == numAt r 8 4)).isNone && numAt r 12 1 == a) = true) ∧
    (∃ (c : Ctx) (r : List Byte), CommandAt (resuming (.issue 0 0 0 1) 0 (placed .nop)) 0 2 c r ∧
      ((c.faults.find? (·.fid == numAt r 8 4)) == some (fault0 (.issue 0 0 0 1)) && numAt r 12 1 == 0) = true) ∧
    (∃ (c : Ctx) (r : List Byte), CommandAt (resuming (.queue 0 .node) 0 stalledQueue) 0 2 c r ∧ ((c.faults.find? (·.fid == numAt r 8 4)) == some (fault0 (.queue 0 .node)) &&
      numAt r 12 1 == 0 && (c.queues[0]?).any fun w => w.owed.isEmpty && w.walk.any fun v => v.node != 0) = true) ∧
    (∃ (c : Ctx) (r : List Byte), CommandAt (resuming (.issue 0 0 0 1) 1 (placed .nop)) 0 2 c r ∧
      ((c.faults.find? (·.fid == numAt r 8 4)) == some (fault0 (.issue 0 0 0 1)) && numAt r 12 1 == 1) = true) ∧
    (∃ (c : Ctx) (r : List Byte), CommandAt (resuming (.queue 0 .node) 1 stalledQueue) 0 2 c r ∧ ((c.faults.find? (·.fid == numAt r 8 4)) == some (fault0 (.queue 0 .node)) &&
      numAt r 12 1 == 1 && !c.frozen && (c.queues[0]?).any fun w => w.owed.isEmpty && w.walk.any fun v => v.phase != .reading) = true) ∧
    ((resuming (.issue 0 0 0 1) 1 (placed .nop)).launch? 0).any (fun l => l.stop.isNone && l.hdr.ring == 0) = true :=
  ⟨fun a m => command_at ((by decide : ∀ a ∈ [0, 1], commandHere (commanded (cmd 2 (leBytes 4 3 ++ leBytes 1 a)) (placed .nop)) 2
      (fun c r => (c.faults.find? (·.fid == numAt r 8 4)).isNone && numAt r 12 1 == a) = true) a m),
    command_at (by decide), command_at (by decide), command_at (by decide), command_at (by decide), by decide⟩

/-- A fault of a far node's read, of a replay of launch 0, and of a STATUS that queue 0 owes; a node that has begun to read. -/
def farRead : Requester := .remote (.read 9 0x20000 8)
def owingQueue : State := queued { queue0 (some (walk0 0x40000 [])) with owed := [(0x40040, 1)] } (placed .nop)
def readingQueue : State := queued (queue0 (some { walk0 0x40000 [] with phase := .reading, next := 0x40040 })) (placed .nop)

/-- A command about such a fault. -/
def Meets (who : Requester) (a : Nat) (s : State) (p : Ctx → Queue → Bool) : Prop :=
  ∃ (c : Ctx) (r : List Byte), CommandAt (resuming who a s) 0 2 c r ∧ (c.faults.find? (·.fid == numAt r 8 4) == some (fault0 who) &&
    numAt r 12 1 == a && !c.frozen && (c.queues.headD (queue0 none)).owed.length ≤ 1 && p c (c.queues.headD (queue0 none))) = true

theorem meets {who : Requester} {a : Nat} {s : State} {p : Ctx → Queue → Bool}
    (h : commandHere (resuming who a s) 2 (fun c r => c.faults.find? (·.fid == numAt r 8 4) == some (fault0 who) &&
      numAt r 12 1 == a && !c.frozen && (c.queues.headD (queue0 none)).owed.length ≤ 1 && p c (c.queues.headD (queue0 none))) = true) : Meets who a s p :=
  command_at h

theorem witness_queue_faults :
    Meets farRead 0 (placed .nop) (fun _ _ => true) ∧
    (∀ a ∈ [0, 1], Meets (.queue 0 (.replay 0)) a parkedQueue (fun _ w => w.owed.isEmpty)) ∧
    (∀ a ∈ [0, 1], Meets (.queue 0 .status) a owingQueue (fun _ w => w.owed == [(0x40040, 1)] && w.walk.any fun v => v.node != 0)) ∧
    Meets (.queue 0 .node) 1 readingQueue (fun _ w => w.owed.isEmpty && w.walk.any fun v => v.phase == .reading) ∧
    owingQueue.translate 256 0 (0x40040 + 4) .write = .ok ⟨.dram, 0x40044⟩ ∧ readingQueue.translate 256 0 (0x40000 + 4) .write = .ok ⟨.dram, 0x40004⟩ ∧
    ((resuming (.queue 0 (.replay 0)) 1 parkedQueue).launch? 0).any (fun l => l.ctx == 0 && l.node == 0) = true ∧
    (withoutLaunch (dropped (resuming (.queue 0 (.replay 0)) 1 parkedQueue) 0 3) placedLaunch).translate 256 0 (placedLaunch.node + 4) .write = .ok ⟨.dram, 4⟩ :=
  ⟨meets (by decide), fun a m => meets ((by decide : ∀ a ∈ [0, 1], commandHere (resuming (.queue 0 (.replay 0)) a parkedQueue) 2 (fun c r =>
      c.faults.find? (·.fid == numAt r 8 4) == some (fault0 (.queue 0 (.replay 0))) && numAt r 12 1 == a && !c.frozen && (c.queues.headD (queue0 none)).owed.length ≤ 1 &&
        (c.queues.headD (queue0 none)).owed.isEmpty) = true) a m),
    fun a m => meets ((by decide : ∀ a ∈ [0, 1], commandHere (resuming (.queue 0 .status) a owingQueue) 2 (fun c r =>
      c.faults.find? (·.fid == numAt r 8 4) == some (fault0 (.queue 0 .status)) && numAt r 12 1 == a && !c.frozen && (c.queues.headD (queue0 none)).owed.length ≤ 1 &&
        ((c.queues.headD (queue0 none)).owed == [(0x40040, 1)] && (c.queues.headD (queue0 none)).walk.any fun v => v.node != 0)) = true) a m),
    meets (by decide), by decide, by decide, by decide, by decide⟩

theorem witness_queue_commands : ∀ op ∈ [3, 4],
    (∃ (c : Ctx) (r : List Byte), CommandAt (commanded (cmd op (leBytes 1 0)) (placed .nop)) 0 op c r ∧ (c.parkedQueue? (numAt r 8 1)).isNone = true) ∧
    (∃ (c : Ctx) (r : List Byte), CommandAt (commanded (cmd op (leBytes 1 0)) parkedQueue) 0 op c r ∧
      (!c.frozen && (c.queues[numAt r 8 1]?).any fun x => x.parked && x.walk.any fun w => w.node != 0) = true) :=
  fun op m => ⟨command_at ((by decide : ∀ op ∈ [3, 4], commandHere (commanded (cmd op (leBytes 1 0)) (placed .nop)) op
      (fun c r => (c.parkedQueue? (numAt r 8 1)).isNone) = true) op m),
    command_at ((by decide : ∀ op ∈ [3, 4], commandHere (commanded (cmd op (leBytes 1 0)) parkedQueue) op
      (fun c r => !c.frozen && (c.queues[numAt r 8 1]?).any fun x => x.parked && x.walk.any fun w => w.node != 0) = true) op m)⟩

/-- The placed group halted at its word, by a breakpoint or by a trap, and a command about the group of CU 0, slot 0. -/
def halting (brk : Bool) : State := { placed .nop with groups := [{ placedGroup with halt := some ⟨1, 0x10000, brk⟩ }] }
def groupCommand (action : Nat) (s : State) : State := commanded (cmd 5 (leBytes 2 0 ++ leBytes 1 0 ++ leBytes 1 action)) s

theorem witness_group_commands :
    (∀ a ∈ [0, 1, 2], ∃ (c : Ctx) (r : List Byte), CommandAt (groupCommand a (placed .nop)) 0 5 c r ∧
      (((groupCommand a (placed .nop)).haltedGroup? 0 (numAt r 8 2) (numAt r 10 1)).isNone && numAt r 11 1 == a) = true) ∧
    (∀ x ∈ [((0 : Nat), false), (1, false), (1, true), (2, false)], ∃ (c : Ctx) (r : List Byte), CommandAt (groupCommand x.1 (halting x.2)) 0 5 c r ∧
      (((groupCommand x.1 (halting x.2)).haltedGroup? 0 (numAt r 8 2) (numAt r 10 1)).any (fun y => y.2.2.brk == x.2 && y.2.1.hdr.ring == 0) && numAt r 11 1 == x.1) = true) ∧
    (halting false).fetch 0 0 0x10000 = .word ((Instr.nop).encode.getD 0) ∧ ((Instr.nop).encode.getD 0).extractLsb' 25 7 < 0x7C#7 :=
  ⟨fun a m => command_at ((by decide : ∀ a ∈ [0, 1, 2], commandHere (groupCommand a (placed .nop)) 5
      (fun _ r => ((groupCommand a (placed .nop)).haltedGroup? 0 (numAt r 8 2) (numAt r 10 1)).isNone && numAt r 11 1 == a) = true) a m),
    fun x m => command_at ((by decide : ∀ x ∈ [((0 : Nat), false), (1, false), (1, true), (2, false)], commandHere (groupCommand x.1 (halting x.2)) 5
      (fun _ r => ((groupCommand x.1 (halting x.2)).haltedGroup? 0 (numAt r 8 2) (numAt r 10 1)).any (fun y => y.2.2.brk == x.2 && y.2.1.hdr.ring == 0) &&
        numAt r 11 1 == x.1) = true) x m), by decide, by decide⟩

/-- A descriptor of context 1 that passes every check, its queue table of sixteen entries, and every stack ready. -/
def describing : State :=
  (List.range 16).foldl (fun s q => poke (0x110008 + 32 * q) (leBytes 4 4) s) (poke 0x180100 (leBytes 8 0x100000 ++ leBytes 8 0x200000 ++ leBytes 8 0x110000 ++
    leBytes 16 0 ++ leBytes 8 0x120000 ++ leBytes 1 4 ++ leBytes 1 2 ++ leBytes 1 4 ++ leBytes 5 0 ++ leBytes 8 0x130000 ++ leBytes 8 0x140000 ++ leBytes 8 0x150000)
    { placed .nop with stackReady := 0xFFF, bar0 := { (placed .nop).bar0 with ctxtab := 0x180000 } })

theorem witness_contexts : describing.power = true ∧ describing.ctx? 0 ≠ none ∧ describing.ctx? 1 = none ∧ (placed .nop).readDesc 1 = none ∧
    (describing.readDesc 1).any (fun x => x.1.ptroot == 0x100000 && x.2.length == 16) = true ∧
    ((placed .nop).ctx? 0).isSome = true ∧ ({ placed .nop with reservation := some ⟨0, [0]⟩ } : State).reservation = some ⟨0, [0]⟩ ∧
    ({ placed .nop with reservation := some ⟨0, [0]⟩ } : State).launches.any (fun l => l.ctx == 0 && l.id == 0) = true := by decide +kernel

/-- A fault that has not been reported, in a queue with room, in a full one, and in one whose header has a reserved byte set. -/
def reporting (tail : Nat) : State := poke 0x120008 (leBytes 8 tail) (ctx0 (fun c => { c with faults := [{ fault0 (.queue 0 .node) with reported := false }] }) (placed .nop))

theorem witness_fault_reports : ((reporting 0).ctx? 0).any (fun c => (c.faults.find? fun y => y.fid == 3 && !y.reported) == some { fault0 (.queue 0 .node) with reported := false } &&
      c.desc.fqlog == 4) = true ∧ ((reporting 0).dram.num 0x120008 8 + 2 ^ 64 - (reporting 0).dram.num 0x120000 8) % 2 ^ 64 < 2 ^ 4 ∧
    (∀ b ∈ (reporting 0).dram.read (0x120000 + 16) 48, b = 0) ∧ (¬∀ b ∈ (poke 0x120011 [1] (reporting 0)).dram.read (0x120000 + 16) 48, b = 0) ∧
    2 ^ 4 ≤ ((reporting 16).dram.num 0x120008 8 + 2 ^ 64 - (reporting 16).dram.num 0x120000 8) % 2 ^ 64 ∧
    Writable (reporting 0) ⟨.dram, 0x120040⟩ 32 ∧ Writable (reporting 0) ⟨.dram, 0x120008⟩ 8 := ⟨by decide, by decide, by decide, by decide, by decide, writable (by decide), writable (by decide)⟩

/-- Memory of a ready stack and of one that is not ready; mailbox commands. -/
def mailing (bs : List Byte) : State := { placed .nop with bar0 := { (placed .nop).bar0 with mbcmd := bs ++ List.replicate (64 - bs.length) 0 } }

theorem witness_host_link : (placed .nop).power = true ∧ describing.memReady 0x20000 16 = true ∧ (placed .nop).memReady 0x20000 16 = false ∧ (placed .nop).dram.wf = true ∧
    (∀ bs ∈ [leBytes 8 1, leBytes 8 2, leBytes 8 3, leBytes 8 5], (mailing bs).bar0.mbOk = true ∧ numAt (mailing bs).bar0.mbcmd 0 1 ∈ [1, 2, 3, 5]) ∧
    (mailing (leBytes 8 4)).bar0.mbOk = false ∧ (placed .nop).bar0.sparemap.length = 4 ∧ (placed .nop).bar0.mbcmd.length = 64 := by decide

/-- INVPT beside a store of its context that is held back, and a firmware image that can be read and one that carries a mark. -/
def imaging (bad : List Nat) : State := { mailing (leBytes 8 5 ++ leBytes 8 0x20000 ++ leBytes 8 64) with dramBad := bad }

theorem witness_host_more :
    (((holding .nop).flights.map (·.id)).Nodup ∧ ((placed .nop).flights.all fun f => !f.op.isLate) = true) ∧
    ((List.range 64).all (fun k => !((imaging []).isRetired ⟨.dram, 0x20000 + k⟩ || marked (imaging []).dramBad (0x20000 + k) 1)) &&
      (List.range 64).any (fun k => marked (imaging [0x20020]).dramBad (0x20000 + k) 1)) = true ∧
    ((placed .nop).hdmbase + 0xC000000000 ≤ 0xC000000000 ∧ 5 < { placed .nop with hdmbase := 0x100000000000 }.hdmbase) ∧
    ({ placed .nop with port2 := none, agenda := [.hdmBase 0x100000000000] } : State).port2 = none ∧
    ({ placed .nop with port2 := none, agenda := [.hostStore 0x1000 [1, 2]] } : State).port2 = none ∧
    Writable (placed .nop) ⟨.host, 0x1000⟩ 64 :=
  ⟨by decide, by decide +kernel, by decide, by decide, by decide, writable_host (by decide)⟩

/-! ### Witnesses: start, errors and the fabric -/

def unpowered : State := { State.reset with power := false }
/-- The module at power-good with these units left in stages 1 and 2. -/
def staging (a : List Stage1Unit) (us ps : List Nat) : State := { State.reset with stage1Open := a, stage2Open := us, portsOpen := ps }

theorem witness_stages : unpowered.power = false ∧ State.reset.power = true ∧
    (∀ x ∈ ([([.llc 0], true), ([.llc 0, .stack 1], false), ([.llc 0, .stack 3], true)] : List (List Stage1Unit × Bool)), .llc 0 ∈ (staging x.1 [] []).stage1Open ∧
      ((x.1.erase (.llc 0)).all fun v => match v with
        | .llc d => d != 0
        | .stack n => n / 3 != 0) = x.2) ∧ (.stack 1 ∈ (staging [.llc 0, .stack 1] [] []).stage1Open) ∧
    5 ∈ (staging [] [5, 6] []).stage2Open ∧ 5 ∈ (staging [] [5, 70] []).stage2Open ∧ ((staging [] [5, 70] []).launches.all fun l => !l.resident) = true ∧
    23 ∈ (staging [] [] [23]).portsOpen := by decide

/-- The device error queue configured with sixteen slots, `tail` records in it and these waiting. -/
def errored (tail : Nat) (rs : List ErrRec) : State :=
  { poke 0x170008 (leBytes 8 tail) (placed .nop) with bar0 := { (placed .nop).bar0 with deveqbase := 0x170000, deveqlog := 4 }, devErrq := rs }
def record1 (cls : Nat) : ErrRec := { ErrRec.of State.reset cls 1 0 with time := 0 }

theorem witness_error_queue : (errored 0 []).errQueue none = some (0x170000, 16, 128) ∧
    ((errored 0 []).dram.num (0x170000 + 8) 8 + 2 ^ 64 - (errored 0 []).dram.num 0x170000 8) % 2 ^ 64 < 16 ∧ (errored 0 []).waitingErrs none = [] ∧
    (∀ b ∈ (errored 0 []).dram.read (0x170000 + 16) 48, b = 0) ∧ (¬∀ b ∈ (poke 0x170010 [1] (errored 0 [])).dram.read (0x170000 + 16) 48, b = 0) ∧
    16 ≤ ((errored 16 []).dram.num (0x170000 + 8) 8 + 2 ^ 64 - (errored 16 []).dram.num 0x170000 8) % 2 ^ 64 ∧ (record1 1).cls = 1 ∧ (record1 2).cls ≠ 1 ∧ (record1 2).cls ≠ 5 ∧
    Writable (errored 0 []) ⟨.dram, 0x170040⟩ 64 ∧ Writable (errored 0 []) ⟨.dram, 0x170008⟩ 8 ∧ State.reset.bar0.deveqlog < 4 ∧
    (errored 0 [record1 2]).waitingErrs none = [record1 2] ∧ (placed .nop).errQueue (some 0) = some (0x140000, 16, 1) :=
  ⟨by decide, by decide, by decide, by decide, by decide, by decide, by decide, by decide, by decide, writable (by decide), writable (by decide), by decide, by decide, by decide⟩

/-- A window of corrected events of a unit. -/
def window0 : ErrWindow := ⟨1, 256, record1 1, none⟩

theorem witness_errors : (placed .nop).power = true ∧
    (∀ x ∈ ([.dram 0x20000, .llc 0x20000, .scratch 0 64, .reg 0 0 0 0 5, .hold 0 0 7, .llcHost 0x1000, .cxl 0, .control 0 0x100000] : List ErrSite), ((placed .nop).siteInfo x).here = true) ∧
    (State.siteInfo (cu0 (fun c => { c with l1 := [⟨⟨.dram, 0x20000⟩, [], false⟩] }) (placed .nop)) (.l1 0 0x20000)).here = true ∧
    (State.siteInfo (cu0 (fun c => { c with l1 := [⟨⟨.host, 0x1000⟩, [], false⟩] }) (placed .nop)) (.l1Host 0 0x1000)).here = true ∧
    (State.siteInfo (cu0 (fun c => { c with l1 := [⟨⟨.peer 9, 0x1000⟩, [], false⟩] }) (placed .nop)) (.l1Peer 0 9 0x1000)).here = true ∧
    (placed .nop).team? 0 = some placedTeam ∧ 64 < placedTeam.scr ∧ (placedTeam.hold.find? (·.part == 0)).isSome = true ∧
    (placed .nop).group? 0 0 0 = some placedGroup ∧ placedGroup.thread? 0 = some placedThread ∧ 5 < placedGroup.nreg ∧
    ((placed .nop).ctx? 0).any (fun x => !x.frozen && x.queues.all fun q => q.walk.isNone) = true ∧ (∀ l ∈ (placed .nop).launches, l.hdr.ring = 0) ∧
    ((placed .nop).launches.map (·.id)).Nodup ∧
    State.reset.windows.find? (fun w => w.source == 1 && w.unit == 256) = none ∧
    { State.reset with windows := [window0] }.windows.find? (fun w => w.source == 1 && w.unit == 256) = some window0 := by decide

/-- The placed machine with every watchdog set: of the group, of the CU once that has expired, and of the harbourmaster. -/
def watched (group : Option Nat) (cu : Bool) (arm : BitVec 3) : State :=
  queued (queue0 (some { walk0 0x40000 [] with phase := .running })) (header (fun h => { h with wdg := 5 }) (cu0 (fun c => { c with wdExpired := cu })
    { placed .nop with groups := [{ placedGroup with wdExpired := group }], bar0 := { (placed .nop).bar0 with wdcu := 6, wdhm := 7, wdarm := arm } }))

theorem witness_watchdogs :
    ((watched none false 7).group? 0 0 0).any (fun g => g.halt.isNone && g.wdExpired.isNone && (g.thread? 0).isSome && g.wdgroup == 0) = true ∧
    ((watched none false 7).launch? placedGroup.launch).any (fun l => l.stop.isNone && l.hdr.wdg != 0 && l.hdr.ring == 0) = true ∧
    ((watched (some 1) false 7).expiredLaunch 0).any (fun l => (watched (some 1) false 7).launch? l.id == some l && l.stop.isNone) = true ∧
    ((watched (some 1) false 7).cu? 0).any (fun c => !c.wdExpired) = true ∧ ((watched (some 1) true 7).cu? 0).any (·.wdExpired) = true ∧
    ((watched (some 1) true 7).expiredLaunch 0).isSome = true ∧ HmWait.cu 0 ∉ (watched (some 1) true 7).hmExpired ∧ (watched none false 3).bar0.wdcu ≠ 0 ∧
    (watched none false 3).bar0.wdhm ≠ 0 ∧ ((watched none false 3).queue? 0 0).any (fun x => !x.1.frozen && x.2.walk.any fun w => w.node != 0 && w.phase == .running) = true ∧
    (watched none false 3).bar0.wdarm.getLsbD 2 = false ∧ HmWait.queue 0 0 ∉ (watched none false 3).hmExpired ∧ (watched none false 7).bar0.wdarm.getLsbD 0 = true ∧
    (placed .nop).thermalLimited ≠ true ∧ (placed .nop).powerLimited ≠ true ∧ { placed .nop with thermalLimited := true }.thermalLimited ≠ false := by decide

/-- A load in flight whose data goes through the refetch procedure. -/
def refetching (why : BadRead) : State :=
  { placed .nop with flights := [{ flight (.load []) with refetch := some ⟨0, 0, why, 0x20000⟩ }] }

theorem witness_refetch : loading.flight? 7 = some (flight (.load [])) ∧ (flight (.load [])).fault = none ∧ (flight (.load [])).refetch = none ∧
    (flight (.load [])).op.plain = true ∧ (∀ p ∈ [BadRead.hash, .link 3, .boundary 2], ((refetching p).flight? 7).any fun f => f.refetch == some ⟨0, 0, p, 0x20000⟩ && f.op.plain) ∧
    ((refetching (.link 3)).launch? 0).any (fun l => l.stop.isNone && l.hdr.ring == 0) = true := by decide

/-- What the address of a link's record rests on: a load of a place that translates (R429). -/
theorem witness_link_address : (FlightOp.load []).addr? = none ∧ (flight (.load [])).va = 0 ∧ isView 0 = false ∧ loading.translate 0 0 0 .read = .ok ⟨.dram, 0⟩ ∧
    (loading.windows.find? fun w => w.source == 6 && w.unit == 256) = none := by decide

/-- A step whose write fails its check when it is sent again (R436): a word's, and an operation's. -/
def failing (s : State) : State := { s with upset := some .write }
def writesSomething (i : Instr) (s : State) : Bool :=
  match exec i s with
  | .next t => (s.written t).isSome
  | _ => false
def filled : State := poke 0x20000 (List.replicate 16 1) (flying (.copy copying))

theorem witness_failed_writes :
    (let i : Instr := .stl 8 14 1 0 .b
     let s := failing (vreg 8 5 (based 0x40 i))
     s.upset = some .write ∧ s.env?.any (fun e => e.l.stop.isNone && e.l.hdr.ring == 0) = true ∧ i.encode.isSome = true ∧ writesSomething i s = true) ∧
    (let s := failing filled
     s.upset = some .write ∧ eventFlight (.lineLands 7 0 0) = some 7 ∧ writesSomething (.lineLands 7 0 0) s = true ∧ s.flight? 7 = some (flight (.copy copying)) ∧
       (s.launch? 0).any (fun l => l.stop.isNone && l.hdr.ring == 0) = true) ∧
    ((placed .nop).upset ≠ some .write ∧ (failing (issued .nop)).written (failing (issued .nop)) = none) := by decide

/-- Context 0 with a fabric tag; a route to node 9 by port 4, which has trained. -/
def tagged : State := ctx0 (fun c => { c with desc := { c.desc with fabtag := 0x8006 } }) (placed .nop)
def routed : State := { placed .nop with linkReady := 16, bar0 := { (placed .nop).bar0 with route := [(9, 0x80000010)] } }

theorem witness_remote : 0x20000 % 4 = 0 ∧ 0x20000 % 8 = 0 ∧ 0x20000 + 8 ≤ 0xC000000000 ∧ ((placed .nop).loadPhys ⟨.dram, 0x20000⟩ 8).2 = false ∧
    ((placed .nop).loadPhys ⟨.dram, 0x20000⟩ 4).2 = false ∧ (placed .nop).ctxOfTag 6 = none ∧ (tagged.ctxOfTag 6).any (·.id == 0) = true ∧
    ((farDesc image).elems 0 4).map (fun x => tagged.mapElem 256 0 0 .module .read (farDesc image) x.1 x.2) = [.at_ ⟨.dram, 0x20000⟩ 0x20000 4] ∧
    ((farDesc image).elems 0 4).map (fun x => tagged.mapElem 256 0 0 .module .write (farDesc image) x.1 x.2) = [.at_ ⟨.dram, 0x20000⟩ 0x20000 4] ∧
    9 ≠ routed.bar0.nodeid ∧ lookupKey routed.bar0.route 9 = some 0x80000010 ∧ bitOf 0x80000010 31 = true ∧ bitOf 0x80000010 4 = true ∧
    routed.linkReady.getLsbD 4 = true := by decide

/-- Physical CU 256 that takes the position of logical CU 3, which no physical CU stands behind then. -/
def spared : State := { staging [] [3, 256] [] with spares := [(3, 256)] }

theorem witness_spares :
    (∃ b : Bool, b = true ∧ 256 ∈ spared.stage2Open ∧ (lookupKey spared.spares 3).getD 3 = 256 ∧ ∀ v < 3, (lookupKey spared.spares v).getD v ≠ 256) ∧
    (3 ∈ spared.stage2Open ∧ ∀ u < 256, (lookupKey spared.spares u).getD u ≠ 3) ∧
    (let s := { State.reset with bar0 := { State.reset.bar0 with sparemap := [0x8003, 0x80058005, 0, 0] } }
     s.power = true ∧ (0x8003 : BitVec 64).getLsbD 15 = true ∧ s.bar0.go2.getLsbD 0 = false) := ⟨⟨true, by decide⟩, by decide, by decide⟩

/-- A queue at a WAIT node that is armed, and one at a LAUNCH node. -/
def armedWait : State :=
  queued (queue0 (some { walk0 0x40000 [] with phase := .running, waiting := some 5 })) (watched none false 7)
def armedLaunch : State :=
  queued (queue0 (some { walk0 0x40000 [] with phase := .running })) ((watched none false 7).updLaunch 0 fun l => { l with node := 0x40000 })

theorem witness_armed_nodes :
    ((armedWait.queue? 0 0).any fun x => !x.1.frozen && x.2.owed.isEmpty && x.2.walk.any fun w => w.node == 0x40000 && w.phase == .running && w.waiting.isSome) = true ∧
    armedWait.bar0.wdarm.getLsbD 2 = true ∧ armedWait.bar0.wdhm ≠ 0 ∧ HmWait.queue 0 0 ∉ armedWait.hmExpired ∧
    armedWait.translate 256 0 0x40004 .write = .ok ⟨.dram, 0x40004⟩ ∧ Writable armedWait ⟨.dram, 0x40004⟩ 4 ∧ Writable armedWait ⟨.dram, 0x160000⟩ 8 ∧
    ((armedLaunch.queue? 0 0).any fun x => !x.1.frozen && x.2.walk.any fun w => w.node == 0x40000 && w.phase == .running && w.waiting.isNone) = true ∧
    (armedLaunch.launches.find? fun l => l.ctx == 0 && l.queue == 0 && l.node == 0x40000 && l.stop.isNone).isSome = true :=
  ⟨by decide, by decide, by decide, by decide, by decide, writable (by decide), writable (by decide), by decide, by decide⟩

/-- A record behind one that waits, a marked sector that has no zero flag and one that has, and a link. -/
theorem witness_error_more : ((errored 0 [record1 2]).waitingErrs none ≠ [] ∧ 0 < 16) ∧ 0x20000 / 32 * 32 ∉ (placed .nop).zeroFlags ∧
    0x20000 / 32 * 32 ∈ { placed .nop with zeroFlags := [0x20000] }.zeroFlags ∧ ((placed .nop).siteInfo (.link 23)).here = true := by decide

/-- Parts of a copy, of a PILOT and of an MCHK that go through the refetch procedure. -/
def refetchingOp (op : FlightOp) (why : BadRead) : State := { placed .nop with flights := [{ flight op with refetch := some ⟨0, 0, why, 0x20000⟩ }] }
def goes (s : State) (op : FlightOp) (why : BadRead) (via : Via) : Bool :=
  match (s.updFlight 7 fun f => { f with refetch := none }).redo (flight op) ⟨0, 0, why, 0x20000⟩ via with
  | some (.go _) => true
  | _ => false
def hashes (s : State) (op : FlightOp) (why : BadRead) (via : Via) : Bool :=
  match (s.updFlight 7 fun f => { f with refetch := none }).redo (flight op) ⟨0, 0, why, 0x20000⟩ via with
  | some (.hash _ _) => true
  | _ => false

theorem witness_refetch_parts :
    (∀ op ∈ [FlightOp.copy copying, .pilot (selecting (some [])), .mchk (repairing (some []) (some []))], ∀ p ∈ [BadRead.hash, .link 3, .boundary 3],
      op.plain = false ∧ ((refetchingOp op p).flight? 7).any (fun f => f.refetch == some ⟨0, 0, p, 0x20000⟩) = true ∧ goes (refetchingOp op p) op p .home = true ∧
      hashes (refetchingOp op (.link 3)) op (.link 3) .replica = true) ∧
    goes (refetchingOp (.copy { copying with pieces := [] }) (.link 3)) (.copy { copying with pieces := [] }) (.link 3) .replica = true ∧
    (refetchingOp (.copy storing) .hash).redo (flight (.copy storing)) ⟨0, 9, .hash, 0x20000⟩ .home = none ∧
    (refetchingOp (.copy storing) (.link 3)).redo (flight (.copy storing)) ⟨0, 0, .link 3, 0x20000⟩ .replica = none := by decide +kernel

/-- SHA-256 of "abc", as FIPS 180 gives it. -/
theorem test_sha256 : sha256 [0x61, 0x62, 0x63] = beBytes 32 0xba7816bf8f01cfea414140de5dae2223b00361a396177a9cb410ff61f20015ad := by decide +kernel

/-- A descriptor of 8-byte elements, as an atomic needs it; no format granule. -/
def image8 : List Byte := leBytes 8 0x20000 ++ leBytes 4 5 ++ leBytes 4 0x817C0 ++ image.drop 16

theorem witness_remote_views :
    (farDesc image).readOnly = false ∧ (farDesc image).esz = 2 ∧ (farDesc image8).esz = 3 ∧ (farDesc image8).readOnly = false ∧
    ((tagged.ctxOfTag 6).any fun c => !tagged.farGran c (farDesc image) [(0, 4)] && !tagged.farGran c (farDesc image8) [(0, 8)]) = true ∧
    ((farDesc image).elems 0 4).map (fun x => tagged.mapElem 256 0 0 .module .atomic (farDesc image) x.1 x.2) = [.at_ ⟨.dram, 0x20000⟩ 0x20000 4] ∧
    ((farDesc image8).elems 0 8).map (fun x => tagged.mapElem 256 0 0 .module .atomic (farDesc image8) x.1 x.2) = [.at_ ⟨.dram, 0x20000⟩ 0x20000 8] ∧
    (tagged.loadPhys ⟨.dram, 0x20000⟩ 8).2 = false ∧ 0x20000 + 8 ≤ 0xC000000000 ∧ 0xC000000000 < 0xC000000000 + 1 ∧ (tagged.ctxOfTag 7).isNone = true := by decide

/-- A fault that the far module has reported, of an issue here, and the far host's answer; one that was reported here. -/
def farFault (fid : Nat) (abandon : Bool) : State :=
  { ctx0 (fun c => { c with faults := [{ fault0 (.issue 0 0 0 1) with fid := fid }] }) (placed .nop) with port2 := none, agenda := [.farResume 0 fid abandon] }

theorem witness_far_answers : ∀ ab ∈ [false, true], (farFault (2 ^ 32) ab).port2 = none ∧ (farFault (2 ^ 32) ab).agenda = [.farResume 0 (2 ^ 32) ab] ∧
    (((farFault (2 ^ 32) ab).ctx? 0).bind fun c => c.faults.find? (·.fid == 2 ^ 32)).any (fun x => x.who == .issue 0 0 0 1 && x.launch == some 0) = true ∧
    ((farFault (2 ^ 32) ab).launch? 0).any (fun l => l.stop.isNone && l.hdr.ring == 0) = true ∧ (3 : Nat) < 2 ^ 32 := by decide

/-- Packets that no port can forward: no hops left, no route, a route that is not valid, and one whose port has not trained. -/
theorem witness_packets_dropped : lookupKey (placed .nop).bar0.route 9 = none ∧ 9 ≠ (placed .nop).bar0.nodeid ∧
    bitOf 0x10 31 = false ∧ (∀ p < 24, bitOf 0x80000020 p = false ∨ routed.linkReady.getLsbD p = false) ∧ bitOf 0x80000020 31 = true := by decide

/-! ### Single steps: the worked examples and tables of the manual -/

/-- Registers `r`, `r + 1`, … of the placed thread after an instruction, and its FX flags. -/
def after (i : Instr) (s : State) (r n : Nat) : Option (List Word × Word) :=
  match exec i s with
  | .next t => ((t.group? 0 0 0).bind (·.thread? 0)).map fun x => ((x.regs.drop r).take n, x.fx)
  | _ => none

/-- The placed machine with registers set from `r` on. -/
def vregs (r : Nat) (ws : List Word) (s : State) : State := (ws.zipIdx).foldl (fun s w => vreg (r + w.2) w.1 s) s

/-- R116: byte reversal, sign fill and zero fill. -/
theorem test_bysel : [0x00000053#32, 0x000801F5#32, 0x000811F5#32].map (fun b =>
      after (.bysel 3 1 2 false 0) (vregs 1 [0x44332211, b, 0x88776655] (issued (.bysel 3 1 2 false 0))) 3 1) =
    [some ([0x11223344], 0), some ([0x00887766], 0), some ([0x00887700], 0)] := by decide

/-- The 64-bit addition of "Instructions: scalar and control": low halves with carry-in 0, high halves with carry-in 1. -/
def adding (a b : Word) (p2 : Bool) : State := thread0 (fun t => t.setP 2 p2) (vregs 1 [a, b] (issued (.iadc 3 1 2 false 2)))

theorem test_iadc_low : after (.iadc 3 1 2 false 2) (adding 0xFFFFFFF0 0x20 false) 3 1 = some ([0x10], 0) := by decide
theorem test_iadc_high : after (.iadc 3 1 2 false 2) (adding 1 2 true) 3 1 = some ([4], 0) := by decide

/-- R118: IADD under SAT 1 and SAT 2; R120: IABS of the least number. -/
theorem test_iadd_saturates : [(1 : Nat), 2, 0].map (fun k =>
      after (.iadd 3 1 2 false 0) (thread0 (fun t => { t with hints := [.modArith 0 (BitVec.ofNat 2 k) 0 0], hintPc := 0xFFFC }) (vregs 1 [0x7FFFFFFF, 0x80000001] (issued (.iadd 3 1 2 false 0)))) 3 1) =
    [some ([0], 0), some ([0xFFFFFFFF], 0), some ([0], 0)] := by decide
theorem test_iabs : after (.iabs 2 1 false 0) (vregs 1 [0x80000000] (issued (.iabs 2 1 false 0))) 2 1 = some ([0x80000000], 0) := by decide

/-- R121: division by zero, and of the least number by −1. -/
theorem test_division : [((7 : Word), (0 : Word)), (0x80000000, 0xFFFFFFFF), (0xFFFFFFF9, 2)].map (fun x =>
      (after (.idivS 2 1 0 false 0) (vregs 1 [x.2, x.1] (issued (.idivS 2 1 0 false 0))) 2 1, after (.iremS 2 1 0 false 0) (vregs 1 [x.2, x.1] (issued (.iremS 2 1 0 false 0))) 2 1)) =
    [(some ([0xFFFFFFFF], 2), some ([7], 2)), (some ([0x80000000], 0), some ([0], 0)), (some ([0xFFFFFFFD], 0), some ([0xFFFFFFFF], 0))] := by decide

/-- R115: shifts by the width and more, and a field that runs past bit 31. -/
theorem test_shifts : after (.shl 3 1 2 false 0) (vregs 1 [1, 32] (issued (.shl 3 1 2 false 0))) 3 1 = some ([0], 0) ∧
    after (.sar 3 1 2 false 0) (vregs 1 [0x80000000, 0xFFFFFFFF] (issued (.sar 3 1 2 false 0))) 3 1 = some ([0xFFFFFFFF], 0) ∧
    after (.rotl 3 1 2 false 0) (vregs 1 [0x80000001, 33] (issued (.rotl 3 1 2 false 0))) 3 1 = some ([3], 0) ∧
    after (.bfeS 3 1 2 false 0) (vregs 1 [0x80000000, 0x0000081C] (issued (.bfeS 3 1 2 false 0))) 3 1 = some ([0xFFFFFFF8], 0) := by decide

/-- R147: the rows of the FMIN table. -/
theorem test_fmin : ([(0x00000000, 0x80000000), (0x3F800000, 0x7FC00001), (0x7F800001, 0x40000000), (0x7FC00001, 0xFF800002)] : List (Word × Word)).map (fun x =>
      after (.fmin 2 1 false 0) (vregs 1 [x.2, x.1] (issued (.fmin 2 1 false 0))) 2 1) =
    [some ([0x80000000], 0), some ([0x3F800000], 0), some ([0x40000000], 1), some ([0x7FC00001], 1)] := by decide

/-- R151: the packed multiply-add with one half that overflows. -/
theorem test_pkfma : after (.pkfmaH 12 13 14 false 0) (vregs 12 [0x00003C00, 0x7BFF3C00, 0x40003C01] (issued (.pkfmaH 12 13 14 false 0))) 12 1 =
    some ([0x7C004000], 0x14) := by decide

/-- R154, R155: narrowing to E4M3 under a block scale of 1.25. -/
theorem test_cvtn : after (.cvtn 8 16 1 3 false 0)
      (sreg 3 0x3FA00000 (vregs 16 [0x3F800000, 0xC0400000, 0x44160000, 0x7FC00000] (slots ⟨0, 0x1303, 0x3F800000, 0x3F800000, []⟩ (issued (.cvtn 8 16 1 3 false 0))))) 8 1 =
    some ([0x7F7EC235], 0x50) := by decide

/-- R159, R158: elements of the lattice word 0x403861E5. -/
def lattice (kind : Word) (i : Instr) : State := slots ⟨0, kind, 0x3F800000, 0x3F800000, []⟩ (vreg 1 0x403861E5 (issued i))

theorem test_xl8 : [(6 : BitVec 3), 7].map (fun i => after (.xl8 2 1 0 i false 0) (lattice 0x0B (.xl8 2 1 0 i false 0)) 2 1) =
    [some ([0x3F000000], 0), some ([0x40B00000], 0)] := by decide
theorem test_dl8 : after (.dl8 8 1 0 3 false 0) (sreg 3 0x3F000000 (lattice 0x0B (.dl8 8 1 0 3 false 0))) 8 8 =
    some ([0x3FA00000, 0xBE800000, 0x3E800000, 0x3FE00000, 0xBFE00000, 0x3F400000, 0x3E800000, 0x40300000], 0) := by decide

/-- R84, R157: the L8W4 point of "Arithmetic", and the overflow of the shell under SAT. -/
def quantising (kind : Word) (ws : List Word) : State :=
  sreg 3 0x3F800000 (vregs 16 ws (slots ⟨0, kind, 0x3F800000, 0x3F800000, []⟩ (issued (.ql8 8 2 7 0 3 false 0))))

theorem test_ql8 : after (.ql8 8 2 7 0 3 false 0)
      (quantising 0x0B [0x3E800000, 0xBFE00000, 0x40200000, 0x3F400000, 0xBE800000, 0x3FC00000, 0xC0200000, 0]) 8 1 = some ([0xFA3E05C1], 0) := by decide

/-! ### Witnesses: accesses of several elements and lanes, early reads, checks of reads -/

/-- View 3 is the image: 4-byte elements at 0x20000; accesses of 8 and 16 bytes through it are split (R312). -/
def viewed (i : Instr) : State := poke 0x200180 image (based 0xFFF0030000000000 i)

theorem witness_split :
    (∃ e y, Clear (viewed (.ldQ 8 14 1 0 .die true)) (.ldQ 8 14 1 0 .die true) e
        (e.accConds { acc := .read, size := 16, scope := .die } (e.eas .lane 1 (.code 14 1))) ∧
      e.mapAll (e.advance (e.shape (.ldQ 8 14 1 0 .die true))) { acc := .read, size := 16, scope := .die } (e.eas .lane 1 (.code 14 1)) = .ok y ∧
      ((y.2.loadAll e.iss.cu .die y.1).2.1 = none ∧ y.1.map (fun v => (partsOf 0 v.2).map fun x => (x.va, x.len, x.elem)) =
        [[(0x20000, 4, 0), (0x20004, 4, 1), (0x20008, 4, 2), (0x2000C, 4, 3)]])) ∧
    (∃ e y, Clear (lateIssue (viewed (.stD 8 14 1 0 .die false))) (.stD 8 14 1 0 .die false) e
        (e.accConds { acc := .write, size := 8, scope := .die } (e.eas .lane 1 (.code 14 1))) ∧
      e.mapAll (e.advance (e.shape (.stD 8 14 1 0 .die false))) { acc := .write, size := 8, scope := .die } (e.eas .lane 1 (.code 14 1)) = .ok y ∧
      (e.iss.late = true ∧ y.1.map (fun v => (piecesOf 0 v.2 [1, 2, 3, 4, 5, 6, 7, 8]).map fun w => (w.1, w.2.1.addr, leNat w.2.2)) = [[(0, 0x20000, 0x04030201), (1, 0x20004, 0x08070605)]])) ∧
    (∃ e y, Clear (lateIssue (based 0x20010 (.stQ 8 14 1 0 .die false))) (.stQ 8 14 1 0 .die false) e
        (e.accConds { acc := .write, size := 16, scope := .die } (e.eas .lane 1 (.code 14 1))) ∧
      e.mapAll (e.advance (e.shape (.stQ 8 14 1 0 .die false))) { acc := .write, size := 16, scope := .die } (e.eas .lane 1 (.code 14 1)) = .ok y ∧
      (y.1.flatMap fun v => (piecesOf 0 v.2 (List.replicate 16 9)).flatMap fun w => unitsOf v.1 w.1 (fun j => .mem ⟨w.2.1.space, w.2.1.addr + j⟩) w.2.2) =
        [⟨0, 0, .mem ⟨.dram, 0x20010⟩, List.replicate 8 (9, false)⟩, ⟨0, 0, .mem ⟨.dram, 0x20018⟩, List.replicate 8 (9, false)⟩]) ∧
    (∀ v ∈ ([(0, [.at_ ⟨.dram, 0x20000⟩ 0x20000 4, .at_ ⟨.dram, 0x20004⟩ 0x20004 4])] : Mapped), ∀ y ∈ piecesOf 0 v.2 [1, 2, 3, 4, 5, 6, 7, 8],
      0 < y.1 → overlap 0x20000 4 y.2.1.addr y.2.2.length = false) :=
  ⟨clear_map (by decide), clear_map (by decide), clear_map (by decide), by decide⟩

/-- The placed group with two threads, both in the issue; the second with register v2 changed. -/
def twoLanes (v : Word) (s : State) : State :=
  { s.updGroup 0 0 0 fun g => { g with threads := [g.threads.headD none, (g.threads.headD none).map fun t => { t with regs := t.regs.set 2 v }] } with
    cur := s.cur.map fun i => { i with lanes := 3 } }

def AtomsMeet (v : Word) (q : Mapped → Prop) : Prop :=
  let i : Instr := .atom 8 .add 2 1 0 .module true
  let sp : AccSpec := { acc := .atomic, size := 4, scope := .module, atomic := true }
  ∃ e y, Clear (twoLanes v (based 0x20004 i)) i e (e.accConds sp (e.eas .lane 1 (.block 2 1))) ∧
    e.mapAll (e.advance (e.shape i)) sp (e.eas .lane 1 (.block 2 1)) = .ok y ∧
    ((e.rmwAll 4 (fun t old => let ws := e.words (.code 8 (atomRegs .add false)) t
      atomNew .add 32 old (regsNat (ws.take 1)) (regsNat (ws.drop 1))) y.1 y.2).2.1 = none ∧ q y.1)

/-- Two lanes whose atomics share no byte, two that name one place, and the same in the scratchpad. -/
theorem witness_lanes_apart :
    AtomsMeet 8 (· = [(0, [.at_ ⟨.dram, 0x20004⟩ 0x20004 4]), (1, [.at_ ⟨.dram, 0x2000C⟩ 0x2000C 4])]) ∧
    AtomsMeet 0 (· = [(0, [.at_ ⟨.dram, 0x20004⟩ 0x20004 4]), (1, [.at_ ⟨.dram, 0x20004⟩ 0x20004 4])]) ∧
    ∀ v ∈ [(8, [(0, 0), (1, 8)]), (0, [(0, 0), (1, 0)])], (let i : Instr := .atoml 8 2 1 0 .fadd
      ((twoLanes (BitVec.ofNat 32 v.1) (issued i)).env?.any fun e => clearAt e i (e.scrConds 4 4 true (e.sas .lane 1 (.code 2 1))) &&
        (e.sas .lane 1 (.code 2 1)).map (fun a => (a.1, a.2.toNat)) == v.2)) = true :=
  ⟨clear_map (by decide), clear_map (by decide), by decide⟩

/-- Of two lanes at BAR one has arrived in the phase already. -/
theorem witness_mixed_arrival : ∀ i ∈ ([.bar 3 4, .bara 3 4] : List Instr),
    ((bar 3 ⟨0, some 3, [(0, 1)], []⟩ (twoGroups id (twoLanes 0 (issued i)))).env?.any fun e =>
      clearAt e i (e.barConds 3 4 true) && e.again 3 == [0] && e.lanes == [0, 1] && (e.thread 1).any (·.wait == .ready)) = true := by decide

/-- A store whose lane's earlier element, and one whose bytes, have not landed; a load of two elements, one that is read as a whole. -/
def elements : FlightOp :=
  .lateStore false [⟨0, 0, .mem ⟨.dram, 0x20000⟩, List.replicate 4 (1, false)⟩, ⟨0, 1, .mem ⟨.dram, 0x20010⟩, List.replicate 4 (2, false)⟩,
    ⟨1, 0, .mem ⟨.dram, 0x20002⟩, List.replicate 2 (3, false)⟩]
def twoParts : List LatePart := [⟨some (.mem ⟨.dram, 0x20000⟩), 0x20000, 4, 0, none⟩, ⟨some (.mem ⟨.dram, 0x20010⟩), 0x20010, 4, 1, none⟩]
def partly (apart : Bool) (k : Nat) : State := { flying (.lateLoad .die [⟨0, [8, 9], twoParts, apart⟩]) with port2 := none, agenda := [.landStore 7 k] }

theorem witness_blocked : (∀ k ∈ [1, 2], let s : State := { flying elements with port2 := none, agenda := [.landStore 7 k] }
      s.port2 = none ∧ s.upset ≠ some .write ∧ s.agenda = .landStore 7 k :: [] ∧ (s.flight? 7 == some (flight elements)) = true) ∧
    LateStore.meets ⟨0, 0, .mem ⟨.dram, 0x20000⟩, List.replicate 4 (1, false)⟩ (.mem ⟨.dram, 0x20002⟩) 2 = true ∧
    (∀ x ∈ [(true, 0), (true, 1), (false, 0)], (partly x.1 x.2).port2 = none ∧ (partly x.1 x.2).upset ≠ some .write ∧
      (partly x.1 x.2).agenda = .landStore 7 (0 + x.2) :: [] ∧ ((partly x.1 x.2).flight? 7).any (fun f => f.refetch.isNone && f.op == .lateLoad .die ([] ++ [⟨0, [8, 9], twoParts, x.1⟩])) = true) ∧
    ((partly true 0).loadCached 0 .die ⟨.dram, 0x20000⟩ 4).2.1 = false := by decide

/-- R312, R315: the later element waits, and a part that is read keeps what it read. -/
theorem test_elements_in_order :
    (match step { flying elements with port2 := none, agenda := [.landStore 7 1] } with
     | .next t => t.flights == [flight elements]
     | _ => false) = true ∧
    (match step (poke 0x20000 [5, 0, 0, 0] (partly true 0)) with
     | .next t => t.flights == [flight (.lateLoad .die [⟨0, [8, 9], twoParts.set 0 ⟨some (.mem ⟨.dram, 0x20000⟩), 0x20000, 4, 0, some [5, 0, 0, 0]⟩, true⟩])]
     | _ => false) = true := by decide

/-- A thread that may read early for a load that it has not issued, and what it has read then. -/
def reading : State := { poke 0x20004 [7, 0, 0, 0] (sreg 1 0x20004 (placed (.ldW 8 14 1 0 .die false))) with port2 := none, agenda := [.readEarly 0 0 0 0 (BitVec.ofNat 64 placedCode) 0] }
def early0 : EarlyRead := ⟨0, 0, BitVec.ofNat 64 placedCode, ⟨some (.mem ⟨.dram, 0x20004⟩), 0x20004, 4, 0, some [7, 0, 0, 0]⟩, [14], [1]⟩

theorem witness_early : reading.port2 = none ∧ reading.agenda = .readEarly 0 0 0 0 (BitVec.ofNat 64 placedCode) 0 :: [] ∧
    (∀ i ∈ ([.nop, .fence .acquire .die, .movi 14 1] : List Instr), ((issued i).env?.any fun e => early0.order == e.g.order && e.lanes.contains early0.lane) = true) := by
  decide

/-- R328, R336: what a thread read before an older store of another became visible is what its load returns; an acquire, or a write of the register that its
address comes from, undoes that. -/
theorem test_early_read :
    (match step reading with
     | .next t => t.early == [early0]
     | _ => false) = true ∧
    (match exec (.ldW 8 14 1 0 .die false) { lateIssue (based 0x20004 (.ldW 8 14 1 0 .die false)) with early := [early0] } with
     | .next t => t.early.isEmpty && t.flights.map (·.op) == [.lateLoad .die [⟨0, [8], [early0.part], true⟩]]
     | _ => false) = true ∧
    ([(Instr.nop, true), (.fence .acquire .die, false), (.movi 14 1, false), (.stW 8 14 1 0 .die false, false), (.shr 9 10 11 false 0, true)].all fun x =>
      (based 0x20004 x.1).env?.any fun e => e.keeps x.1 { early0 with pc := 0x10004 } == x.2) = true := by decide

/-- Steps whose word or whose events carry nothing that what is held back or read early stands against. -/
theorem witness_undisturbed :
    (∀ e, (issued .nop).env? = some e → (∀ r ∈ (issued .nop).early, e.keeps .nop r = true) ∧ ∀ f ∈ (issued .nop).flights, f.op.isLate = true →
      e.mine f = false ∧ f.touches (e.claims .nop).1 = false ∧ (f.op.lateWrites = true → f.touches (e.claims .nop).2 = false)) ∧
    (issued .nop).upset ≠ some .write ∧ (issued .nop).upset = none := by
  refine ⟨fun e _ => ⟨fun r h => ?_, fun f h => ?_⟩, by decide, by decide⟩
  · rw [show (issued .nop).early = [] by decide] at h; cases h
  · rw [show (issued .nop).flights = [] by decide] at h; cases h

/-- R204, R293, R341: a store of another group to a matrix that an MMA takes lands before the MMA locks it. -/
def besideHeld (i : Instr) : State :=
  { slots ⟨5, 5, 0x3F800000, 0x3F800000, []⟩ (issued i) with flights := [{ flight (.lateStore false [⟨0, 0, .scr 0 64, [(1, false), (2, false)]⟩]) with order := 5, slot := 3 }] }

theorem test_locked_range_settles :
    ((besideHeld (.mma 0 64 1 1 0 false)).orderFor (.mma 0 64 1 1 0 false)).flights.length = 0 ∧
    ((besideHeld .nop).orderFor .nop).flights.length = 1 := by decide

/-- R174: PREF drops an offset that lies beyond the registers of the group and raises no fault; a load traps there. -/
def fewRegs (i : Instr) : State := (based 0x20000 i).updGroup 0 0 0 fun g => { g with nreg := 8 }

theorem test_pref_drops :
    ((fewRegs (.pref 14 1 0)).env?.any fun e => (worst (e.conds (.pref 14 1 0) (e.shape (.pref 14 1 0)))).isNone) = true ∧
    ((fewRegs (.ldW 0 14 1 0 .die false)).env?.any fun e => (worst (e.conds (.ldW 0 14 1 0 .die false) (e.shape (.ldW 0 14 1 0 .die false)))).map (·.cause) == some 4) = true := by
  decide

/-- R102, R458: a load whose pair runs past the registers of the group into a lookahead window traps for the window. -/
def pastEnd (i : Instr) : State := thread0 (fun t => { t with idx := t.idx.set 0 7 }) (fewRegs i)
def within (i : Instr) : State :=
  (thread0 (fun t => { t with windows := [{ left := 3, writes := [7], swrites := [], pwrites := [], reads := [], sreads := [] }] }) (pastEnd i))

theorem test_lookahead_first :
    [within, pastEnd].map (fun f => (f (.ldD 92 2 1 0 .die false)).env?.bind fun e =>
      (worst (e.conds (.ldD 92 2 1 0 .die false) (e.shape (.ldD 92 2 1 0 .die false)))).map (·.cause)) = [some 3, some 4] := by decide

/-- R259: a lane of the issue has AGE 0 after it, though it waits to arrive again, and one that was ready and did not issue ages. -/
theorem test_ages : ((⟨0, 0, 0, 1, 0x10000, false, false⟩ : Issue).ageOf 0 (some placedThread) 0 { placedThread with age := 256, wait := .barrierAgain 3 0 }).age = 0 ∧
    ((⟨0, 0, 0, 1, 0x10000, false, false⟩ : Issue).ageOf 0 (some placedThread) 1 { placedThread with age := 9 }).age = 10 := by decide

/-- A read whose check fails: of an operation in flight, and of a word, its own fetch among them, once more and for good. -/
def misread (lost : Bool) (s : State) : State := { s with upset := some (.read 2 lost) }

theorem witness_failed_reads :
    (let s : State := { loading with port2 := none, agenda := [.readFail 7 2] }
     s.port2 = none ∧ s.agenda = .readFail 7 2 :: [] ∧ (s.flight? 7).any (fun f => f.fault.isNone && f.refetch.isNone && f.op.readsData) = true) ∧
    (∀ lost ∈ [true, false], ∀ i ∈ ([.ldW 8 14 1 0 .die true, .nop] : List Instr), let s := misread lost (based 0x20004 i)
      s.upset = some (.read 2 lost) ∧ i.encode.isSome = true ∧ (s.env?.any fun e => e.l.stop.isNone && e.l.hdr.ring == 0 && (e.readAddr i 2).isSome) = true ∧
      (match exec i s with
       | .next t => s.tookIn t
       | _ => false) = true) ∧
    (let s := failing ringed
     s.upset = some .write ∧ (s.writesFor (.ringDrain 0 0)).any (·.stop.isNone) = true ∧ writesSomething (.ringDrain 0 0) s = true) := by decide

/-- A PILOT whose first product it reads through a view. -/
def viewPilot : PilotOp := { selecting none with p1 := .view 3 (viewOfBytes image) 4 }

theorem witness_view_address : ((flying (.pilot viewPilot)).flight? 7).any (fun f => f.fault.isNone && f.refetch.isNone && f.op == .pilot viewPilot) = true ∧
    (flying (.pilot viewPilot)).mapElem 0 0 0 .module .read (viewOfBytes image) 4 1 = .at_ ⟨.dram, 0x20004⟩ 0x20004 1 ∧
    ((flying (.pilot viewPilot)).windows.find? fun w => w.source == 6 && w.unit == 256) = none := by decide

/-- The machines of `witness_compaction` are such as placements make. -/
theorem witness_well_placed : WellPlaced crowded ∧ WellPlaced stacked := by
  refine ⟨⟨⟨?_, ?_⟩, ?_, ?_, ?_, ?_, ?_⟩, ⟨⟨?_, ?_⟩, ?_, ?_, ?_, ?_, ?_⟩⟩ <;> decide

end Sys2Proof.Tests
end

section
/-! The predicate instructions (R123): what a write of a predicate leaves, what each word completes with, and
the words of major 0x3D that are no instructions. -/
namespace Sys2Proof

/-! ### Reserved words of major 0x3D (R97, R123) -/

theorem toNat_extractLsb'_eq_fld (w : Word) (lo n : Nat) : (w.extractLsb' lo n).toNat = fld w.toNat lo n := by
  rw [BitVec.extractLsb'_toNat, Nat.shiftRight_eq_div_pow, fld]

/-- No row of the table of major 0x3D has an FN of 9 or more. -/
theorem decMaj3D_of_fn_ge (w : Nat) (h : 9 ≤ fld w 21 4) : decMaj3D w = .error (.reservedField 0x3D) := by
  have hne : ∀ k < 9, (fld w 21 4 == k) = false := fun k hk => beq_false_of_ne (by omega)
  simp [decMaj3D, hne]

/-- The words of major 0x3D decode by its own table. -/
theorem decode_of_maj3D (w : Word) (h : w.extractLsb' 25 7 = 0x3D#7) : decode w = decMaj3D w.toNat := by
  have hmaj : fld w.toNat 25 7 = 0x3D := by
    rw [← toNat_extractLsb'_eq_fld, h]
    rfl
  rw [decode, decodeNat, hmaj]
  rfl

end Sys2Proof

namespace Sys2Proof.Machine
open Sys2Proof.Safety

/-! ### Predicates after a write (R30) -/

/-- p0 reads as 1; any other predicate is its bit of the predicate byte. -/
theorem Thread.p_eq (t : Thread) (k : Nat) : t.p k = if k = 0 then true else t.preds.getLsbD k := by
  rw [Thread.p, bitOf_eq_testBit]
  rfl

/-- A write to p0 is discarded (R30). -/
@[simp] theorem Thread.setP_zero (t : Thread) (v : Bool) : t.setP 0 v = t := rfl

/-- A write of any other predicate changes its bit of the predicate byte alone. -/
theorem Thread.getLsbD_preds_setP (t : Thread) (k j : Nat) (v : Bool) (hk : k ≠ 0) (hj : j < 8) :
    (t.setP k v).preds.getLsbD j = if j = k then v else t.preds.getLsbD j := by
  have hbit : (BitVec.ofNat 8 (2 ^ k)).getLsbD j = decide (j = k) := by
    rw [BitVec.getLsbD_ofNat, Nat.testBit_two_pow]
    simp [hj, eq_comm]
  rw [Thread.setP, if_neg hk]
  cases v with
  | false =>
    simp only [Bool.false_eq_true, if_false, BitVec.getLsbD_and, BitVec.getLsbD_not, hbit]
    by_cases h : j = k <;> simp [h, hj]
  | true =>
    simp only [if_true, BitVec.getLsbD_or, hbit]
    by_cases h : j = k <;> simp [h]

/-- A predicate after a write of one: the new value where it is the one written, which p0 never is. -/
theorem Thread.p_setP (t : Thread) (k j : Nat) (v : Bool) (hj : j < 8) :
    (t.setP k v).p j = if j = k ∧ k ≠ 0 then v else t.p j := by
  by_cases hk : k = 0
  · simp [hk]
  · rw [Thread.p_eq, Thread.p_eq, Thread.getLsbD_preds_setP t k j v hk hj]
    by_cases hj0 : j = 0
    · simp [hj0, Ne.symm hk]
    · simp [hj0, hk]

/-! ### The words -/

/-- A word that runs as a write of one predicate completes with that predicate, wherever nothing stands against it. -/
theorem predBecomes_of_exec {s : State} {i : Instr} {e : Env} {p : BitVec 3} {q : Bool} {f : Env → Nat → Thread → Bool × Nat}
    (hx : exec i s = predOp s i p q f) (h : Clear s i e []) : PredBecomes s e i p q (f e) := by
  rw [PredBecomes, ThreadsBecome, hx]
  exact predOp_clear s i e p q f h

section
variable (p a b g : BitVec 3) (s : State)

theorem exec_pand : exec (.pand p a b g) s = predOp s (.pand p a b g) p true fun _ _ t => (t.p a.toNat && t.p b.toNat, 0) := rfl
theorem exec_por : exec (.por p a b g) s = predOp s (.por p a b g) p true fun _ _ t => (t.p a.toNat || t.p b.toNat, 0) := rfl
theorem exec_pxor : exec (.pxor p a b g) s = predOp s (.pxor p a b g) p true fun _ _ t => (t.p a.toNat != t.p b.toNat, 0) := rfl
theorem exec_pnot : exec (.pnot p a g) s = predOp s (.pnot p a g) p true fun _ _ t => (!t.p a.toNat, 0) := rfl
theorem exec_pmov : exec (.pmov p a g) s = predOp s (.pmov p a g) p true fun _ _ t => (t.p a.toNat, 0) := rfl

end

/-! ### The obligation -/

/-- Settles O15: each word runs as one write of a predicate, whose effect is that of `predOp_clear`; a write changes
the named predicate alone and never p0; and no row of the table of major 0x3D has an FN of 9 or more. -/
theorem predicateResults : Obligations.PredicateResults := by
  refine ⟨fun p a b g s e => ⟨?pand, ?por, ?pxor⟩, fun p a g s e => ⟨?pnot, ?pmov⟩, ?write, ?reserved⟩
  case pand => exact predBecomes_of_exec (exec_pand p a b g s)
  case por => exact predBecomes_of_exec (exec_por p a b g s)
  case pxor => exact predBecomes_of_exec (exec_pxor p a b g s)
  case pnot => exact predBecomes_of_exec (exec_pnot p a g s)
  case pmov => exact predBecomes_of_exec (exec_pmov p a g s)
  case write => exact fun t k j v _ hj => t.p_setP k j v hj
  case reserved =>
    intro w hmaj hfn
    rw [decode_of_maj3D w hmaj, decMaj3D_of_fn_ge _ (by rwa [← toNat_extractLsb'_eq_fld])]
    rfl

end Sys2Proof.Machine
end

section
/-! Entries of a table of level 0 (R395): what a walk that reaches one answers, and the address in the page that it maps. -/
namespace Sys2Proof.Machine

/-! ### The line of an entry -/

/-- The 16 entries of the aligned line of 128 bytes that holds the entry at `a` (R395). -/
def entryLine (rd : Nat → Option Nat) (a : Nat) : List (Option Nat) :=
  (List.range 16).map fun i => rd (a / 128 * 128 + 8 * i)

theorem any_isNone_entryLine (rd : Nat → Option Nat) (a : Nat) :
    (entryLine rd a).any (·.isNone) = true ↔ ∃ i < 16, rd (a / 128 * 128 + 8 * i) = none := by
  simp [entryLine, Option.isNone_iff_eq_none]

theorem all_eq_entryLine (rd : Nat → Option Nat) (a e : Nat) :
    (entryLine rd a).all (· == some e) = true ↔ ∀ i < 16, rd (a / 128 * 128 + 8 * i) = some e := by
  simp [entryLine]

/-! ### The walk at level 0 -/

theorem bitOf_eq_true_iff (x i : Nat) : bitOf x i = true ↔ x / 2 ^ i % 2 = 1 := by
  rw [bitOf, beq_iff_eq]

/-- An entry of level 0 that names a further table is malformed (R394). -/
theorem bitOf_leaf_of_wellFormed_levelZero {self e : Nat} (h : pteMalformed self 0 e = false) : bitOf e 8 = true := by
  by_contra hleaf
  simp [pteMalformed, hleaf] at h

section
variable {rd : Nat → Option Nat} {self va table e : Nat} (hrd : rd (table + 8 * field va 12 9) = some e)
  (hvalid : bitOf e 0 = true) (hm : pteMalformed self 0 e = false)
include hrd hvalid hm

/-- What a walk answers at a valid and well-formed entry of level 0: P64 alone decides whether its line counts. -/
theorem walk_levelZero :
    walk rd self va 1 table =
      if bitOf e 9 then
        if (entryLine rd (table + 8 * field va 12 9)).any (·.isNone) then .poison
        else if (entryLine rd (table + 8 * field va 12 9)).all (· == some e) then .leaf e 65536 else .fault 4
      else .leaf e 4096 := by
  simp [walk, hrd, hvalid, hm, bitOf_leaf_of_wellFormed_levelZero hm, entryLine]

theorem walk_levelZero_of_not_p64 (hp : ¬ bitOf e 9 = true) : walk rd self va 1 table = .leaf e 4096 := by
  rw [walk_levelZero hrd hvalid hm, if_neg hp]

theorem walk_levelZero_of_line_agrees (hp : bitOf e 9 = true)
    (hall : ∀ i < 16, rd ((table + 8 * field va 12 9) / 128 * 128 + 8 * i) = some e) : walk rd self va 1 table = .leaf e 65536 := by
  have hread : ¬ (entryLine rd (table + 8 * field va 12 9)).any (·.isNone) = true := by
    rw [any_isNone_entryLine]
    rintro ⟨i, hi, hnone⟩
    simp [hall i hi] at hnone
  rw [walk_levelZero hrd hvalid hm, if_pos hp, if_neg hread, if_pos ((all_eq_entryLine _ _ _).2 hall)]

theorem walk_levelZero_of_line_differs (hp : bitOf e 9 = true)
    (hread : ∀ i < 16, rd ((table + 8 * field va 12 9) / 128 * 128 + 8 * i) ≠ none)
    (hdiff : ∃ i < 16, rd ((table + 8 * field va 12 9) / 128 * 128 + 8 * i) ≠ some e) : walk rd self va 1 table = .fault 4 := by
  have hany : ¬ (entryLine rd (table + 8 * field va 12 9)).any (·.isNone) = true := by
    rw [any_isNone_entryLine]
    rintro ⟨i, hi, hnone⟩
    exact hread i hi hnone
  have hall : ¬ (entryLine rd (table + 8 * field va 12 9)).all (· == some e) = true := by
    rw [all_eq_entryLine]
    obtain ⟨i, hi, hne⟩ := hdiff
    exact fun h => hne (h i hi)
  rw [walk_levelZero hrd hvalid hm, if_pos hp, if_neg hany, if_neg hall]

end

/-! ### The address that a leaf maps -/

/-- Whichever memory the access goes to, it goes to the PA of the leaf and the offset in its page: every other branch is a fault. -/
theorem State.addr_of_leafAddr_ok {s : State} {acc : Access} {va e size : Nat} {p : PAddr} (h : s.leafAddr acc va e size = .ok p) :
    p.addr = field e 12 36 * 4096 + va % size := by
  simp only [State.leafAddr] at h
  split_ifs at h <;> cases h <;> rfl

/-! ### The obligation -/

/-- Settles O7: `walk_levelZero` says what a walk answers at level 0, and each clause is one of its branches; the last is the address
that a leaf gives, for the page size of 64 KiB. -/
theorem pageEntries : Obligations.PageEntries := by
  refine ⟨?entry, fun s acc va e p h => State.addr_of_leafAddr_ok h⟩
  case entry =>
    intro rd self va table e at_ hrd hv hm
    have hvalid : bitOf e 0 = true := (bitOf_eq_true_iff e 0).2 (by simpa using hv)
    refine ⟨fun hp => ?small, fun hp hall => ?agrees, fun hp hread hdiff => ?differs⟩
    case small => exact walk_levelZero_of_not_p64 hrd hvalid hm (by rw [bitOf_eq_true_iff, hp]; exact Nat.zero_ne_one)
    case agrees => exact walk_levelZero_of_line_agrees hrd hvalid hm ((bitOf_eq_true_iff e 9).2 hp) hall
    case differs => exact walk_levelZero_of_line_differs hrd hvalid hm ((bitOf_eq_true_iff e 9).2 hp) hread hdiff

end Sys2Proof.Machine
end
